-- ==== Sys2Proof/Word.lean ====
section
/-! DEFINITION. The widths and index types of the node, and the fixed-size table that every numbered
group of like things (axes, peers, zones, takes) is held in. -/

namespace Sys2Proof

/-- A station number of the Spanline, 0 to 15 (spec/00_scope.md, "Stations and the Spanline"). -/
abbrev Station := Fin 16

/-- An axis channel of the node, 0 to 2 (R30). -/
abbrev Axis := Fin 3

/-- A guard input, 0 to 7 (R149). -/
abbrev Input := Fin 8

/-- A zone of the guard unit, 0 to 7 (R152). -/
abbrev Zone := Fin 8

/-- A slot of the take directory.  Take number n of the spec is slot n - 1 (R80). -/
abbrev Slot := Fin 32

/-- A 16-bit word of a frame's payload (R186). -/
abbrev Word16 := BitVec 16

/-- A take time, or a time of the move clock, in tu, kept modulo 2^32 (Table 2, R113, R147). -/
abbrev TakeTime := BitVec 32

/-- A fixed number of like things, indexed from 0. -/
structure Table (α : Type) (n : Nat) where
  /-- The things, in index order. -/
  rows : List α
  /-- There are as many as the index type has values. -/
  size_eq : rows.length = n
deriving DecidableEq, Repr

/-- The thing at an index. -/
def Table.get {α : Type} {n : Nat} (t : Table α n) (i : Fin n) : α :=
  t.rows[i.val]'(t.size_eq.symm ▸ i.isLt)

/-- The table with the thing at one index replaced. -/
def Table.set {α : Type} {n : Nat} (t : Table α n) (i : Fin n) (a : α) : Table α n :=
  ⟨t.rows.set i a, by simp [t.size_eq]⟩

/-- The table given index by index. -/
def Table.ofFn {α : Type} {n : Nat} (f : Fin n → α) : Table α n :=
  ⟨List.ofFn f, by simp⟩

/-- The table that holds one thing at every index. -/
def Table.fill {α : Type} (n : Nat) (a : α) : Table α n :=
  ⟨List.replicate n a, by simp⟩

/-- The table with every thing replaced by its image. -/
def Table.map {α β : Type} {n : Nat} (f : α → β) (t : Table α n) : Table β n :=
  ⟨t.rows.map f, by simp [t.size_eq]⟩

end Sys2Proof
end

