-- ==== Sys2Proof/Config.lean ====
section
/-! DEFINITION. What the configuration image fixes until the next reset (R183, R190), the values of a
node without a valid image (R184), and the values the spec leaves open. -/

namespace Sys2Proof

/-- The kind of an axis (R30, R68). -/
inductive AxisKind where
  | arm | focus | iris | zoom
deriving DecidableEq, Repr

/-- A lens axis is held in lens units, an arm axis in counts (R30). -/
def AxisKind.isLens (k : AxisKind) : Bool := k != .arm

/-- One point of a lens map: a lens unit paired with a count (R69). -/
structure LensPoint where
  /-- The lens unit. -/
  unit : Int
  /-- The motor count. -/
  count : Int
deriving DecidableEq, Repr

/-- A lens map: its points in index order.  The empty list is the map of 0 points (R69). -/
abbrev LensMap := List LensPoint

/-- The parameters of one axis, with the Q8 constants that R57 derives at load. -/
structure AxisConfig where
  /-- Kind of the axis. -/
  kind : AxisKind
  /-- FE_count, 1 to 255. -/
  feCount : Nat
  /-- The encoder loss count E, 1 to 15. -/
  lossLimit : Nat
  /-- Lower travel limit in counts. -/
  smin : Int
  /-- Upper travel limit in counts. -/
  smax : Int
  /-- Maximum velocity in counts per second. -/
  vmax : Int
  /-- Acceleration in counts per second squared. -/
  amax : Int
  /-- Halt deceleration in counts per second squared. -/
  ahalt : Int
  /-- Following limit in counts. -/
  followLimit : Int
  /-- Arrival window in counts. -/
  arrivalWindow : Int
  /-- Closure window in counts. -/
  closureWindow : Int
  /-- Vmax in Q8 per servo update (R57). -/
  vmax8 : Int
  /-- Amax in Q8 per servo update (R57). -/
  amax8 : Int
  /-- Ahalt in Q8 per servo update (R57). -/
  ahalt8 : Int
  /-- The default lens map of the image, after the clamping and the check of R79. -/
  defaultMap : LensMap
deriving DecidableEq, Repr

/-- The mode of a guard input (section 10.1). -/
inductive InputMode where
  | level | edge
deriving DecidableEq, Repr

/-- The definition of a guard input (R150, R151, R190). -/
structure InputConfig where
  /-- LEVEL or EDGE. -/
  mode : InputMode
  /-- True when the input is active high. -/
  activeHigh : Bool
  /-- The filter length F, 1 to 15 (R150). -/
  filterLength : Nat
deriving DecidableEq, Repr

/-- The action of a zone (Table 10-1). -/
inductive ZoneAction where
  | scale | hold | halt | sever
deriving DecidableEq, Repr

/-- The definition of a zone (Table 10-1). -/
structure ZoneConfig where
  /-- Bit i set: the zone holds input i. -/
  mask : BitVec 8
  /-- The zone's action. -/
  action : ZoneAction
  /-- The ceiling of a SCALE zone, 0 to 1024. -/
  ceiling : Nat
  /-- True for the ACK latch, false for AUTO. -/
  ackLatch : Bool
  /-- The armed flag at reset (R160). -/
  armedAtReset : Bool
deriving DecidableEq, Repr

/-- The cue input mode (R130). -/
inductive CueInputMode where
  | none | advanceEdge | runLevel
deriving DecidableEq, Repr

/-- The node's configuration: what the image gives (R190), or the values of R184. -/
structure NodeConfig where
  /-- True when a valid image was read (R184). -/
  valid : Bool
  /-- True at 4 Mbit/s, false at 2 Mbit/s (R1). -/
  fastLine : Bool
  /-- The servo period p in ms, 1 or 2. -/
  servoPeriod : Nat
  /-- How many axis channels are configured, 0 to 3 (R30). -/
  axisCount : Nat
  /-- The cue input mode. -/
  cueMode : CueInputMode
  /-- The permitted-consoles mask (R27). -/
  permitted : BitVec 16
  /-- Idle release time in ms (R39). -/
  idleRelease : Nat
  /-- Jog timeout in ms (R42). -/
  jogTimeout : Nat
  /-- Silence limit in ms (section 2.2). -/
  silenceLimit : Nat
  /-- State period in ms (section 2.3). -/
  statePeriod : Nat
  /-- Pace period in ms (R139). -/
  pacePeriod : Nat
  /-- Rise of the path rate per millisecond (R141). -/
  rise : Nat
  /-- Fall of the path rate per millisecond (R141). -/
  fall : Nat
  /-- Roll window in ms (R107). -/
  rollWindow : Nat
  /-- Alignment window in ms (R115). -/
  alignWindow : Nat
  /-- Taint span in ms (R89). -/
  taintSpan : Nat
  /-- Rejoin time in ms (R179). -/
  rejoinTime : Nat
  /-- The guard inputs. -/
  inputs : Table InputConfig 8
  /-- The zones. -/
  zones : Table ZoneConfig 8
  /-- The axes; only those below `axisCount` are configured. -/
  axes : Table AxisConfig 3
deriving DecidableEq, Repr

/-- The parameters that stand in an axis record no image has filled: nothing reads them, since the
channel is DISABLED (R30). -/
def AxisConfig.unused : AxisConfig :=
  { kind := .arm, feCount := 1, lossLimit := 1, smin := 0, smax := 1, vmax := 4, amax := 1, ahalt := 1,
    followLimit := 0, arrivalWindow := 0, closureWindow := 0, vmax8 := 1, amax8 := 1, ahalt8 := 1,
    defaultMap := [] }

/-- An input of a node without an image: it is not sampled (R184). -/
def InputConfig.unused : InputConfig := { mode := .level, activeHigh := false, filterLength := 1 }

/-- A zone of a node without an image: disarmed, with an empty mask (R160, R184). -/
def ZoneConfig.unused : ZoneConfig :=
  { mask := 0, action := .scale, ceiling := 1024, ackLatch := false, armedAtReset := false }

/-- The configuration of an UNCONFIGURED node: the table of R184 with the defaults of the chapters. -/
def NodeConfig.unconfigured : NodeConfig :=
  { valid := false, fastLine := false, servoPeriod := 1, axisCount := 0, cueMode := .none,
    permitted := 0xFFFF, idleRelease := 2000, jogTimeout := 50, silenceLimit := 25, statePeriod := 8,
    pacePeriod := 4, rise := 2, fall := 8, rollWindow := 30, alignWindow := 100, taintSpan := 500,
    rejoinTime := 400, inputs := Table.fill 8 InputConfig.unused, zones := Table.fill 8 ZoneConfig.unused,
    axes := Table.fill 3 AxisConfig.unused }

/-- FREE VALUE: the count a forward conversion gives through a map of 0 points.  The spec states no
result there; no operation of the spec reaches it (R69, R78).  Log entry 9. -/
opaque Config.unmappedCount : Int → Int

/-- FREE VALUE: the lens unit an inverse conversion gives through a map of 0 points.  Log entry 9. -/
opaque Config.unmappedUnit : Int → Int

/-- FREE VALUE: the lens velocity of R65 through a map of 0 points.  Log entry 9. -/
opaque Config.unmappedVelocity : Int → Int → Int

end Sys2Proof
end

