-- ==== Sys2Proof/Syntax.lean ====
section
/-! DEFINITION. The names the spec gives its modes, states, causes and reasons; the frames of the
Spanline; and `Instr`, the node's commands and events, one constructor for each row of
spec/opcode_table.json. -/

namespace Sys2Proof

/-- Station modes, in the order of their codes (R189). -/
inductive Mode where
  | start | unconfigured | idle | armed | cueing | ready | rolling | recording | playing | held | halted
  | recovering
deriving DecidableEq, Repr

/-- The classes of claims, in rising order (section 11.1). -/
inductive Cls where
  | none | hold | halt | sever
deriving DecidableEq, Repr

/-- Axis states, in the order of their codes (R189, Table 3-1). -/
inductive AxisState where
  | disabled | rest | jog | goto | follow | override | rejoin | braking | severed | fault
deriving DecidableEq, Repr

/-- Roles of a station (R24). -/
inductive Role where
  | axis | console | unconfigured
deriving DecidableEq, Repr

/-- Cause kinds of claims, in the order of their codes (R187). -/
inductive CauseKind where
  | stopLine | zone | follow | encoder | peerSilent | peerMismatch | linkLost | duplicate
deriving DecidableEq, Repr

/-- A cause kind with its parameter: the key of an own claim (Table 11-1). -/
inductive Cause where
  | stopLine
  | zone (z : Zone)
  | follow (a : Axis)
  | encoder (a : Axis)
  | peerSilent (n : Station)
  | peerMismatch
  | linkLost
  | duplicate
deriving DecidableEq, Repr

/-- The cause kind of a key. -/
def Cause.kind : Cause → CauseKind
  | .stopLine => .stopLine
  | .zone _ => .zone
  | .follow _ => .follow
  | .encoder _ => .encoder
  | .peerSilent _ => .peerSilent
  | .peerMismatch => .peerMismatch
  | .linkLost => .linkLost
  | .duplicate => .duplicate

/-- The modes a CUE may name (R103). -/
inductive CueMode where
  | once | loop | step
deriving DecidableEq, Repr

/-- The modes of a roll (R104, section 7.4). -/
inductive RollMode where
  | play | record | resumeFrom
deriving DecidableEq, Repr

/-- The states of a take directory entry (R80). -/
inductive EntryState where
  | empty | armed | recording | stored
deriving DecidableEq, Repr

/-- How an entry became STORED (R80). -/
inductive EndCause where
  | wrap | storeFull | taint | load
deriving DecidableEq, Repr

/-- The states of a zone (R152). -/
inductive ZoneState where
  | clear | occupied | vacated
deriving DecidableEq, Repr

/-- The kinds of frame (R188). -/
inductive Kind where
  | stopClaim | stopRelease | stopClear | rearm
  | roll | rollAccept | rollRefuse
  | armRecord | cue | wrap | resume | recover | brk | advance | jog | goto | controlRelease | punchIn
  | punchOut | masterRate | mark | unmark | cuePoints | trim | delete | lensPoint | lensCommit | zoneArm
  | zoneDisarm | zoneAck | faultClear | query | takeRead | takeLoadBegin | takeLoadEnd | reset
  | pace | state
  | answer | directoryEntry | tripReport | markerReport | counters
  | keyframeData
deriving DecidableEq, Repr

/-- The refusal reasons of commands (R15, section 1.6). -/
inductive Reason where
  | unconfigured | notAddressed | notPermitted | notController | stopped | mapInvalid | mapAbsent
  | takeInUse | markInvalid | storeFull | busy | takeOccupied | noTake | notPlayable | notClosed
  | insideMark | gap | originatorLive
deriving DecidableEq, Repr

/-- The named details of answers.  The spec gives them names, not codes. -/
inductive DetailName where
  | none | disabled | override | driveOff | braking | encoder | axisState (st : AxisState)
  | pending | active | noRecord | notLens | index | writer | count | empty | units | counts
  | slot | range | closure | sharedEnd | overlap | depth | cuePoints | trim | cuePoint | stamp
  | noLoad | missing | notStep | own | unavailable | haltSequence | axis
deriving DecidableEq, Repr

/-- The detail code of an answer: a name, and the number that goes with it where the rule gives one. -/
structure Detail where
  /-- The named detail. -/
  name : DetailName := .none
  /-- The number: an axis, a slot, an index, a sequence number. -/
  number : Option Nat := Option.none
deriving DecidableEq, Repr

/-- The result of a command (R15). -/
inductive AnswerResult where
  | done | doneClamped | refused (reason : Reason)
deriving DecidableEq, Repr

/-- A trip capture (R157). -/
structure Trip where
  /-- The take time most recently published at the capture. -/
  time : TakeTime
  /-- The station mode at the capture. -/
  mode : Mode
  /-- The sequence number STATE would carry (R24). -/
  seq : BitVec 16
  /-- The inputs of the zone's mask that were active for the zone. -/
  causes : BitVec 8
deriving DecidableEq, Repr

/-- The payload of STOP-CLAIM and STOP-RELEASE (R163, R189). -/
structure StopFields where
  /-- Greatest class of the own claim set after the change, by its code. -/
  summary : BitVec 2
  /-- The sender's effective class after the change. -/
  effective : BitVec 2
  /-- The presence flag of the take time. -/
  timeFlag : Bool
  /-- The kind of the cause just changed. -/
  cause : BitVec 4
  /-- The parameter of the cause just changed. -/
  param : BitVec 4
  /-- The mask of the cause kinds in the own claim set. -/
  causeMask : BitVec 16
  /-- The take time. -/
  time : TakeTime
deriving DecidableEq, Repr

/-- One axis byte of a STATE frame (R189). -/
structure AxisSummary where
  /-- Axis state code. -/
  state : BitVec 4
  /-- Lens-end flag (R73). -/
  lensEnd : Bool
  /-- Map-pending flag (R69). -/
  mapPending : Bool
deriving DecidableEq, Repr

/-- The payload of STATE (R24, R189).  Fields are codes as they stand in the frame: a code may have no
meaning (R187). -/
structure StateFields where
  /-- Role code. -/
  role : BitVec 2
  /-- Mode code. -/
  mode : BitVec 4
  /-- Effective class code. -/
  cls : BitVec 2
  /-- Claim summary: greatest own class. -/
  summary : BitVec 2
  /-- Claim summary: presence flag of the take time. -/
  timeFlag : Bool
  /-- Ready flag. -/
  ready : Bool
  /-- CONFIG-ABSENT. -/
  configAbsent : Bool
  /-- Drive latch. -/
  driveLatch : Bool
  /-- Drive-enable output. -/
  driveEnable : Bool
  /-- Section-wait flag. -/
  sectionWait : Bool
  /-- Claim summary: mask of cause kinds. -/
  causeMask : BitVec 16
  /-- Claim summary: take time of the last STOP frame. -/
  stopTime : TakeTime
  /-- Take number, 0 for none. -/
  take : BitVec 8
  /-- Roll number. -/
  roll : BitVec 8
  /-- Take stamp. -/
  stamp : BitVec 32
  /-- Edit signature. -/
  signature : BitVec 16
  /-- Sequence (R24). -/
  seq : BitVec 16
  /-- Roll result code. -/
  result : BitVec 2
  /-- Cancel cause code. -/
  cancelCause : BitVec 3
  /-- Refusal reason code. -/
  refusal : BitVec 3
  /-- Station named by the cause. -/
  causeStation : BitVec 4
  /-- Pass depth. -/
  depth : BitVec 3
  /-- Recovery mark. -/
  recovery : Bool
  /-- Remaining counts of pass levels 1 to 4, bottom level first. -/
  passCounts : Table (BitVec 8) 4
  /-- The three axis bytes. -/
  axes : Table AxisSummary 3
deriving DecidableEq, Repr

/-- The payload of PACE (R139, R189). -/
structure PaceFields where
  /-- The take time, written at the start bit (R4). -/
  time : TakeTime
  /-- The sender's path rate. -/
  rate : BitVec 16
  /-- The sender's announced ceiling. -/
  ceiling : BitVec 16
deriving DecidableEq, Repr

/-- The payload of ROLL (R189).  The mode is a code that may have no meaning (R187). -/
structure RollFields where
  /-- Roll number. -/
  number : BitVec 8
  /-- Take number. -/
  take : BitVec 8
  /-- Take stamp. -/
  stamp : BitVec 32
  /-- Edit signature. -/
  signature : BitVec 16
  /-- Roll mode code. -/
  mode : BitVec 8
  /-- Start sequence. -/
  startSeq : BitVec 16
deriving DecidableEq, Repr

/-- One axis field of KEYFRAME-DATA (R189). -/
structure AxisWords where
  /-- Signed position. -/
  pos : BitVec 32
  /-- Signed velocity. -/
  vel : BitVec 32
deriving DecidableEq, Repr

/-- The payload of KEYFRAME-DATA (R189). -/
structure KeyframeFields where
  /-- Take number. -/
  take : BitVec 8
  /-- Keyframe index. -/
  index : BitVec 16
  /-- The three axis fields in channel order. -/
  axes : Table AxisWords 3
deriving DecidableEq, Repr

/-- The payload of ANSWER (R15).  Its byte layout is not in the spec. -/
structure AnswerFields where
  /-- The station that sent the command. -/
  station : Station
  /-- The kind of the command. -/
  kind : Kind
  /-- The command tag. -/
  tag : BitVec 8
  /-- The result, with its reason when refused. -/
  result : AnswerResult
  /-- The detail code. -/
  detail : Detail
deriving DecidableEq, Repr

/-- The payload of DIRECTORY-ENTRY (R95).  Its byte layout is not in the spec. -/
structure DirectoryFields where
  /-- The command tag. -/
  tag : BitVec 8
  /-- Entry state. -/
  state : EntryState
  /-- Take stamp. -/
  stamp : BitVec 32
  /-- Participant mask. -/
  mask : BitVec 16
  /-- Keyframe interval. -/
  interval : Nat
  /-- Keyframe count. -/
  count : Nat
  /-- Edit signature. -/
  signature : BitVec 16
  /-- Edit count. -/
  editCount : BitVec 16
  /-- Tainted flag with its trip time. -/
  taint : Option TakeTime
  /-- End cause. -/
  endCause : Option EndCause
  /-- Mask of used mark slots. -/
  marks : BitVec 8
  /-- Number of cue points. -/
  cuePoints : Nat
  /-- The node's free-block count. -/
  freeBlocks : Nat
deriving DecidableEq, Repr

/-- The payload of TRIP-REPORT (R159).  Its byte layout is not in the spec. -/
structure TripFields where
  /-- The command tag. -/
  tag : BitVec 8
  /-- Zone number. -/
  zone : Zone
  /-- Armed flag. -/
  armed : Bool
  /-- Zone state. -/
  state : ZoneState
  /-- The trip record: none when empty. -/
  trip : Option Trip
  /-- Overrun flag. -/
  overrun : Bool
  /-- The inputs of the zone's mask active for the zone now. -/
  active : BitVec 8
deriving DecidableEq, Repr

/-- A captured marker (R117). -/
structure MarkerCapture where
  /-- The take time captured. -/
  time : TakeTime
  /-- The play sequence number captured, 0 in RECORDING. -/
  seq : BitVec 16
deriving DecidableEq, Repr

/-- The payload of MARKER-REPORT (R117).  Its byte layout is not in the spec. -/
structure MarkerFields where
  /-- The command tag. -/
  tag : BitVec 8
  /-- The capture: none when the record is empty. -/
  capture : Option MarkerCapture
  /-- Overrun flag. -/
  overrun : Bool
deriving DecidableEq, Repr

/-- The seven line counters (R16). -/
structure Counters where
  /-- CRC errors. -/
  crcErrors : Nat
  /-- Malformed frames. -/
  malformed : Nat
  /-- Transmit failures. -/
  txFailures : Nat
  /-- Transmit drops. -/
  txDrops : Nat
  /-- Receive drops. -/
  rxDrops : Nat
  /-- Alignment skips. -/
  alignSkips : Nat
  /-- ADVANCE overruns. -/
  advanceOverruns : Nat
deriving DecidableEq, Repr

/-- What a command of class 2, a STOP-CLEAR or a REARM carries after its target and tag.  Only QUERY,
JOG, GOTO and CUE-POINTS have a byte layout in the spec (R188); the others are named by their fields. -/
inductive CommandBody where
  | stopClear (originator : Nat)
  | rearm
  | armRecord (take : Nat) (stamp : BitVec 32) (mask : BitVec 16) (interval : Nat) (overwrite : Bool)
  | cue (take : Nat) (stamp : BitVec 32) (mode : CueMode) (cuePoint : Option Nat) (duration : Nat)
  | wrap
  | resume
  | recover (seq : BitVec 16)
  | brk
  | advance
  | jog (demands : Table (Option (BitVec 32)) 3)
  | goto (duration : BitVec 16) (targets : Table (Option (BitVec 32)) 3)
  | controlRelease (axes : BitVec 3)
  | punchIn (axis : Nat) (record : Bool)
  | punchOut (axis : Nat)
  | masterRate (value : Nat)
  | mark (take slot start stop count : Nat)
  | unmark (take slot : Nat)
  | cuePoints (take : Nat) (points : List Nat)
  | trim (take last : Nat)
  | delete (take : Nat)
  | lensPoint (axis index unit : Nat) (count : Int)
  | lensCommit (axis count : Nat)
  | zoneArm (zones : BitVec 8)
  | zoneDisarm (zones : BitVec 8)
  | zoneAck (zones : BitVec 8)
  | faultClear (axis : Nat)
  | query (subject low : BitVec 8)
  | takeRead (take first count : Nat)
  | takeLoadBegin (take : Nat) (stamp : BitVec 32) (mask : BitVec 16) (interval count : Nat)
  | takeLoadEnd (take : Nat)
  | reset
deriving DecidableEq, Repr

/-- The kind of a command's frame. -/
def CommandBody.kind : CommandBody → Kind
  | .stopClear _ => .stopClear
  | .rearm => .rearm
  | .armRecord _ _ _ _ _ => .armRecord
  | .cue _ _ _ _ _ => .cue
  | .wrap => .wrap
  | .resume => .resume
  | .recover _ => .recover
  | .brk => .brk
  | .advance => .advance
  | .jog _ => .jog
  | .goto _ _ => .goto
  | .controlRelease _ => .controlRelease
  | .punchIn _ _ => .punchIn
  | .punchOut _ => .punchOut
  | .masterRate _ => .masterRate
  | .mark _ _ _ _ _ => .mark
  | .unmark _ _ => .unmark
  | .cuePoints _ _ => .cuePoints
  | .trim _ _ => .trim
  | .delete _ => .delete
  | .lensPoint _ _ _ _ => .lensPoint
  | .lensCommit _ _ => .lensCommit
  | .zoneArm _ => .zoneArm
  | .zoneDisarm _ => .zoneDisarm
  | .zoneAck _ => .zoneAck
  | .faultClear _ => .faultClear
  | .query _ _ => .query
  | .takeRead _ _ _ => .takeRead
  | .takeLoadBegin _ _ _ _ _ => .takeLoadBegin
  | .takeLoadEnd _ => .takeLoadEnd
  | .reset => .reset

/-- What a frame carries, by its fields. -/
inductive Payload where
  | stopClaim (f : StopFields)
  | stopRelease (f : StopFields)
  | roll (f : RollFields)
  | rollAccept (number : BitVec 8)
  | rollRefuse (number reason : BitVec 8)
  | command (target tag : BitVec 8) (body : CommandBody)
  | pace (f : PaceFields)
  | state (f : StateFields)
  | answer (f : AnswerFields)
  | directoryEntry (f : DirectoryFields)
  | tripReport (f : TripFields)
  | markerReport (f : MarkerFields)
  | counters (tag : BitVec 8) (c : Counters)
  | keyframeData (f : KeyframeFields)
deriving DecidableEq, Repr

/-- The kind of a frame. -/
def Payload.kind : Payload → Kind
  | .stopClaim _ => .stopClaim
  | .stopRelease _ => .stopRelease
  | .roll _ => .roll
  | .rollAccept _ => .rollAccept
  | .rollRefuse _ _ => .rollRefuse
  | .command _ _ b => b.kind
  | .pace _ => .pace
  | .state _ => .state
  | .answer _ => .answer
  | .directoryEntry _ => .directoryEntry
  | .tripReport _ => .tripReport
  | .markerReport _ => .markerReport
  | .counters _ _ => .counters
  | .keyframeData _ => .keyframeData

/-- A frame as it stands on the line at its last CRC bit (R1, R2, R9).  `fields` reads the
payload of a kind whose layout the spec does not give (log entry 4); for the other kinds it is not
looked at. -/
structure LineFrame where
  /-- The bits on the line from the start bit on, stuff bits and all; a recessive bit is true and reads as 1. -/
  line : List Bool
  /-- The payload by its fields. -/
  fields : Payload
deriving DecidableEq, Repr

/-- The local lines that the node reads when START ends (R118, R137, R184). -/
structure StartPins where
  /-- Station-number straps; the first strap pin is the most significant bit (R184). -/
  straps : BitVec 4
  /-- True when the cue input is low. -/
  cueLow : Bool
  /-- True when the marker input is low. -/
  markLow : Bool
  /-- True when the stop line loop is closed. -/
  loopClosed : Bool
deriving DecidableEq, Repr

/-- A servo update that is taken between a publication of T and the retirement at that T (R50, R132). -/
structure EarlyUpdate where
  /-- The axis. -/
  axis : Axis
  /-- The encoder words that have arrived since its previous update. -/
  encoderWords : List (BitVec 40)
  /-- True when the end of a GOTO under HOLD is taken before its arrival (R45, log entry 17). -/
  holdEndFirst : Bool
deriving DecidableEq, Repr

/-- The orders of one pace step that the spec leaves open (R50, R112, R132, R143). -/
structure PaceOrder where
  /-- True when the zero-rate report is taken before the retirement (log entry 17). -/
  reportFirst : Bool
  /-- The servo updates that are taken before the retirement at the same published T (log entry 35). -/
  updates : List EarlyUpdate
deriving DecidableEq, Repr

/-- The commands and events of the node: one constructor for each row of spec/opcode_table.json.
A row about a frame has no operand, since the frame is in the receive queue; a row about the world
outside has as operands what the world brings: a level, an encoder word, an image, or the order in
which two blocks take one report where the spec allows either. -/
inductive Instr where
  | powerOnReset
  | stationReset
  | endOfStart (image : List (BitVec 8)) (pins : StartPins)
  | transmitAttempt (won : Bool) (instant : Nat)
  | frameSentWhole
  | attemptFails
  | linkLostEntry
  | quietTimeExpiry
  | framingViolation (line : List Bool)
  | frameArrives (f : LineFrame)
  | readoutReoffer
  | stopClaim
  | stopRelease
  | stopClear
  | rearm
  | roll
  | rollAccept
  | rollRefuse
  | rollWindowExpiry
  | armRecord
  | cue
  | wrap
  | resume
  | recover
  | brk
  | advance
  | jog
  | goto
  | controlRelease
  | punchIn
  | punchOut
  | masterRate
  | mark
  | unmark
  | cuePoints
  | trim
  | delete
  | lensPoint
  | lensCommit
  | zoneArm
  | zoneDisarm
  | zoneAck
  | faultClear
  | queryCounters
  | queryMarker
  | queryTrip
  | queryDirectory
  | takeRead
  | takeLoadBegin
  | takeLoadEnd
  | reset
  | pace
  | state
  | keyframeData
  | silenceExpiry (n : Station) (takeControllerFirst axesFirst : Bool)
  | statePeriodExpiry
  | pacePeriodExpiry
  | jogTimeout (a : Axis)
  | idleReleaseExpiry (a : Axis)
  | mismatchGraceEnd
  | alignmentWindowEnd
  | servoUpdate (a : Axis) (encoderWords : List (BitVec 40)) (holdEndFirst : Bool)
  | followingFault (a : Axis) (encoderWords : List (BitVec 40))
  | encoderFault (a : Axis) (encoderWords : List (BitVec 40))
  | paceStep (cueLow : Bool) (order : PaceOrder)
  | guardSample (levels : BitVec 8) (loopClosed stopLineFirst : Bool)
  | levelFilterChange (levels : BitVec 8) (loopClosed stopLineFirst : Bool)
  | edgeLatch (i : Input)
  | stopLineOpens
  | stopLineClosed (levels : BitVec 8) (stopLineFirst : Bool)
  | markerEdge
  | cueEdge
  | feederReadDone
  | recorderWrite
  | punchWrite
  | readoutFetch
  | taint
  | startBit (instant : Nat)
  | resetPinRelease
deriving DecidableEq, Repr

end Sys2Proof
end

