-- ==== Sys2Proof/Machine/State.lean ====
section
/-! DEFINITION. The state of the node, block by block as Table 1 of spec/00_scope.md names its owners,
the reasons a command can stop, and the state after a power-on reset. -/

namespace Sys2Proof.Machine

/-! ### Line controller (chapter 1) -/

/-- The link states (R7, R8, R17). -/
inductive LinkState where
  | joined | linkLost | fault
deriving DecidableEq, Repr

/-- A start mark (R4): the instant of a start bit and the T last published then. -/
structure StartMark where
  /-- The instant on the node's time base, in microseconds. -/
  instant : Nat
  /-- The take time last published. -/
  time : TakeTime
deriving DecidableEq, Repr

/-- An entry of the receive queue (R10). -/
structure RxEntry where
  /-- The frame's sender. -/
  sender : Station
  /-- The frame's payload. -/
  payload : Payload
  /-- The frame's start mark. -/
  mark : StartMark
  /-- The own mark of R5. -/
  own : Bool
  /-- The MODEL's own field: the order of arrival, used for "oldest first" at the store port (R98). -/
  serial : Nat
deriving DecidableEq, Repr

/-- An entry of the transmit queue (R12). -/
structure TxFrame where
  /-- The payload; the sender is the node. -/
  payload : Payload
  /-- True while the frame is on the line (R3). -/
  onLine : Bool
deriving DecidableEq, Repr

/-- What the line is doing, as the node sees it (R1, R3). -/
inductive LinePhase where
  /-- No frame is in progress. -/
  | idle
  /-- A frame of another station is in progress; its start mark is kept. -/
  | receiving (mark : StartMark)
  /-- A frame of the node is on the line; its start mark is kept. -/
  | sending (mark : StartMark)
deriving DecidableEq, Repr

/-- The line controller's state. -/
structure LineController where
  /-- Transmit queue, head first. -/
  txq : List TxFrame
  /-- Receive queue, oldest first. -/
  rxq : List RxEntry
  /-- The seven counters (R16). -/
  counters : Counters
  /-- Count of consecutive failed attempts (R6). -/
  failRun : Nat
  /-- Link state. -/
  link : LinkState
  /-- The quiet time in ms while it runs (R7). -/
  quiet : Option Nat
  /-- The phase of the line. -/
  phase : LinePhase
  /-- The MODEL's own field: the serial of the next receive-queue entry. -/
  nextSerial : Nat
deriving DecidableEq, Repr

/-! ### Peer table (chapter 2) -/

/-- Liveness of a peer entry (Table 2-1). -/
inductive Liveness where
  | unknown | live | silent
deriving DecidableEq, Repr

/-- The roll result of a peer, by the codes its STATE carries. -/
structure PeerRoll where
  /-- Roll result code. -/
  result : BitVec 2
  /-- Cancel cause code. -/
  cause : BitVec 3
  /-- Refusal reason code. -/
  refusal : BitVec 3
  /-- Station named by the cause. -/
  station : BitVec 4
deriving DecidableEq, Repr

/-- A peer entry (Table 2-1). -/
structure PeerEntry where
  /-- Liveness. -/
  liveness : Liveness
  /-- Silence timer: the limit it was started with, in ms, while it runs. -/
  silence : Option Nat
  /-- Role. -/
  role : Role
  /-- Mode. -/
  mode : Mode
  /-- Effective class. -/
  cls : Cls
  /-- Take number, 0 for none. -/
  take : BitVec 8
  /-- Take stamp. -/
  stamp : BitVec 32
  /-- Edit signature. -/
  signature : BitVec 16
  /-- Ready flag. -/
  ready : Bool
  /-- Roll result. -/
  result : PeerRoll
  /-- Roll number. -/
  roll : BitVec 8
  /-- Play sequence number. -/
  seq : BitVec 16
  /-- Last T. -/
  lastT : TakeTime
  /-- Path rate r. -/
  rate : Nat
  /-- Announced ceiling. -/
  ceiling : Nat
deriving DecidableEq, Repr

/-- The peer table's state. -/
structure PeerTable where
  /-- The sixteen entries. -/
  entries : Table PeerEntry 16
  /-- State period timer: the period it was started with, in ms, while it runs (R23). -/
  stateTimer : Option Nat
deriving DecidableEq, Repr

/-! ### Axis channels (chapters 3, 4 and 12) -/

/-- The controller field of an axis (section 3.6). -/
inductive Controller where
  | none
  | console (n : Station)
  | take
deriving DecidableEq, Repr

/-- A segment record (R49). -/
structure Segment where
  /-- Start time in tu. -/
  t0 : TakeTime
  /-- Duration in ms, 1 to 65,535. -/
  dur : Nat
  /-- Start position in axis units. -/
  p0 : Int
  /-- End position in axis units. -/
  p1 : Int
  /-- Start velocity in axis units per second. -/
  v0 : Int
  /-- End velocity in axis units per second. -/
  v1 : Int
  /-- Forced-zero start. -/
  zeroStart : Bool
  /-- Forced-zero end. -/
  zeroEnd : Bool
deriving DecidableEq, Repr

/-- One axis channel. -/
structure AxisChannel where
  /-- Axis state (Table 3-1). -/
  state : AxisState
  /-- Controller field. -/
  ctrl : Controller
  /-- Q8 setpoint P8. -/
  p8 : Int
  /-- Q8 velocity v8 per servo update. -/
  v8 : Int
  /-- Following counter (R33). -/
  followCount : Nat
  /-- Loss count (R32). -/
  lossCount : Nat
  /-- The last valid position of the encoder (R32). -/
  lastValid : Int
  /-- Fault cause FOLLOW (R34). -/
  faultFollow : Bool
  /-- Fault cause ENCODER (R34). -/
  faultEncoder : Bool
  /-- Jog demand in counts per second (R42). -/
  demand : Int
  /-- Jog timer: the timeout it was set to, in ms, while it runs. -/
  jogTimer : Option Nat
  /-- Idle release timer: the time it was set to, in ms, while it runs (R39). -/
  idleTimer : Option Nat
  /-- The positioning segment of GOTO or the rejoin segment of REJOIN. -/
  segment : Option Segment
  /-- The end time T_j of the rejoin target entry (R179). -/
  rejoinTime : TakeTime
  /-- The kept copy of the last segment evaluated in FOLLOW (R50). -/
  segmentCopy : Option Segment
  /-- The drive setpoint output in counts (R35). -/
  output : Int
  /-- The clamp flag of the last update (R61). -/
  clampFlag : Bool
  /-- Lens-end flag (R73). -/
  lensEnd : Bool
deriving DecidableEq, Repr

/-- A punch record (R176). -/
structure PunchRecord where
  /-- The MODEL's own field: tells one punch from a later one of the same axis. -/
  ident : Nat
  /-- The punched axis. -/
  axis : Axis
  /-- The punching console. -/
  console : Station
  /-- The take that the punch writes into. -/
  take : Slot
  /-- Writing flag. -/
  writing : Bool
  /-- Index of the last keyframe written in this punch. -/
  lastWritten : Option Nat
  /-- Whether the edit count has been raised for this punch. -/
  counted : Bool
  /-- Whether the punch has ended (R178). -/
  ended : Bool
deriving DecidableEq, Repr

/-- A punch sample waiting for the store port (R178). -/
structure PunchSample where
  /-- The punch it belongs to. -/
  ident : Nat
  /-- The keyframe it is for. -/
  keyframe : Nat
  /-- The sampled position, in axis units. -/
  pos : Int
deriving DecidableEq, Repr

/-- The axis channels' state. -/
structure AxisBlock where
  /-- The three channels. -/
  ch : Table AxisChannel 3
  /-- The punch records. -/
  punches : List PunchRecord
  /-- The waiting samples, in the order in which they were taken. -/
  samples : List PunchSample
  /-- The MODEL's own field: the identity of the next punch. -/
  nextPunch : Nat
deriving DecidableEq, Repr

/-! ### Lens map unit (chapter 5) -/

/-- The maps of one axis (R69). -/
structure LensChannel where
  /-- Active map. -/
  active : LensMap
  /-- Shadow map: sixteen slots. -/
  shadow : Table (Option LensPoint) 16
  /-- The shadow's writer. -/
  writer : Option Station
  /-- Pending map. -/
  pending : Option LensMap
  /-- The kind for which the maps are held, kept across a station reset (R79). -/
  heldKind : Option AxisKind
deriving DecidableEq, Repr

/-! ### Take store (chapter 6) -/

/-- One axis field of a keyframe (R81). -/
structure AxisField where
  /-- Position in axis units. -/
  pos : Int
  /-- Velocity in axis units per second. -/
  vel : Int
deriving DecidableEq, Repr

/-- A keyframe: the three axis fields (R81). -/
abbrev Keyframe := Table AxisField 3

/-- The keyframe whose every field is 0. -/
def Keyframe.zero : Keyframe := Table.fill 3 { pos := 0, vel := 0 }

/-- The keyframe pool: address 128·block + place with the keyframe it holds, addresses rising, no
keyframe listed that an unlisted address reads as (R81). -/
abbrev Pool := List (Nat × Keyframe)

/-- The canonical form of the pool. -/
abbrev Pool.wf (m : Pool) : Prop :=
  (m.map Prod.fst).Pairwise (· < ·) ∧ ∀ e ∈ m, e.2 ≠ Keyframe.zero

/-- A mark (R80). -/
structure Mark where
  /-- Start keyframe. -/
  start : Nat
  /-- End keyframe. -/
  stop : Nat
  /-- Count; 0 means until BREAK. -/
  count : Nat
deriving DecidableEq, Repr

/-- A take directory entry (R80). -/
structure TakeEntry where
  /-- State. -/
  state : EntryState
  /-- Take stamp. -/
  stamp : BitVec 32
  /-- Participant mask. -/
  mask : BitVec 16
  /-- Keyframe interval I in ms. -/
  interval : Nat
  /-- Block list, in keyframe order. -/
  blocks : List Nat
  /-- Keyframe count. -/
  count : Nat
  /-- The eight mark slots. -/
  marks : Table (Option Mark) 8
  /-- Cue-point list. -/
  cues : List Nat
  /-- Edit signature. -/
  signature : BitVec 16
  /-- Edit count, modulo 65,536. -/
  editCount : BitVec 16
  /-- Tainted flag with its trip time. -/
  taint : Option TakeTime
  /-- End cause. -/
  endCause : Option EndCause
deriving DecidableEq, Repr

/-- The EMPTY entry (R80). -/
def TakeEntry.empty : TakeEntry :=
  { state := .empty, stamp := 0, mask := 0, interval := 0, blocks := [], count := 0,
    marks := Table.fill 8 none, cues := [], signature := 0, editCount := 0, taint := none,
    endCause := none }

/-- The bulk transfer in progress (section 6.5): at most one. -/
inductive BulkTransfer where
  | none
  /-- A load (R97): its slot, its loader and the indices written so far, rising. -/
  | load (slot : Slot) (loader : Station) (written : List Nat)
  /-- A read-out (R96): its slot, the requesting console, the next keyframe and the one after the last,
  the serial at which the waiting fetch was requested, and the frames the line controller holds back. -/
  | readOut (slot : Slot) (console : Station) (next stop since : Nat) (held : List KeyframeFields)
deriving DecidableEq, Repr

/-- A keyframe sampled and not yet written (R85): its index and its pose. -/
structure RecorderSample where
  /-- Keyframe index. -/
  index : Nat
  /-- Pose, in axis units. -/
  pose : Table Int 3
deriving DecidableEq, Repr

/-- The take store's state. -/
structure TakeStore where
  /-- The take directory. -/
  dir : Table TakeEntry 32
  /-- The keyframe pool. -/
  pool : Pool
  /-- The free-block list. -/
  free : List Nat
  /-- The bulk transfer in progress. -/
  bulk : BulkTransfer
  /-- The recorder's samples waiting for the store port. -/
  waiting : List RecorderSample
  /-- The trip time of a taint that waits for the store port (R89). -/
  taintTrip : Option TakeTime
deriving DecidableEq, Repr

/-! ### Feeder (chapter 8) -/

/-- An entry of the pass stack (R122). -/
structure Pass where
  /-- The mark's start keyframe. -/
  start : Nat
  /-- The mark's end keyframe. -/
  stop : Nat
  /-- Remaining count; 0 means until BREAK. -/
  remaining : Nat
  /-- Break-requested flag. -/
  breakRequested : Bool
deriving DecidableEq, Repr

/-- Section-end state of a queue entry (R126). -/
inductive SectionEnd where
  | none | waiting | released
deriving DecidableEq, Repr

/-- The positions and velocities of one axis in a queue entry. -/
structure Span where
  /-- P0. -/
  p0 : Int
  /-- P1. -/
  p1 : Int
  /-- V0. -/
  v0 : Int
  /-- V1. -/
  v1 : Int
deriving DecidableEq, Repr

/-- An entry of the segment queue (R119).  Its segment records share T0, D and the two flags; the spans
of the configured axes hold the rest. -/
structure QueueEntry where
  /-- T0 of the records. -/
  t0 : TakeTime
  /-- D of the records, the take's keyframe interval in ms. -/
  dur : Nat
  /-- Forced-zero start. -/
  zeroStart : Bool
  /-- Forced-zero end. -/
  zeroEnd : Bool
  /-- P0, P1, V0 and V1 of each configured axis. -/
  spans : Table Span 3
  /-- Source keyframe. -/
  source : Nat
  /-- End keyframe. -/
  stop : Nat
  /-- Play sequence number. -/
  seq : BitVec 16
  /-- Pass context: the stack, top first. -/
  stack : List Pass
  /-- Pass context: the loop-end flag. -/
  loopEnd : Bool
  /-- Section-end state. -/
  sectionEnd : SectionEnd
  /-- Final flag. -/
  final : Bool
deriving DecidableEq, Repr

/-- The build cursor (section 8.2). -/
structure Cursor where
  /-- Arrival keyframe. -/
  arrival : Nat
  /-- Source keyframe. -/
  source : Nat
  /-- T0 of the next segment. -/
  t0 : TakeTime
  /-- The next segment must start at rest. -/
  atRest : Bool
  /-- Source pose and velocity, once a previous entry has taken them. -/
  pose : Option Keyframe
deriving DecidableEq, Repr

/-- The ADVANCE slot (R128). -/
inductive AdvanceSlot where
  | empty | held | applied
deriving DecidableEq, Repr

/-- The feeder's state. -/
structure Feeder where
  /-- The segment queue, head first. -/
  queue : List QueueEntry
  /-- The lookahead pass stack, top first. -/
  stack : List Pass
  /-- The build cursor. -/
  cursor : Cursor
  /-- The source keyframe already read by the build in progress (R120). -/
  sourceRead : Option Keyframe
  /-- Next play sequence number. -/
  nextSeq : BitVec 16
  /-- The start sequence of the roll (R119). -/
  startSeq : BitVec 16
  /-- Loop-end flag. -/
  loopEnd : Bool
  /-- Section-wait flag. -/
  sectionWait : Bool
  /-- Final-built flag. -/
  finalBuilt : Bool
  /-- Suspension (R134). -/
  suspended : Bool
  /-- ADVANCE slot. -/
  slot : AdvanceSlot
  /-- Retired record. -/
  retired : Option QueueEntry
  /-- Restart entry (R135). -/
  restart : Option QueueEntry
  /-- The level of the cue input, as last seen: true when low (R130, R137). -/
  cueLow : Bool
deriving DecidableEq, Repr

/-! ### Take controller (chapter 7) -/

/-- Play modes of the play context (R101). -/
inductive PlayMode where
  | once | loop | step | record
deriving DecidableEq, Repr

/-- Why a roll was cancelled (R108, R109, R189). -/
inductive CancelCause where
  /-- Refused by a station, with the reason code of its ROLL-REFUSE. -/
  | refused (station : Station) (reason : BitVec 8)
  | stopped
  | participantAbsent (station : Station)
  | wrap
  | notAccepted (station : Station)
deriving DecidableEq, Repr

/-- The roll result (R24). -/
inductive RollResult where
  | none
  | started
  | cancelled (cause : CancelCause)
deriving DecidableEq, Repr

/-- The play context (R101). -/
structure PlayContext where
  /-- The cued or armed take. -/
  take : Slot
  /-- Play mode. -/
  mode : PlayMode
  /-- Start keyframe. -/
  startKeyframe : Nat
  /-- Participant mask. -/
  mask : BitVec 16
  /-- Take stamp. -/
  stamp : BitVec 32
  /-- Edit signature. -/
  signature : BitVec 16
  /-- Start take time. -/
  startTime : TakeTime
  /-- Roll number, set when a roll starts. -/
  roll : Option (BitVec 8)
  /-- Recovery mark. -/
  recovery : Bool
  /-- Restart sequence. -/
  restartSeq : Option (BitVec 16)
  /-- The pending restart sequence of a RECOVER (R172). -/
  pendingRestart : Option (BitVec 16)
  /-- Halt sequence number. -/
  haltSeq : Option (BitVec 16)
  /-- WRAP-pending. -/
  wrapPending : Bool
deriving DecidableEq, Repr

/-- The roll record (R105, R107, R118). -/
structure RollRecord where
  /-- Roll number. -/
  number : BitVec 8
  /-- Roll mode. -/
  mode : Option RollMode
  /-- The set of accepted participants. -/
  accepted : BitVec 16
  /-- The instant at which the open window expires, in microseconds. -/
  window : Option Nat
  /-- Roll result. -/
  result : RollResult
  /-- The start sequence of the ROLL that opened the window. -/
  startSeq : BitVec 16
deriving DecidableEq, Repr

/-- The mismatch grace (R110). -/
inductive Grace where
  | none
  /-- Running, with its length in ms. -/
  | running (length : Nat)
  | over
deriving DecidableEq, Repr

/-- A CUE that the take controller has taken and whose keyframe reads wait for the store port: a field of the
model's own (log entry 43). -/
structure WaitingCue where
  /-- The station that sent it. -/
  sender : Station
  /-- Its target byte. -/
  target : BitVec 8
  /-- Its command tag. -/
  tag : BitVec 8
  /-- Take number. -/
  number : Nat
  /-- Take stamp. -/
  stamp : BitVec 32
  /-- Play mode. -/
  mode : CueMode
  /-- Cue point, if it names one. -/
  point : Option Nat
  /-- Duration in ms. -/
  duration : Nat
  /-- The serial of the next frame to arrive when it was taken: its place in the order of the bulk-transfer
  client's work (R98). -/
  since : Nat
deriving DecidableEq, Repr

/-- The take controller's state. -/
structure TakeController where
  /-- Station mode. -/
  mode : Mode
  /-- Play context. -/
  ctx : Option PlayContext
  /-- Roll record. -/
  roll : RollRecord
  /-- The set of arrival reports (R44). -/
  arrivals : Table Bool 3
  /-- Mismatch grace. -/
  grace : Grace
  /-- The CUEs taken whose checks wait for the store port, oldest first (R98, R103; log entry 43). -/
  cues : List WaitingCue
deriving DecidableEq, Repr

/-! ### Pace unit (chapters 7 and 9) -/

/-- The pace unit's state. -/
structure PaceUnit where
  /-- Take clock T, as published. -/
  t : TakeTime
  /-- Move clock Tm, as published. -/
  tm : TakeTime
  /-- Path rate r. -/
  r : Nat
  /-- Move rate rm. -/
  rm : Nat
  /-- Master rate M. -/
  master : Nat
  /-- Strain ceiling K. -/
  strain : Nat
  /-- Last announced ceiling. -/
  announced : Nat
  /-- Whether a set clamp report has been gathered since the last pace step (R145). -/
  clampReport : Bool
  /-- The cue-level term (R130). -/
  cueTerm : Nat
  /-- Pace period timer: the period it was started with, in ms, while it runs. -/
  paceTimer : Option Nat
  /-- Alignment window timer: the window it was started with, in ms, while it runs. -/
  alignTimer : Option Nat
  /-- Sum of the offsets of the window (R114). -/
  offsetSum : Int
  /-- Count of the offsets of the window. -/
  offsetCount : Nat
  /-- The remaining slices of the pending shift; none pending when empty (R116). -/
  slices : List Int
  /-- Marker record. -/
  marker : Option MarkerCapture
  /-- The marker record's overrun flag. -/
  markerOverrun : Bool
  /-- The level of the marker input, as last seen: true when low (R118). -/
  markLow : Bool
deriving DecidableEq, Repr

/-! ### Guard unit (chapter 10) -/

/-- A guard input (R150, R151). -/
structure GuardInput where
  /-- Filtered state of a LEVEL input: true when ACTIVE. -/
  filtered : Bool
  /-- Run count of a LEVEL input. -/
  run : Nat
  /-- Level of an EDGE input: its last sample. -/
  level : Bool
  /-- Edge latch of an EDGE input. -/
  latch : Bool
  /-- The MODEL's own field: bit z for a zone z armed since the latch was last set, which the latched edge
  does not reach (R153, log entry 36). -/
  armedSince : BitVec 8
deriving DecidableEq, Repr

/-- A zone's changing fields (Table 10-1). -/
structure ZoneRecord where
  /-- Armed flag. -/
  armed : Bool
  /-- State. -/
  state : ZoneState
  /-- Edge events: bit i for EDGE input i. -/
  edges : BitVec 8
  /-- Trip record. -/
  trip : Option Trip
  /-- Overrun flag. -/
  overrun : Bool
deriving DecidableEq, Repr

/-- The guard unit's state. -/
structure GuardUnit where
  /-- The inputs. -/
  inputs : Table GuardInput 8
  /-- The zones. -/
  zones : Table ZoneRecord 8
  /-- Guard ceiling G. -/
  ceiling : Nat
deriving DecidableEq, Repr

/-! ### Stop unit (chapter 11) -/

/-- An own claim (R162). -/
structure Claim where
  /-- Its key. -/
  cause : Cause
  /-- Its class. -/
  cls : Cls
deriving DecidableEq, Repr

/-- A stop-table entry (R164). -/
structure StopEntry where
  /-- Class. -/
  cls : Cls
  /-- Last trip time. -/
  time : TakeTime
  /-- Presence flag of the trip time. -/
  timeFlag : Bool
deriving DecidableEq, Repr

/-- The empty stop-table entry (R165, R175). -/
def StopEntry.empty : StopEntry := { cls := .none, time := 0, timeFlag := false }

/-- The stop unit's state. -/
structure StopUnit where
  /-- Own claim set. -/
  own : List Claim
  /-- Stop table; the entry of the node's own number is never written. -/
  entries : Table StopEntry 16
  /-- Stop-line state: true when OPEN. -/
  lineOpen : Bool
  /-- The level of the stop-line input, as last seen: true when the loop is closed. -/
  loopClosed : Bool
  /-- Open latch. -/
  openLatch : Bool
  /-- Consecutive closed samples counted in OPEN. -/
  closedRun : Nat
  /-- Drive latch. -/
  driveLatch : Bool
  /-- Effective class, as last formed. -/
  effective : Cls
  /-- Take time of the last STOP frame handed over. -/
  lastTime : TakeTime
  /-- Presence flag of that take time. -/
  lastFlag : Bool
deriving DecidableEq, Repr

/-! ### Configuration loader (chapter 13) -/

/-- The configuration loader's state, and what it settled. -/
structure Loader where
  /-- The node's station number. -/
  station : Station
  /-- The configuration. -/
  cfg : NodeConfig
  /-- True while the reset pin is held low. -/
  pinLow : Bool
deriving DecidableEq, Repr

/-- The state of the node. -/
structure State where
  /-- Line controller. -/
  lc : LineController
  /-- Peer table. -/
  pt : PeerTable
  /-- Axis channels. -/
  ax : AxisBlock
  /-- Lens map unit. -/
  lmu : Table LensChannel 3
  /-- Take store. -/
  ts : TakeStore
  /-- Feeder. -/
  fd : Feeder
  /-- Take controller. -/
  tc : TakeController
  /-- Pace unit. -/
  pu : PaceUnit
  /-- Guard unit. -/
  gu : GuardUnit
  /-- Stop unit. -/
  su : StopUnit
  /-- Configuration loader. -/
  cl : Loader
  /-- The commands that are waiting, first in, first out (the model's queue). -/
  pending : List Instr
deriving DecidableEq, Repr

/-- Reasons for which the node could stop. -/
inductive Fault where
  /-- Raised by FRAME_ARRIVES alone, on a frame of a kind whose payload layout the spec does not give,
  when the operand's fields are not fields of the kind that its header names: such an operand is no
  frame.  Safe: no frame of the line is one. -/
  | contradictoryFrame
deriving DecidableEq, Repr

/-- Reasons for which the model has no meaning. -/
inductive Refusal where
  /-- Raised by `exec` for a command that has no meaning in the model.  Safe. -/
  | notModelled (mnemonic : String)
deriving DecidableEq, Repr

/-! ### Reset values -/

/-- The seven counters at 0 (R17). -/
def Counters.zero : Counters :=
  { crcErrors := 0, malformed := 0, txFailures := 0, txDrops := 0, rxDrops := 0, alignSkips := 0,
    advanceOverruns := 0 }

/-- The line controller after a reset (R17). -/
def LineController.reset : LineController :=
  { txq := [], rxq := [], counters := Counters.zero, failRun := 0, link := .joined, quiet := none,
    phase := .idle, nextSerial := 0 }

/-- A peer entry after a reset (R29). -/
def PeerEntry.reset : PeerEntry :=
  { liveness := .unknown, silence := none, role := .unconfigured, mode := .start, cls := .none, take := 0,
    stamp := 0, signature := 0, ready := false, result := { result := 0, cause := 0, refusal := 0, station := 0 },
    roll := 0, seq := 0, lastT := 0, rate := 0, ceiling := 0 }

/-- The peer table after a reset (R29). -/
def PeerTable.reset : PeerTable := { entries := Table.fill 16 PeerEntry.reset, stateTimer := none }

/-- An axis channel during START, and a channel that is not configured (R48, R30). -/
def AxisChannel.disabled : AxisChannel :=
  { state := .disabled, ctrl := .none, p8 := 0, v8 := 0, followCount := 0, lossCount := 0, lastValid := 0,
    faultFollow := false, faultEncoder := false, demand := 0, jogTimer := none, idleTimer := none,
    segment := none, rejoinTime := 0, segmentCopy := none, output := 0, clampFlag := false, lensEnd := false }

/-- The axis channels after a reset (R48, R176). -/
def AxisBlock.reset : AxisBlock :=
  { ch := Table.fill 3 AxisChannel.disabled, punches := [], samples := [], nextPunch := 0 }

/-- The maps of an axis after a power-on reset, before the image is read (R79). -/
def LensChannel.empty : LensChannel :=
  { active := [], shadow := Table.fill 16 none, writer := none, pending := none, heldKind := none }

/-- The free-block list with every block on it (R99). -/
def allBlocks : List Nat := List.range 64

/-- The take store after a power-on reset (R99). -/
def TakeStore.reset : TakeStore :=
  { dir := Table.fill 32 TakeEntry.empty, pool := [], free := allBlocks, bulk := .none, waiting := [],
    taintTrip := none }

/-- The cursor while no build can be made. -/
def Cursor.reset : Cursor := { arrival := 0, source := 0, t0 := 0, atRest := false, pose := none }

/-- The feeder after a reset (R137). -/
def Feeder.reset : Feeder :=
  { queue := [], stack := [], cursor := Cursor.reset, sourceRead := none, nextSeq := 0, startSeq := 0,
    loopEnd := false, sectionWait := false, finalBuilt := false, suspended := false, slot := .empty,
    retired := none, restart := none, cueLow := false }

/-- The roll record after a reset (R118). -/
def RollRecord.reset : RollRecord :=
  { number := 0, mode := none, accepted := 0, window := none, result := .none, startSeq := 0 }

/-- The take controller after a reset (R118). -/
def TakeController.reset : TakeController :=
  { mode := .start, ctx := none, roll := RollRecord.reset, arrivals := Table.fill 3 false, grace := .none,
    cues := [] }

/-- The pace unit after a reset (R118, R148). -/
def PaceUnit.reset : PaceUnit :=
  { t := 0, tm := 0, r := 0, rm := 0, master := 1024, strain := 1024, announced := 1024,
    clampReport := false, cueTerm := 1024, paceTimer := none, alignTimer := none, offsetSum := 0,
    offsetCount := 0, slices := [], marker := none, markerOverrun := false, markLow := false }

/-- A guard input after a reset (R160). -/
def GuardInput.reset : GuardInput := { filtered := false, run := 0, level := false, latch := false, armedSince := 0 }

/-- A zone after a reset, before its armed flag is read (R160). -/
def ZoneRecord.reset : ZoneRecord :=
  { armed := false, state := .clear, edges := 0, trip := none, overrun := false }

/-- The guard unit after a reset (R160). -/
def GuardUnit.reset : GuardUnit :=
  { inputs := Table.fill 8 GuardInput.reset, zones := Table.fill 8 ZoneRecord.reset, ceiling := 1024 }

/-- The stop unit after a reset (R175). -/
def StopUnit.reset : StopUnit :=
  { own := [], entries := Table.fill 16 StopEntry.empty, lineOpen := false, loopClosed := true,
    openLatch := false, closedRun := 0, driveLatch := false, effective := .none, lastTime := 0,
    lastFlag := false }

/-- The loader after a reset, before the image is read: DESIGN CHOICE of log entry 3. -/
def Loader.reset : Loader := { station := 0, cfg := NodeConfig.unconfigured, pinLow := false }

/-- The node right after a power-on reset: station mode START, nothing read from the image yet
(R182, and the reset rule of each chapter). -/
def State.reset : State :=
  { lc := LineController.reset, pt := PeerTable.reset, ax := AxisBlock.reset,
    lmu := Table.fill 3 LensChannel.empty, ts := TakeStore.reset, fd := Feeder.reset,
    tc := TakeController.reset, pu := PaceUnit.reset, gu := GuardUnit.reset, su := StopUnit.reset,
    cl := Loader.reset, pending := [] }

end Sys2Proof.Machine
end

