-- ==== Sys2Proof/Machine/Arith.lean ====
section
/-! DEFINITION. The arithmetic of the spec: rounding (spec/00_scope.md, "Numbers and rounding"), segment
evaluation, the limiter and the braking step (chapter 4), the lens conversions (chapter 5), the slices of
a shift (R116) and the edit signature (R90). -/

namespace Sys2Proof.Machine

/-! ### Numbers and rounding -/

/-- rnd(n/d): the quotient rounded to nearest, ties away from zero. -/
def rndDiv (n d : Int) : Int :=
  n.sign * d.sign * ((2 * n.natAbs + d.natAbs) / (2 * d.natAbs) : Nat)

/-- ceil(n/d) on naturals. -/
def ceilDiv (n d : Nat) : Nat := (n + d - 1) / d

/-- `v` clamped into [lo, hi]. -/
def clampInt (lo hi v : Int) : Int := max lo (min hi v)

/-- `v` clamped into [lo, hi]. -/
def clampNat (lo hi v : Nat) : Nat := max lo (min hi v)

/-- Stored velocities saturate at ±8,388,607 (Table 2, R49, R66). -/
def satVel (v : Int) : Int := clampInt (-8388607) 8388607 v

/-- isqrt by its binary digits, from bit `k - 1` down. -/
def isqrtBits (n : Nat) : Nat → Nat → Nat
  | 0, r => r
  | k + 1, r => if (r + 2 ^ k) * (r + 2 ^ k) ≤ n then isqrtBits n k (r + 2 ^ k) else isqrtBits n k r

/-- isqrt(n): floor of the square root. -/
def isqrt (n : Nat) : Nat := isqrtBits n (n.log2 / 2 + 1) 0

/-- The signed 32-bit difference of two take times (spec/00_scope.md, "Take-time comparisons"). -/
def tdiff (a b : TakeTime) : Int := (a - b).toInt

/-- A take time later by a signed number of tu, modulo 2^32. -/
def tadd (t : TakeTime) (d : Int) : TakeTime := t + BitVec.ofInt 32 d

/-- The take time k·I·1024 of keyframe k (R81). -/
def keyframeTime (k interval : Nat) : TakeTime := BitVec.ofNat 32 (k * interval * 1024)

/-! ### Evaluating a segment (section 4.2) -/

/-- The phase s (R51).  DESIGN CHOICE: 2^31 tu past the start the signed difference turns negative and the phase is 0
again, where R46 holds the phase of a GOTO at its end (log entry 60). -/
def phase (clock t0 : TakeTime) (dur : Nat) : Int :=
  let e := tdiff clock t0
  if e ≤ 0 then 0 else if 1024 * (dur : Int) ≤ e then 65536 else e * 64 / dur

/-- A tangent: rnd(D·V/1000), or 0 when its forced-zero flag is set (R53). -/
def tangent (dur : Nat) (v : Int) (zero : Bool) : Int :=
  if zero then 0 else rndDiv (dur * v) 1000

/-- The position at phase s: the basis of R52 and the blend of R54. -/
def blend (p0 p1 m0 m1 s : Int) : Int :=
  let s2 := s * s / 65536
  let s3 := s2 * s / 65536
  let h00 := 65536 - 3 * s2 + 2 * s3
  let h01 := 65536 - h00
  let h10 := s3 - 2 * s2 + s
  let h11 := s3 - s2
  p0 + rndDiv (h01 * (p1 - p0) + h10 * m0 + h11 * m1) 65536

/-- The position of a segment at a published clock, in axis units (R51 to R54). -/
def evalSegment (g : Segment) (clock : TakeTime) : Int :=
  blend g.p0 g.p1 (tangent g.dur g.v0 g.zeroStart) (tangent g.dur g.v1 g.zeroEnd) (phase clock g.t0 g.dur)

/-- A segment is complete once the clock is at or past its end, by the signed difference (R46, R50).  DESIGN CHOICE:
a GOTO still open 2^31 tu past its start is not complete while that difference is negative (log entry 60). -/
def segmentComplete (g : Segment) (clock : TakeTime) : Bool :=
  1024 * (g.dur : Int) ≤ tdiff clock g.t0

/-! ### The limiter (section 4.4) and the braking step (R63) -/

/-- What the limiter gives at an update. -/
structure LimiterResult where
  /-- New P8. -/
  p8 : Int
  /-- New v8. -/
  v8 : Int
  /-- The clamp flag. -/
  clamped : Bool
deriving DecidableEq, Repr

/-- Limit placement (R60): move P8 by v, placed on a travel limit that it would pass. -/
def placeOnLimit (c : AxisConfig) (p8 v : Int) : Int × Int :=
  let q := clampInt (256 * c.smin) (256 * c.smax) (p8 + v)
  if p8 + v = q then (q, v) else (q, q - p8)

/-- The braking bound toward a limit at Q8 distance d (R59). -/
def brakeBound (c : AxisConfig) (d : Int) : Int :=
  min c.vmax8 (isqrt (2 * c.amax8 * max 0 d).toNat)

/-- The limiter (R58 to R61) for a wanted velocity w. -/
def limiter (c : AxisConfig) (w p8 v8 : Int) : LimiterResult :=
  let u := clampInt (v8 - c.amax8) (v8 + c.amax8) w
  let up := brakeBound c (256 * c.smax - p8)
  let down := brakeBound c (p8 - 256 * c.smin)
  let pv := placeOnLimit c p8 (clampInt (-down) up u)
  { p8 := pv.1, v8 := pv.2, clamped := pv.2 ≠ w }

/-- The travel clamp (R56). -/
def travelClamp (c : AxisConfig) (p : Int) : Int := clampInt c.smin c.smax p

/-- The wanted velocity of a segment-following state (R58). -/
def wantedOfTarget (target p8 : Int) : Int := 256 * target - p8

/-- The wanted velocity of the jog step (R62). -/
def wantedOfDemand (demand : Int) (ceiling period : Nat) : Int :=
  rndDiv (demand * ceiling * period * 256) (1024 * 1000)

/-- The velocity of the halt braking step, before the limit placement (R63). -/
def brakingVelocity (c : AxisConfig) (v8 : Int) : Int := v8.sign * max 0 ((v8.natAbs : Int) - c.ahalt8)

/-- The halt braking step (R63). -/
def brakingStep (c : AxisConfig) (p8 v8 : Int) : Int × Int := placeOnLimit c p8 (brakingVelocity c v8)

/-- The drive setpoint of a Q8 position (R35). -/
def outputOf (p8 : Int) : Int := rndDiv p8 256

/-- The Q8 setpoint that tracks an encoder value (R34, R37, R47). -/
def trackOf (c : AxisConfig) (enc : Int) : Int := 256 * travelClamp c enc

/-- The velocity of an axis in counts per second (R64). -/
def countVelocity (v8 : Int) (period : Nat) : Int := satVel (rndDiv (v8 * 1000) (256 * period))

/-- The derived constants of R57. -/
def deriveAxis (c : AxisConfig) (period : Nat) : AxisConfig :=
  let p : Int := period
  let amax8 := max 1 (c.amax * (p * p) * 256 / 1000000)
  { c with vmax8 := c.vmax * p * 256 / 1000, amax8 := amax8,
           ahalt8 := max amax8 (c.ahalt * (p * p) * 256 / 1000000) }

/-! ### Lens maps (chapter 5) -/

/-- The forward conversion from point p onward, for a u at or above p's unit. -/
def forwardFrom : LensPoint → LensMap → Int → Int × Bool
  | p, [], u => (p.count, decide (u ≠ p.unit))
  | p, q :: rest, u =>
    if u ≤ q.unit then
      (p.count + rndDiv ((u - p.unit) * (q.count - p.count)) (q.unit - p.unit), false)
    else forwardFrom q rest u

/-- The forward conversion (R70): the count, and whether it clamped. -/
def forward (m : LensMap) (u : Int) : Int × Bool :=
  match m with
  | [] => (Config.unmappedCount u, false)
  | p :: rest => if u < p.unit then (p.count, true) else forwardFrom p rest u

/-- The inverse conversion from point p onward, for a count not beyond p: the unit, and the map
interval used, none when it clamped. -/
def inverseFrom (increasing : Bool) : LensPoint → LensMap → Int → Int × Option (LensPoint × LensPoint)
  | p, [], _ => (p.unit, none)
  | p, q :: rest, c =>
    if (if increasing then c ≤ q.count else q.count ≤ c) then
      (p.unit + rndDiv ((c - p.count) * (q.unit - p.unit)) (q.count - p.count), some (p, q))
    else inverseFrom increasing q rest c

/-- The inverse conversion (R71): the unit, and the map interval that R65 uses. -/
def inverseWith (m : LensMap) (c : Int) : Int × Option (LensPoint × LensPoint) :=
  match m with
  | [] => (Config.unmappedUnit c, none)
  | [p] => (p.unit, none)
  | p :: q :: rest =>
    let increasing := decide (p.count < q.count)
    if (if increasing then c < p.count else p.count < c) then (p.unit, none)
    else inverseFrom increasing p (q :: rest) c

/-- The inverse conversion (R71). -/
def inverse (m : LensMap) (c : Int) : Int := (inverseWith m c).1

/-- The velocity in lens units per second at a count (R65). -/
def lensVelocity (m : LensMap) (c v : Int) : Int :=
  match m with
  | [] => Config.unmappedVelocity c v
  | _ =>
    match (inverseWith m c).2 with
    | none => 0
    | some (p, q) => satVel (rndDiv (v * (q.unit - p.unit)) (q.count - p.count))

/-- Units strictly increase along the list (R69). -/
def unitsIncrease : LensMap → Bool
  | p :: q :: rest => p.unit < q.unit && unitsIncrease (q :: rest)
  | _ => true

/-- Counts strictly increase, or strictly decrease, along the list (R69). -/
def countsRun (increasing : Bool) : LensMap → Bool
  | p :: q :: rest =>
    (if increasing then decide (p.count < q.count) else decide (q.count < p.count)) &&
      countsRun increasing (q :: rest)
  | _ => true

/-- The validity of a map (R69). -/
def mapValid (m : LensMap) : Bool :=
  2 ≤ m.length && m.length ≤ 16 && unitsIncrease m && (countsRun true m || countsRun false m)

/-- Whether a count lies outside the count span of a map (R69, R73); no map of 0 points has a span. -/
def outsideSpan (m : LensMap) (c : Int) : Bool :=
  match m with
  | [] => false
  | p :: rest =>
    let last := (rest.getLast?.getD p).count
    decide (c < min p.count last) || decide (max p.count last < c)

/-- The least unit of a kind (R68). -/
def unitFloor : AxisKind → Int
  | .focus => 1
  | _ => 0

/-- A unit clamped into the range of its kind (R68). -/
def clampUnit (k : AxisKind) (u : Int) : Int := clampInt (unitFloor k) 65535 u

/-- A unit clamped into the unit range of a map (R43); a map of 0 points leaves it. -/
def clampToMap (m : LensMap) (u : Int) : Int :=
  match m with
  | [] => u
  | p :: rest => clampInt p.unit (rest.getLast?.getD p).unit u

/-! ### Slices (R116) and the edit signature (R90) -/

/-- The 64 slices of a shift: trunc(shift/64) each, the remainder spread over the last ones (R116). -/
def slicesOf (shift : Int) : List Int :=
  let base := shift.tdiv 64
  let rem := shift - 64 * base
  (List.range 64).map fun i => if 64 ≤ i + rem.natAbs then base + rem.sign else base

/-- The edit signature of a mark list and a cue-point list (R90). -/
def editSignature (marks : Table (Option Mark) 8) (cues : List Nat) : BitVec 16 :=
  let markSum := (marks.rows.zipIdx.map fun (m, i) =>
    match m with
    | none => 0
    | some m => (i + 1) * (m.start + 3 * m.stop + 5 * m.count)).sum
  let cueSum := (cues.zipIdx.map fun (c, j) => (j + 9) * c).sum
  BitVec.ofNat 16 (markSum + cueSum)

end Sys2Proof.Machine
end

