-- ==== Sys2Proof/Machine/Bits.lean ====
section
/-! DEFINITION. A frame as bits on the line: the order of its bits (R2), the stuff bits that a sender inserts
and a receiver removes, and the runs of six equal bits (R1).  A recessive bit is true and reads as 1. -/

namespace Sys2Proof

namespace Machine

/-! ### Words as bits (R2) -/

/-- The bits of a word in the order in which they are sent, the most significant first. -/
def wordBits (w : Word16) : List Bool := (List.range 16).map fun i => w.getLsbD (15 - i)

/-- The word that 16 bits make, the most significant first. -/
def bitsWord (bits : List Bool) : Word16 := BitVec.ofNat 16 (bits.foldl (fun n b => 2 * n + b.toNat) 0)

/-- The bits of a frame before stuffing: the dominant start bit, header, payload and CRC, without gaps. -/
def frameBits (header : BitVec 16) (words : List Word16) (crc : BitVec 16) : List Bool :=
  false :: (header :: words ++ [crc]).flatMap wordBits

/-- Word k after the start bit, of a frame's bits without stuff bits. -/
def wordAt (bits : List Bool) (k : Nat) : Word16 := bitsWord ((bits.drop (1 + 16 * k)).take 16)

/-- The length field of a header: how many payload words it announces (R2, R189). -/
def headerLen (h : BitVec 16) : BitVec 4 := h.extractLsb' 0 4

/-! ### Stuff bits (R1) -/

/-- The length of the run that a bit ends, after a run of `run` bits at level `last`. -/
def runAfter (last : Bool) (run : Nat) (b : Bool) : Nat := if b = last then run + 1 else 1

/-- A stuff bit of the opposite level follows every run of five equal bits, and is the first bit of a new
run. -/
def stuffFrom (last : Bool) (run : Nat) : List Bool → List Bool
  | [] => []
  | b :: rest =>
    if runAfter last run b = 5 then b :: (!b) :: stuffFrom (!b) 1 rest
    else b :: stuffFrom b (runAfter last run b) rest

/-- The bits that a sender drives, from the start bit through the last CRC bit. -/
def stuff (bits : List Bool) : List Bool := stuffFrom false 0 bits

/-- What a receiver reads of the bits on the line. -/
inductive LineRead where
  /-- The bits without stuff bits. -/
  | bits (b : List Bool)
  /-- A run of six equal bits, at this level. -/
  | violation (recessive : Bool)
deriving DecidableEq, Repr

/-- One more bit in front of what is read. -/
def LineRead.cons (b : Bool) : LineRead → LineRead
  | .bits bs => .bits (b :: bs)
  | .violation v => .violation v

/-- The bit after a run of five is a stuff bit when it is of the opposite level, and the sixth of a run
otherwise. -/
def unstuffFrom (last : Bool) (run : Nat) : List Bool → LineRead
  | [] => .bits []
  | b :: rest =>
    if run = 5 then (if b = last then .violation b else unstuffFrom b 1 rest)
    else (unstuffFrom b (runAfter last run b) rest).cons b

/-- What a receiver reads from the start bit on.  A line that ends right after a run of five is read with or
without the stuff bit that follows it (log entry 54). -/
def unstuff (line : List Bool) : LineRead := unstuffFrom false 0 line

/-! ### A frame on the line -/

end Machine

open Machine

/-- The frame's bits without stuff bits, none after a violation. -/
def LineFrame.bits (f : LineFrame) : List Bool :=
  match unstuff f.line with
  | .bits b => b
  | .violation _ => []

/-- The 16 bits after the start bit: the header (R2, R189). -/
def LineFrame.header (f : LineFrame) : BitVec 16 := wordAt f.bits 0

/-- The payload words that the header announces. -/
def LineFrame.words (f : LineFrame) : List Word16 :=
  (List.range (headerLen f.header).toNat).map fun k => wordAt f.bits (k + 1)

/-- The CRC received, behind the payload. -/
def LineFrame.crc (f : LineFrame) : BitVec 16 := wordAt f.bits ((headerLen f.header).toNat + 1)

/-- The bits received match the length that the length field announces (first check of R9). -/
def LineFrame.whole (f : LineFrame) : Bool :=
  f.bits.head? == some false && f.bits.length == 1 + 16 * ((headerLen f.header).toNat + 2)

end Sys2Proof
end

