-- ==== Sys2Proof/Machine/Operands.lean ====
section
/-! DEFINITION. Frames as operands: kinds, class and kind codes and lengths (R2, R188), field codes
(R187, R189), the check codes of a frame (R2) and of an encoder word (R191), and the layouts of the
central payloads (R188, R189) in both directions. -/

namespace Sys2Proof.Machine

/-! ### Kinds (R188) -/

/-- A kind's class, its kind code, and its least and greatest payload length in words. -/
structure KindRow where
  /-- Class, 0 to 6. -/
  cls : Nat
  /-- Kind code within the class. -/
  code : Nat
  /-- Least payload length. -/
  minLen : Nat
  /-- Greatest payload length. -/
  maxLen : Nat
deriving DecidableEq, Repr

/-- The table of R188. -/
def kindRow : Kind → KindRow
  | .stopClaim => ⟨0, 0, 4, 4⟩
  | .stopRelease => ⟨0, 1, 4, 4⟩
  | .stopClear => ⟨0, 2, 2, 2⟩
  | .rearm => ⟨0, 3, 1, 1⟩
  | .roll => ⟨1, 0, 6, 6⟩
  | .rollAccept => ⟨1, 1, 1, 1⟩
  | .rollRefuse => ⟨1, 2, 1, 1⟩
  | .armRecord => ⟨2, 0, 6, 6⟩
  | .cue => ⟨2, 1, 6, 6⟩
  | .wrap => ⟨2, 2, 1, 1⟩
  | .resume => ⟨2, 3, 1, 1⟩
  | .recover => ⟨2, 4, 2, 2⟩
  | .brk => ⟨2, 5, 1, 1⟩
  | .advance => ⟨2, 6, 1, 1⟩
  | .jog => ⟨2, 7, 2, 8⟩
  | .goto => ⟨2, 8, 3, 9⟩
  | .controlRelease => ⟨2, 9, 2, 2⟩
  | .punchIn => ⟨2, 10, 2, 2⟩
  | .punchOut => ⟨2, 11, 2, 2⟩
  | .masterRate => ⟨2, 12, 2, 2⟩
  | .mark => ⟨2, 13, 4, 4⟩
  | .unmark => ⟨2, 14, 2, 2⟩
  | .cuePoints => ⟨2, 15, 2, 15⟩
  | .trim => ⟨2, 16, 3, 3⟩
  | .delete => ⟨2, 17, 2, 2⟩
  | .lensPoint => ⟨2, 18, 5, 5⟩
  | .lensCommit => ⟨2, 19, 2, 2⟩
  | .zoneArm => ⟨2, 20, 2, 2⟩
  | .zoneDisarm => ⟨2, 21, 2, 2⟩
  | .zoneAck => ⟨2, 22, 2, 2⟩
  | .faultClear => ⟨2, 23, 2, 2⟩
  | .query => ⟨2, 24, 2, 2⟩
  | .takeRead => ⟨2, 25, 4, 4⟩
  | .takeLoadBegin => ⟨2, 26, 7, 7⟩
  | .takeLoadEnd => ⟨2, 27, 2, 2⟩
  | .reset => ⟨2, 28, 1, 1⟩
  | .pace => ⟨3, 0, 4, 4⟩
  | .state => ⟨4, 0, 14, 14⟩
  | .answer => ⟨5, 0, 3, 3⟩
  | .directoryEntry => ⟨5, 1, 12, 12⟩
  | .tripReport => ⟨5, 2, 7, 7⟩
  | .markerReport => ⟨5, 3, 4, 4⟩
  | .counters => ⟨5, 4, 8, 8⟩
  | .keyframeData => ⟨6, 0, 14, 14⟩

/-- Every kind. -/
def allKinds : List Kind :=
  [.stopClaim, .stopRelease, .stopClear, .rearm, .roll, .rollAccept, .rollRefuse, .armRecord, .cue, .wrap,
   .resume, .recover, .brk, .advance, .jog, .goto, .controlRelease, .punchIn, .punchOut, .masterRate] ++
  [.mark, .unmark, .cuePoints, .trim, .delete, .lensPoint, .lensCommit, .zoneArm, .zoneDisarm, .zoneAck,
   .faultClear, .query, .takeRead, .takeLoadBegin, .takeLoadEnd, .reset, .pace, .state, .answer,
   .directoryEntry, .tripReport, .markerReport, .counters, .keyframeData]

/-- The kind with a class and a kind code, if there is one. -/
def kindOf (cls code : Nat) : Option Kind :=
  allKinds.find? fun k => (kindRow k).cls == cls && (kindRow k).code == code

/-- The class of a frame's kind. -/
def Kind.cls (k : Kind) : Nat := (kindRow k).cls

/-- The class of a frame. -/
def frameClass (p : Payload) : Nat := (kindRow p.kind).cls

/-! ### Field codes (R187, R189) -/

/-- The code of a class. -/
def clsCode : Cls → BitVec 2
  | .none => 0 | .hold => 1 | .halt => 2 | .sever => 3

/-- The class with a code: all four codes have a meaning. -/
def clsOf (c : BitVec 2) : Cls :=
  if c = 0 then .none else if c = 1 then .hold else if c = 2 then .halt else .sever

/-- The code of a mode. -/
def modeCode : Mode → BitVec 4
  | .start => 0 | .unconfigured => 1 | .idle => 2 | .armed => 3 | .cueing => 4 | .ready => 5
  | .rolling => 6 | .recording => 7 | .playing => 8 | .held => 9 | .halted => 10 | .recovering => 11

/-- The mode with a code; codes 12 to 15 have no meaning. -/
def modeOf (c : BitVec 4) : Option Mode :=
  [Mode.start, .unconfigured, .idle, .armed, .cueing, .ready, .rolling, .recording, .playing, .held,
   .halted, .recovering].find? fun m => modeCode m == c

/-- The code of a role. -/
def roleCode : Role → BitVec 2
  | .axis => 0 | .console => 1 | .unconfigured => 2

/-- The role with a code; code 3 has no meaning. -/
def roleOf (c : BitVec 2) : Option Role :=
  if c = 0 then some .axis else if c = 1 then some .console else if c = 2 then some .unconfigured else none

/-- The code of an axis state. -/
def axisCode : AxisState → BitVec 4
  | .disabled => 0 | .rest => 1 | .jog => 2 | .goto => 3 | .follow => 4 | .override => 5 | .rejoin => 6
  | .braking => 7 | .severed => 8 | .fault => 9

/-- The code of a cause kind. -/
def causeCode : CauseKind → Nat
  | .stopLine => 0 | .zone => 1 | .follow => 2 | .encoder => 3 | .peerSilent => 4 | .peerMismatch => 5
  | .linkLost => 6 | .duplicate => 7

/-- The parameter of a cause (Table 11-1), as R189 puts it into a STOP frame.  DESIGN CHOICE: a cause without a
parameter sends 0 (log entry 68). -/
def causeParam : Cause → Nat
  | .zone z => z.val
  | .follow a => a.val
  | .encoder a => a.val
  | .peerSilent n => n.val
  | _ => 0

/-- The roll mode with a code; codes above 2 have no meaning (R187). -/
def rollModeOf (c : BitVec 8) : Option RollMode :=
  if c = 0 then some .play else if c = 1 then some .record else if c = 2 then some .resumeFrom else none

/-- A roll result and cancel cause have a meaning: result at most 2, cause at most 5 (R187, R189). -/
def rollResultMeaningful (result : BitVec 2) (cause : BitVec 3) : Bool := result ≠ 3 && cause.toNat ≤ 5

/-- A target byte names the station, or ALL (R187). -/
def targetsStation (target : BitVec 8) (n : Station) : Bool :=
  target = 0xFF || target.toNat = n.val

/-- The target byte ALL. -/
abbrev targetAll : BitVec 8 := 0xFF

/-! ### Check codes -/

/-- One bit into the frame CRC: generator 0x1021 (R2). -/
def crcBit (crc : BitVec 16) (b : Bool) : BitVec 16 :=
  if xor crc.msb b then (crc <<< 1) ^^^ 0x1021 else crc <<< 1

/-- One word into the frame CRC, most significant bit first (R2). -/
def crcWord (crc : BitVec 16) (w : Word16) : BitVec 16 :=
  (List.range 16).foldl (fun c i => crcBit c (w.getLsbD (15 - i))) crc

/-- The CRC of a frame: over header and payload, from 0xFFFF, no final inversion (R2). -/
def frameCrc (header : BitVec 16) (words : List Word16) : BitVec 16 :=
  (header :: words).foldl crcWord 0xFFFF

/-- The check code of an encoder word: polynomial 0x07 from 0x00 over its first 32 bits (R191). -/
def encoderCheck (bits : BitVec 32) : BitVec 8 :=
  (List.range 32).foldl
    (fun c i => if xor c.msb (bits.getLsbD (31 - i)) then (c <<< 1) ^^^ 0x07 else c <<< 1) 0

/-- The position of a valid encoder word, none when the word is not valid (R32, R191).  The first bit
sent is bit 39. -/
def encoderPosition (w : BitVec 40) : Option Int :=
  if encoderCheck (w.extractLsb' 8 32) = w.extractLsb' 0 8 && !w.getLsbD 11 then
    some (w.extractLsb' 12 28).toInt
  else none

/-- The most recent valid word of those that have arrived since the last update, oldest first (R32). -/
def latestPosition (ws : List (BitVec 40)) : Option Int := (ws.filterMap encoderPosition).getLast?

/-! ### Header (R189) -/

/-- The header of a frame. -/
def headerOf (cls : BitVec 3) (sender : BitVec 4) (code : BitVec 5) (len : BitVec 4) : BitVec 16 :=
  cls ++ sender ++ code ++ len

/-- Class field of a header. -/
def headerClass (h : BitVec 16) : BitVec 3 := h.extractLsb' 13 3

/-- Sender field of a header. -/
def headerSender (h : BitVec 16) : Station := (h.extractLsb' 9 4).toFin

/-- Kind code field of a header. -/
def headerCode (h : BitVec 16) : BitVec 5 := h.extractLsb' 4 5

/-! ### Payload layouts (R188, R189) -/

/-- High byte of a word: the byte sent first (R186). -/
def hiByte (w : Word16) : BitVec 8 := w.extractLsb' 8 8

/-- Low byte of a word. -/
def loByte (w : Word16) : BitVec 8 := w.extractLsb' 0 8

/-- High word of 32 bits: the word sent first (R186). -/
def hiWord (v : BitVec 32) : Word16 := v.extractLsb' 16 16

/-- Low word of 32 bits. -/
def loWord (v : BitVec 32) : Word16 := v.extractLsb' 0 16

/-- One bit from a flag. -/
def flagBit (b : Bool) : BitVec 1 := BitVec.ofBool b

/-- The words of a STOP-CLAIM or STOP-RELEASE. -/
def encodeStop (f : StopFields) : List Word16 :=
  [f.summary ++ f.effective ++ flagBit f.timeFlag ++ 0#3 ++ f.cause ++ f.param, f.causeMask,
   hiWord f.time, loWord f.time]

/-- The fields of a STOP-CLAIM or STOP-RELEASE. -/
def decodeStop : List Word16 → Option StopFields
  | [w0, w1, w2, w3] => some
    { summary := w0.extractLsb' 14 2, effective := w0.extractLsb' 12 2, timeFlag := w0.getLsbD 11,
      cause := w0.extractLsb' 4 4, param := w0.extractLsb' 0 4, causeMask := w1, time := w2 ++ w3 }
  | _ => none

/-- One axis byte of a STATE. -/
def encodeAxisByte (a : AxisSummary) : BitVec 8 :=
  a.state ++ flagBit a.lensEnd ++ flagBit a.mapPending ++ 0#2

/-- The fields of one axis byte of a STATE. -/
def decodeAxisByte (b : BitVec 8) : AxisSummary :=
  { state := b.extractLsb' 4 4, lensEnd := b.getLsbD 3, mapPending := b.getLsbD 2 }

/-- The words of a STATE. -/
def encodeState (f : StateFields) : List Word16 :=
  [f.role ++ f.mode ++ f.cls ++ f.summary ++ flagBit f.timeFlag ++ flagBit f.ready ++
     flagBit f.configAbsent ++ flagBit f.driveLatch ++ flagBit f.driveEnable ++ flagBit f.sectionWait,
   f.causeMask, hiWord f.stopTime, loWord f.stopTime, f.take ++ f.roll, hiWord f.stamp, loWord f.stamp,
   f.signature, f.seq,
   f.result ++ f.cancelCause ++ f.refusal ++ f.causeStation ++ f.depth ++ flagBit f.recovery,
   f.passCounts.get 0 ++ f.passCounts.get 1, f.passCounts.get 2 ++ f.passCounts.get 3,
   encodeAxisByte (f.axes.get 0) ++ encodeAxisByte (f.axes.get 1), encodeAxisByte (f.axes.get 2) ++ 0#8]

/-- The fields of a STATE. -/
def decodeState : List Word16 → Option StateFields
  | [w0, w1, w2, w3, w4, w5, w6, w7, w8, w9, w10, w11, w12, w13] => some
    { role := w0.extractLsb' 14 2, mode := w0.extractLsb' 10 4, cls := w0.extractLsb' 8 2,
      summary := w0.extractLsb' 6 2, timeFlag := w0.getLsbD 5, ready := w0.getLsbD 4,
      configAbsent := w0.getLsbD 3, driveLatch := w0.getLsbD 2, driveEnable := w0.getLsbD 1,
      sectionWait := w0.getLsbD 0, causeMask := w1, stopTime := w2 ++ w3, take := hiByte w4,
      roll := loByte w4, stamp := w5 ++ w6, signature := w7, seq := w8, result := w9.extractLsb' 14 2,
      cancelCause := w9.extractLsb' 11 3, refusal := w9.extractLsb' 8 3, causeStation := w9.extractLsb' 4 4,
      depth := w9.extractLsb' 1 3, recovery := w9.getLsbD 0,
      passCounts := ⟨[hiByte w10, loByte w10, hiByte w11, loByte w11], rfl⟩,
      axes := ⟨[decodeAxisByte (hiByte w12), decodeAxisByte (loByte w12), decodeAxisByte (hiByte w13)], rfl⟩ }
  | _ => none

/-- The words of a PACE. -/
def encodePace (f : PaceFields) : List Word16 := [hiWord f.time, loWord f.time, f.rate, f.ceiling]

/-- The fields of a PACE. -/
def decodePace : List Word16 → Option PaceFields
  | [w0, w1, w2, w3] => some { time := w0 ++ w1, rate := w2, ceiling := w3 }
  | _ => none

/-- The words of a ROLL. -/
def encodeRoll (f : RollFields) : List Word16 :=
  [f.number ++ f.take, hiWord f.stamp, loWord f.stamp, f.signature, f.mode ++ 0#8, f.startSeq]

/-- The fields of a ROLL. -/
def decodeRoll : List Word16 → Option RollFields
  | [w0, w1, w2, w3, w4, w5] => some
    { number := hiByte w0, take := loByte w0, stamp := w1 ++ w2, signature := w3, mode := hiByte w4,
      startSeq := w5 }
  | _ => none

/-- The words of a KEYFRAME-DATA. -/
def encodeKeyframe (f : KeyframeFields) : List Word16 :=
  [f.take ++ 0#8, f.index,
   hiWord (f.axes.get 0).pos, loWord (f.axes.get 0).pos, hiWord (f.axes.get 0).vel, loWord (f.axes.get 0).vel,
   hiWord (f.axes.get 1).pos, loWord (f.axes.get 1).pos, hiWord (f.axes.get 1).vel, loWord (f.axes.get 1).vel,
   hiWord (f.axes.get 2).pos, loWord (f.axes.get 2).pos, hiWord (f.axes.get 2).vel, loWord (f.axes.get 2).vel]

/-- The fields of a KEYFRAME-DATA. -/
def decodeKeyframe : List Word16 → Option KeyframeFields
  | [w0, w1, a0, a1, a2, a3, b0, b1, b2, b3, c0, c1, c2, c3] => some
    { take := hiByte w0, index := w1,
      axes := ⟨[⟨a0 ++ a1, a2 ++ a3⟩, ⟨b0 ++ b1, b2 ++ b3⟩, ⟨c0 ++ c1, c2 ++ c3⟩], rfl⟩ }
  | _ => none

/-- The axis set of a JOG or a GOTO (R188).  DESIGN CHOICE: bit i of its low three bits names axis i (log entry
65). -/
def axisSetWord (t : Table (Option (BitVec 32)) 3) : Word16 :=
  0#13 ++ flagBit (t.get 2).isSome ++ flagBit (t.get 1).isSome ++ flagBit (t.get 0).isSome

/-- The two words of each named axis, in channel order. -/
def axisValueWords (t : Table (Option (BitVec 32)) 3) : List Word16 :=
  t.rows.flatMap fun o => match o with
    | none => []
    | some v => [hiWord v, loWord v]

/-- Two words for each axis that the set names, in channel order: the values, none when the words are
too few or too many. -/
def readAxisValues : List Bool → List Word16 → Option (List (Option (BitVec 32)))
  | [], [] => some []
  | [], _ :: _ => none
  | false :: bs, ws => (readAxisValues bs ws).map (none :: ·)
  | true :: bs, w0 :: w1 :: ws => (readAxisValues bs ws).map (some (w0 ++ w1) :: ·)
  | true :: _, _ => none

/-- The table of values of a JOG or a GOTO, with bit i of the axis set for axis i (log entry 65). -/
def decodeAxisValues (set : Word16) (ws : List Word16) : Option (Table (Option (BitVec 32)) 3) :=
  match readAxisValues [set.getLsbD 0, set.getLsbD 1, set.getLsbD 2] ws with
  | some [a, b, c] => some ⟨[a, b, c], rfl⟩
  | _ => none

/-- Numbers of `width` bits each read as one number, the first the most significant (R186). -/
def joinDigits (width : Nat) (ds : List Nat) : Nat := ds.foldl (fun n d => n * 2 ^ width + d) 0

/-- The lowest `n` groups of `width` bits of a number, the most significant first. -/
def splitDigits (width n v : Nat) : List Nat :=
  (List.range n).map fun k => v / 2 ^ (width * (n - 1 - k)) % 2 ^ width

/-- How many words n indices of 13 bits fill (R188). -/
def indexWords (n : Nat) : Nat := ceilDiv (13 * n) 16

/-- The zero bits that pad n indices to a word (R188). -/
def indexPadding (n : Nat) : Nat := 16 * indexWords n - 13 * n

/-- The indices of a CUE-POINTS, packed at 13 bits each in list order and padded with zeros to a word
(R188). -/
def packIndices (ps : List Nat) : List Word16 :=
  (splitDigits 16 (indexWords ps.length) (joinDigits 13 ps * 2 ^ indexPadding ps.length)).map (BitVec.ofNat 16)

/-- n indices of a CUE-POINTS from the words that pack them (R188). -/
def unpackIndices (n : Nat) (ws : List Word16) : List Nat :=
  splitDigits 13 n (joinDigits 16 (ws.map BitVec.toNat) / 2 ^ indexPadding n)

/-- The fields of a CUE-POINTS fit its layout: a take byte, and at most 16 indices of 13 bits (R92, R188). -/
def cuePointsFit (take : Nat) (points : List Nat) : Bool :=
  take < 256 && points.length ≤ 16 && points.all fun p => p < 8192

/-- The words after word 0 of a CUE-POINTS: the take number above the count in word 1, then the indices
(R188; which of the two bytes comes first is log entry 4). -/
def encodeCuePoints (take : Nat) (points : List Nat) : List Word16 :=
  (BitVec.ofNat 8 take ++ BitVec.ofNat 8 points.length) :: packIndices points

/-- The words after word 0 of a command whose layout the spec gives (R188), none for the others. -/
def encodeBody : CommandBody → Option (List Word16)
  | .rearm | .wrap | .resume | .brk | .advance | .reset => some []
  | .jog t => some (axisSetWord t :: axisValueWords t)
  | .goto d t => some (axisSetWord t :: d :: axisValueWords t)
  | .cuePoints t ps => if cuePointsFit t ps then some (encodeCuePoints t ps) else none
  | .query s l => some [s ++ l]
  | _ => none

/-- A command's body from the words after word 0.  A kind without a layout in the spec takes the fields
that come with the frame, which must be of that kind (log entry 4). -/
def decodeBody (k : Kind) (ws : List Word16) (fields : Payload) : Option CommandBody :=
  match k with
  | .rearm => some .rearm
  | .wrap => some .wrap
  | .resume => some .resume
  | .brk => some .brk
  | .advance => some .advance
  | .reset => some .reset
  | .jog =>
    match ws with
    | set :: rest => (decodeAxisValues set rest).map .jog
    | [] => none
  | .goto =>
    match ws with
    | set :: d :: rest => (decodeAxisValues set rest).map (.goto d)
    | _ => none
  | .cuePoints =>
    match ws with
    | w :: rest => some (.cuePoints (hiByte w).toNat (unpackIndices (loByte w).toNat rest))
    | [] => none
  | .query => ws.head?.map fun w => .query (hiByte w) (loByte w)
  | _ =>
    match fields with
    | .command _ _ b => if b.kind = k then some b else none
    | _ => none

/-- The payload words of a frame whose layout the spec gives, none for the others. -/
def encodePayload : Payload → Option (List Word16)
  | .stopClaim f => some (encodeStop f)
  | .stopRelease f => some (encodeStop f)
  | .roll f => some (encodeRoll f)
  | .rollAccept n => some [n ++ 0#8]
  | .rollRefuse n r => some [n ++ r]
  | .command t g b => (encodeBody b).map ((t ++ g) :: ·)
  | .pace f => some (encodePace f)
  | .state f => some (encodeState f)
  | .keyframeData f => some (encodeKeyframe f)
  | _ => none

/-- A frame's payload from its words (R189); a kind without a layout takes the fields that come with the
frame, which must be of that kind. -/
def decodePayload (k : Kind) (ws : List Word16) (fields : Payload) : Option Payload :=
  match k with
  | .stopClaim => (decodeStop ws).map .stopClaim
  | .stopRelease => (decodeStop ws).map .stopRelease
  | .roll => (decodeRoll ws).map .roll
  | .rollAccept => ws.head?.map fun w => .rollAccept (hiByte w)
  | .rollRefuse => ws.head?.map fun w => .rollRefuse (hiByte w) (loByte w)
  | .pace => (decodePace ws).map .pace
  | .state => (decodeState ws).map .state
  | .keyframeData => (decodeKeyframe ws).map .keyframeData
  | .answer | .directoryEntry | .tripReport | .markerReport | .counters =>
    if fields.kind = k then some fields else none
  | k =>
    match ws with
    | [] => none
    | w :: rest => (decodeBody k rest fields).map (.command (hiByte w) (loByte w))

/-- The header of a frame of the node with a payload of `len` words. -/
def frameHeader (sender : Station) (k : Kind) (len : Nat) : BitVec 16 :=
  headerOf (BitVec.ofNat 3 (kindRow k).cls) (BitVec.ofNat 4 sender.val) (BitVec.ofNat 5 (kindRow k).code)
    (BitVec.ofNat 4 len)

/-! ### The checks of an arriving frame (R9) -/

/-- What the checks of R9 give; a frame that is abandoned by an abort flag is counted nowhere (R1). -/
inductive FrameCheck where
  | aborted
  | crcError
  | malformed
  | valid (kind : Kind)
deriving DecidableEq, Repr

/-- The length a JOG, GOTO or CUE-POINTS must have by the axis set or the count in its word 1; the other
kinds have none (last check of R9, R188). -/
def lengthAgrees (k : Kind) (ws : List Word16) : Bool :=
  let named : Nat := match ws with
    | _ :: set :: _ => (set.getLsbD 0).toNat + (set.getLsbD 1).toNat + (set.getLsbD 2).toNat
    | _ => 0
  match k with
  | .jog => ws.length == 2 + 2 * named
  | .goto => ws.length == 3 + 2 * named
  | .cuePoints =>
    match ws with
    | _ :: w :: _ => ws.length == 2 + indexWords (loByte w).toNat
    | _ => false
  | _ => true

/-- The bits that a station drives for a frame with these payload words (R1, R2). -/
def sentLine (header : BitVec 16) (words : List Word16) : List Bool :=
  stuff (frameBits header words (frameCrc header words))

/-- The checks of R9, in their order.  DEDUCED: a line that holds a dominant run of six bits is counted nowhere,
as R1 has it, though the first check names violations (log entry 54). -/
def checkFrame (f : LineFrame) : FrameCheck :=
  if unstuff f.line = .violation false then .aborted
  else if !f.whole then .crcError
  else if frameCrc f.header f.words ≠ f.crc then .crcError
  else if (headerClass f.header).toNat > 6 then .malformed
  else
    match kindOf (headerClass f.header).toNat (headerCode f.header).toNat with
    | none => .malformed
    | some k =>
      if f.words.length < (kindRow k).minLen || (kindRow k).maxLen < f.words.length then .malformed
      else if lengthAgrees k f.words then .valid k else .malformed

end Sys2Proof.Machine
end

