-- ==== Sys2Proof/Machine/Store.lean ====
section
/-! DEFINITION. The take store's own operations: the keyframe pool, blocks, recorder writes, end
velocities and cuts (sections 6.1 to 6.3), and the checks on marks (R91). -/

namespace Sys2Proof.Machine

/-! ### The keyframe pool (R81) -/

/-- The keyframe at an address of the pool.  An unlisted address reads as the keyframe of zeros: DESIGN
CHOICE of log entry 6. -/
def poolRead : Pool → Nat → Keyframe
  | [], _ => Keyframe.zero
  | (b, k) :: rest, a => if a = b then k else poolRead rest a

/-- The pool with one keyframe written, in canonical form. -/
def poolWrite : Pool → Nat → Keyframe → Pool
  | [], a, k => if k = Keyframe.zero then [] else [(a, k)]
  | (b, k') :: rest, a, k =>
    if a < b then (if k = Keyframe.zero then (b, k') :: rest else (a, k) :: (b, k') :: rest)
    else if a = b then (if k = Keyframe.zero then rest else (a, k) :: rest)
    else (b, k') :: poolWrite rest a k

/-- Where keyframe k of a take lies: in the block at position k/128 of its list, at place k mod 128. -/
def keyframeAddress (e : TakeEntry) (k : Nat) : Option Nat :=
  e.blocks[k / 128]?.map fun b => 128 * b + k % 128

/-- Keyframe k of a take. -/
def readKeyframe (ts : TakeStore) (slot : Slot) (k : Nat) : Keyframe :=
  match keyframeAddress (ts.dir.get slot) k with
  | none => Keyframe.zero
  | some a => poolRead ts.pool a

/-- The store with keyframe k of a take written. -/
def writeKeyframe (slot : Slot) (k : Nat) (kf : Keyframe) (ts : TakeStore) : TakeStore :=
  match keyframeAddress (ts.dir.get slot) k with
  | none => ts
  | some a => { ts with pool := poolWrite ts.pool a kf }

/-- The store with a directory entry replaced. -/
def setEntry (slot : Slot) (e : TakeEntry) (ts : TakeStore) : TakeStore :=
  { ts with dir := ts.dir.set slot e }

/-! ### Blocks (R82) -/

/-- A block number inserted into the free-block list at its place in the order. -/
def insertBlock (b : Nat) : List Nat → List Nat
  | [] => [b]
  | c :: rest => if b < c then b :: c :: rest else c :: insertBlock b rest

/-- The free-block list with blocks returned to it. -/
def returnBlocks (bs free : List Nat) : List Nat := bs.foldl (fun f b => insertBlock b f) free

/-- Allocation: the lowest free block is appended to the take's block list; none when no block is
free. -/
def allocateBlock (slot : Slot) (ts : TakeStore) : Option TakeStore :=
  match ts.free with
  | [] => none
  | b :: rest =>
    let e := ts.dir.get slot
    some { setEntry slot { e with blocks := e.blocks ++ [b] } ts with free := rest }

/-- Allocation of n blocks, lowest first; the caller has checked that they are free. -/
def allocateBlocks (slot : Slot) : Nat → TakeStore → TakeStore
  | 0, ts => ts
  | n + 1, ts => allocateBlocks slot n ((allocateBlock slot ts).getD ts)

/-- The entry becomes EMPTY and its blocks return to the free-block list (R84, R94, R97). -/
def emptyEntry (slot : Slot) (ts : TakeStore) : TakeStore :=
  { setEntry slot TakeEntry.empty ts with free := returnBlocks (ts.dir.get slot).blocks ts.free }

/-! ### Velocities (R86) -/

/-- The central difference over two intervals. -/
def centralVelocity (before after : Int) (interval : Nat) : Int :=
  satVel (rndDiv ((after - before) * 1000) (2 * interval))

/-- The end velocity over one interval. -/
def endVelocity (before last : Int) (interval : Nat) : Int :=
  satVel (rndDiv ((last - before) * 1000) interval)

/-- Keyframe k with the velocity of each configured axis replaced.  DESIGN CHOICE: the field of a channel that is
not configured now keeps its velocity (log entry 55). -/
def setVelocities (axisCount : Nat) (slot : Slot) (k : Nat) (vel : Axis → Int) (ts : TakeStore) : TakeStore :=
  let kf := readKeyframe ts slot k
  writeKeyframe slot k
    (Table.ofFn fun i => if i.val < axisCount then { kf.get i with vel := vel i } else kf.get i) ts

/-- Keyframe k receives its central difference, from keyframes k - 1 and k + 1 as the take holds them. -/
def giveCentral (axisCount : Nat) (slot : Slot) (k : Nat) (ts : TakeStore) : TakeStore :=
  setVelocities axisCount slot k
    (fun i => centralVelocity ((readKeyframe ts slot (k - 1)).get i).pos ((readKeyframe ts slot (k + 1)).get i).pos
      (ts.dir.get slot).interval) ts

/-- The last keyframe n receives its end velocity; with n = 0 its velocity stays (R86). -/
def giveEnd (axisCount : Nat) (slot : Slot) (n : Nat) (ts : TakeStore) : TakeStore :=
  if n = 0 then ts
  else setVelocities axisCount slot n
    (fun i => endVelocity ((readKeyframe ts slot (n - 1)).get i).pos ((readKeyframe ts slot n).get i).pos
      (ts.dir.get slot).interval) ts

/-! ### Recording (R85 to R89) -/

/-- The keyframe of a pose, with velocity 0. -/
def poseKeyframe (pose : Table Int 3) : Keyframe := pose.map fun p => { pos := p, vel := 0 }

/-- The recorder's write of one sample: the keyframe with velocity 0, and the central difference of the
keyframe before it (R86). -/
def recordSample (axisCount : Nat) (slot : Slot) (x : RecorderSample) (ts : TakeStore) : TakeStore :=
  let ts := writeKeyframe slot x.index (poseKeyframe x.pose) ts
  if 2 ≤ x.index then giveCentral axisCount slot (x.index - 1) ts else ts

/-- Every waiting sample is written, in order. -/
def flushSamples (axisCount : Nat) (slot : Slot) (ts : TakeStore) : TakeStore :=
  { ts.waiting.foldl (fun t x => recordSample axisCount slot x t) ts with waiting := [] }

/-- A pose sampled as the next keyframe of the take: it joins the recorder's waiting samples, with a new
block first when it is the first of a block; none when no block is free (R85, R87). -/
def sampleKeyframe (slot : Slot) (pose : Table Int 3) (ts : TakeStore) : Option TakeStore :=
  let k := (ts.dir.get slot).count
  let room := if k % 128 = 0 && k ≠ 0 then (if k = 8192 then none else allocateBlock slot ts) else some ts
  room.map fun ts =>
    { setEntry slot { ts.dir.get slot with count := k + 1 } ts with
      waiting := ts.waiting ++ [{ index := k, pose := pose }] }

/-- The entry becomes STORED with an end cause, its last keyframe with the end velocity (R86 to R88). -/
def closeRecording (axisCount : Nat) (slot : Slot) (cause : EndCause) (ts : TakeStore) : TakeStore :=
  let ts := flushSamples axisCount slot ts
  let ts := giveEnd axisCount slot ((ts.dir.get slot).count - 1) ts
  setEntry slot { ts.dir.get slot with state := .stored, endCause := some cause } ts

/-- Keyframes above `last` are discarded, and blocks no kept keyframe lies in return to the free-block
list, from the end of the block list (R89, R93). -/
def cutKeyframes (slot : Slot) (last : Nat) (ts : TakeStore) : TakeStore :=
  let e := ts.dir.get slot
  let keep := last / 128 + 1
  { setEntry slot { e with count := last + 1, blocks := e.blocks.take keep } ts with
    free := returnBlocks (e.blocks.drop keep).reverse ts.free }

/-- A keyframe is not later than T_trip - 1024·span, as a signed difference (R89). -/
def taintKeeps (interval span : Nat) (trip : TakeTime) (k : Nat) : Bool :=
  decide (tdiff (keyframeTime k interval) (trip - BitVec.ofNat 32 (1024 * span)) ≤ 0)

/-- The last keyframe that a taint keeps: keyframe 0 always, and then each one up to the first that is
later than T_trip - 1024·span (R89).  DESIGN CHOICE: where the signed differences do not rise with k, the cut is at
the first later keyframe (log entry 41). -/
def taintLast (interval span : Nat) (trip : TakeTime) (count : Nat) : Nat :=
  (((List.range count).drop 1).takeWhile (taintKeeps interval span trip)).length

/-- The taint of R89, whole. -/
def taintRecording (axisCount span : Nat) (slot : Slot) (trip : TakeTime) (ts : TakeStore) : TakeStore :=
  let ts := flushSamples axisCount slot ts
  let e := ts.dir.get slot
  let last := taintLast e.interval span trip e.count
  let ts := giveEnd axisCount slot last (cutKeyframes slot last ts)
  { setEntry slot
      { ts.dir.get slot with state := .stored, endCause := some .taint, taint := some trip } ts with
    taintTrip := none }

/-! ### Marks (R91) -/

/-- Two marks are disjoint: one ends at or before the other starts. -/
def marksDisjoint (a b : Mark) : Bool := a.stop ≤ b.start || b.stop ≤ a.start

/-- Mark b lies strictly inside mark a. -/
def markInside (a b : Mark) : Bool := a.start < b.start && b.stop < a.stop

/-- Two marks are disjoint or strictly nested. -/
def marksCompatible (a b : Mark) : Bool := marksDisjoint a b || markInside a b || markInside b a

/-- The used marks with their slots, in slot order. -/
def usedMarks (marks : Table (Option Mark) 8) : List (Mark × Nat) :=
  marks.rows.zipIdx.filterMap fun (m, i) => m.map fun m => (m, i)

/-- No chain of strictly nested marks is more than 4 deep: no mark lies inside more than 3 others. -/
def depthAllowed (ms : List Mark) : Bool :=
  ms.all fun m => (ms.filter fun o => markInside o m).length ≤ 3

/-- Strictly increasing, each from 1 to the last keyframe: the position of the first failing entry of a
cue-point list, none when all pass (R92).  DESIGN CHOICE: R92 does not say from where a position counts, and the
model's caller counts from 0 (log entry 63). -/
def firstBadCue (last : Nat) : Nat → Nat → List Nat → Option Nat
  | _, _, [] => none
  | position, before, c :: rest =>
    if before < c && 1 ≤ c && c ≤ last then firstBadCue last (position + 1) c rest else some position

end Sys2Proof.Machine
end

