-- ==== Sys2Proof/Machine/Flags.lean ====
section
/-! DEFINITION. What the blocks read from the state: the order of classes, the effective class, the
flags and views that chapters 2, 7, 8, 9 and 11 define, and the contents of a STATE frame (R24). -/

namespace Sys2Proof.Machine

/-! ### Classes (section 11.1) -/

/-- Rank of a class in rising order. -/
def clsRank : Cls → Nat
  | .none => 0 | .hold => 1 | .halt => 2 | .sever => 3

/-- A class is at or above another. -/
abbrev clsGe (a b : Cls) : Prop := clsRank b ≤ clsRank a

/-- The greater of two classes. -/
def clsMax (a b : Cls) : Cls := if clsRank a ≤ clsRank b then b else a

/-- The greatest class of a list, NONE for an empty one. -/
def clsGreatest (cs : List Cls) : Cls := cs.foldl clsMax .none

/-- The greatest class in the own claim set (R161). -/
def ownClass (su : StopUnit) : Cls := clsGreatest (su.own.map Claim.cls)

/-- The greatest class in the stop table (R161). -/
def tableClass (su : StopUnit) : Cls := clsGreatest (su.entries.rows.map StopEntry.cls)

/-- The effective class as R161 forms it. -/
def formEffective (su : StopUnit) : Cls :=
  clsMax (clsMax (ownClass su) (tableClass su)) (if su.lineOpen then .sever else .none)

/-- The mask of the cause kinds in the own claim set (R163, R187). -/
def causeMask (su : StopUnit) : BitVec 16 :=
  su.own.foldl (fun m c => m ||| (1#16 <<< causeCode c.cause.kind)) 0

/-! ### Modes -/

/-- PLAYING and HELD. -/
def inPlay (m : Mode) : Bool := m == .playing || m == .held

/-- The modes in which PACE frames are handed over (R139). -/
def pacesIn (m : Mode) : Bool := m == .rolling || m == .playing || m == .held

/-- The modes in which a ROLL is refused with BUSY (R105). -/
def rollBusy (m : Mode) : Bool :=
  m == .rolling || m == .playing || m == .held || m == .halted || m == .recording || m == .recovering

/-- The modes in which a silent participant raises PEER-SILENT (R20, R171). -/
def watchesPeers (m : Mode) : Bool :=
  m == .rolling || m == .playing || m == .held || m == .recording

/-- The modes in which a STOP frame's take time belongs to a take (R163). -/
def takeTimePresent (m : Mode) : Bool :=
  m == .rolling || m == .recording || m == .playing || m == .held || m == .halted

/-- The node is past START: its blocks run their events (R185). -/
def running (s : State) : Bool := s.tc.mode != .start

/-! ### The node itself -/

/-- Axis i is configured (R30). -/
def configured (s : State) (i : Axis) : Bool := i.val < s.cl.cfg.axisCount

/-- The configuration of axis i. -/
def axisCfg (s : State) (i : Axis) : AxisConfig := s.cl.cfg.axes.get i

/-- Channel i. -/
def axisCh (s : State) (i : Axis) : AxisChannel := s.ax.ch.get i

/-- The active map of axis i. -/
def activeMap (s : State) (i : Axis) : LensMap := (s.lmu.get i).active

/-- Axis i is a configured lens axis. -/
def isLens (s : State) (i : Axis) : Bool := configured s i && (axisCfg s i).kind.isLens

/-- Bit n of a station mask. -/
def inMask (mask : BitVec 16) (n : Station) : Bool := mask.getLsbD n.val

/-- Station n is a participant of the own play context (section 2.6). -/
def isParticipant (s : State) (n : Station) : Bool :=
  match s.tc.ctx with
  | none => false
  | some c => inMask c.mask n

/-- Every station number. -/
def allStations : List Station := List.finRange 16

/-- Every axis channel. -/
def allAxes : List Axis := List.finRange 3

/-- Every zone. -/
def allZones : List Zone := List.finRange 8

/-- Every guard input. -/
def allInputs : List Input := List.finRange 8

/-- The peer entry of station n. -/
def peer (s : State) (n : Station) : PeerEntry := s.pt.entries.get n

/-- A directory slot as a take number of a frame names it: 1 to 32 (R80). -/
def slotOf (number : Nat) : Option Slot :=
  if h : 1 ≤ number ∧ number ≤ 32 then some ⟨number - 1, by omega⟩ else none

/-- The take number of a slot. -/
def takeNumber (slot : Slot) : Nat := slot.val + 1

/-- The directory entry of a slot. -/
def entryOf (s : State) (slot : Slot) : TakeEntry := s.ts.dir.get slot

/-! ### Flags -/

/-- The ready flag (R24). -/
def readyFlag (s : State) : Bool :=
  (s.tc.mode == .ready || s.tc.mode == .armed) && s.su.effective == .none

/-- The drive-enable output (R36): the latch set, the stop line closed and its open latch clear, and the
class below SEVER.  DESIGN CHOICE: after an opening of the loop that is shorter than a sample the output stays
inactive until the guard sample that reads it (log entry 57). -/
def driveEnable (s : State) : Bool :=
  s.su.driveLatch && s.su.loopClosed && !s.su.openLatch && s.su.effective != .sever

/-- WRAP-pending (R101). -/
def wrapPending (s : State) : Bool :=
  match s.tc.ctx with
  | none => false
  | some c => c.wrapPending

/-- The local ceiling C_local (R138). -/
def localCeiling (s : State) : Nat :=
  if clsGe (ownClass s.su) .hold || wrapPending s then 0
  else min 1024 (min s.pu.master (min s.gu.ceiling (min s.pu.strain s.pu.cueTerm)))

/-- The move target (R147). -/
def moveTarget (s : State) : Nat :=
  if clsGe s.su.effective .hold then 0 else min 1024 (min s.pu.master (min s.gu.ceiling s.pu.strain))

/-- Presence (R28): every participant's entry is LIVE. -/
def presence (s : State) : Bool :=
  allStations.all fun n => !isParticipant s n || (peer s n).liveness == .live

/-- The ceiling view (R28): the least announced ceiling of the LIVE participants, 0 when there is none. -/
def ceilingView (s : State) : Nat :=
  let cs := (allStations.filter fun n => isParticipant s n && (peer s n).liveness == .live).map
    fun n => (peer s n).ceiling
  match cs with
  | [] => 0
  | c :: rest => rest.foldl min c

/-- The path-rate target in PLAYING (R140). -/
def rateTarget (s : State) : Nat :=
  if clsGe s.su.effective .hold then 0 else min (localCeiling s) (ceilingView s)

/-- One slew step of a rate toward its target (R141). -/
def slew (cfg : NodeConfig) (rate target : Nat) : Nat :=
  if rate ≤ target then min target (rate + cfg.rise * cfg.servoPeriod)
  else max target (rate - cfg.fall * cfg.servoPeriod)

/-! ### The feeder's views (chapter 8) -/

/-- The segment in play: the head of the queue, or the retired record (R119). -/
def segmentInPlay (fd : Feeder) : Option QueueEntry :=
  match fd.queue with
  | e :: _ => some e
  | [] => fd.retired

/-- The sequence number of the segment in play, or the roll's start sequence (R119). -/
def seqInPlay (fd : Feeder) : BitVec 16 :=
  match segmentInPlay fd with
  | some e => e.seq
  | none => fd.startSeq

/-- The end time of a queue entry: T0 + 1024·I. -/
def endTime (e : QueueEntry) : TakeTime := e.t0 + BitVec.ofNat 32 (1024 * e.dur)

/-- The hold point offered to the pace unit (R127): the end of a WAITING head, and, during a section
wait, the end of the entry that brought it. -/
def holdPoint (fd : Feeder) : Option TakeTime :=
  if fd.sectionWait then fd.retired.map endTime
  else
    match fd.queue with
    | e :: _ => if e.sectionEnd = .waiting then some (endTime e) else none
    | [] => none

/-- The segment record of axis i in a queue entry. -/
def segmentOf (e : QueueEntry) (i : Axis) : Segment :=
  { t0 := e.t0, dur := e.dur, p0 := (e.spans.get i).p0, p1 := (e.spans.get i).p1, v0 := (e.spans.get i).v0,
    v1 := (e.spans.get i).v1, zeroStart := e.zeroStart, zeroEnd := e.zeroEnd }

/-! ### The store port (R98): which client has a request pending -/

/-- The feeder has a keyframe to read: the conditions of R120.  A section wait holds building back too
(R127; log entry 13). -/
def feederWants (s : State) : Bool :=
  inPlay s.tc.mode && decide (s.fd.queue.length < 8) && !s.fd.suspended && !s.fd.finalBuilt &&
    !s.fd.sectionWait && s.fd.queue.all (fun e => e.sectionEnd != .waiting)

/-- The recorder has a sample to write, or a taint. -/
def recorderWants (s : State) : Bool := !s.ts.waiting.isEmpty || s.ts.taintTrip.isSome

/-- The punch writer has a sample to write. -/
def punchWants (s : State) : Bool := !s.ax.samples.isEmpty

/-- No client above the bulk-transfer client has a request pending. -/
def portFreeForBulk (s : State) : Bool := !feederWants s && !recorderWants s && !punchWants s

/-- The serial at which the read-out requested its waiting fetch, none when it has none. -/
def fetchSince (s : State) : Option Nat :=
  match s.ts.bulk with
  | .readOut _ _ next stop since _ => if next < stop then some since else none
  | _ => none

/-- A bulk transfer is in progress (R96, R97). -/
def bulkOpen (s : State) : Bool := s.ts.bulk != .none

/-- A take is in use (R83). -/
def takeInUse (s : State) (slot : Slot) : Bool :=
  let inContext :=
    match s.tc.ctx with
    | none => false
    | some c => c.take == slot &&
        (s.tc.mode == .cueing || s.tc.mode == .ready || s.tc.mode == .rolling || s.tc.mode == .playing ||
          s.tc.mode == .held || s.tc.mode == .halted || s.tc.mode == .recovering)
  let inEntry := (entryOf s slot).state == .armed || (entryOf s slot).state == .recording
  let inBulk :=
    match s.ts.bulk with
    | .none => false
    | .load t _ _ => t == slot
    | .readOut t _ _ _ _ _ => t == slot
  inContext || inEntry || inBulk

/-! ### STATE (R24) -/

/-- The sequence field of STATE, and of a trip capture (R24, R157). -/
def stateSeq (s : State) : BitVec 16 :=
  match s.tc.mode with
  | .playing | .held => seqInPlay s.fd
  | .halted | .recovering => (s.tc.ctx.bind PlayContext.haltSeq).getD 0
  | .ready =>
    match s.tc.ctx with
    | some c => if c.recovery then c.restartSeq.getD 0 else 0
    | none => 0
  | _ => 0

/-- The take of the play context, in the modes in which STATE names it (R24). -/
def stateTake (s : State) : Option Slot :=
  match s.tc.mode with
  | .armed | .recording | .cueing | .ready | .rolling | .playing | .held | .halted | .recovering =>
    s.tc.ctx.map PlayContext.take
  | _ => none

/-- The cancel cause code, refusal reason code and named station of a roll result (R189).  DESIGN CHOICE: a
reason or a station that the cause does not name is 0 (log entry 58). -/
def cancelCodes : CancelCause → BitVec 3 × BitVec 3 × BitVec 4
  | .refused n r => (1, r.setWidth 3, BitVec.ofNat 4 n.val)
  | .stopped => (2, 0, 0)
  | .participantAbsent n => (3, 0, BitVec.ofNat 4 n.val)
  | .wrap => (4, 0, 0)
  | .notAccepted n => (5, 0, BitVec.ofNat 4 n.val)

/-- Roll result, cancel cause, refusal reason and station as STATE carries them.  DESIGN CHOICE: what the result
does not name is 0 (log entry 58). -/
def resultCodes : RollResult → BitVec 2 × BitVec 3 × BitVec 3 × BitVec 4
  | .none => (0, 0, 0, 0)
  | .started => (1, 0, 0, 0)
  | .cancelled c => (2, (cancelCodes c).1, (cancelCodes c).2.1, (cancelCodes c).2.2)

/-- The pass context that STATE shows, bottom level first: that of the segment in play in PLAYING and
HELD, none otherwise (R24). -/
def statePasses (s : State) : List Pass :=
  if inPlay s.tc.mode then
    match segmentInPlay s.fd with
    | some e => e.stack.reverse
    | none => []
  else []

/-- The remaining count of a pass level (R24, R189).  DESIGN CHOICE: a level above the depth shows 0 (log entry
69). -/
def passCount (ps : List Pass) (i : Nat) : BitVec 8 :=
  BitVec.ofNat 8 ((ps[i]?.map Pass.remaining).getD 0)

/-- The axis summary of channel i (R24). -/
def axisSummary (s : State) (i : Axis) : AxisSummary :=
  { state := axisCode (axisCh s i).state, lensEnd := (axisCh s i).lensEnd,
    mapPending := (s.lmu.get i).pending.isSome }

/-- The contents of a STATE frame handed over now (R24). -/
def stateFields (s : State) : StateFields :=
  let codes := resultCodes s.tc.roll.result
  let entry := (stateTake s).map (entryOf s)
  { role := if s.cl.cfg.valid then roleCode .axis else roleCode .unconfigured,
    mode := modeCode s.tc.mode, cls := clsCode s.su.effective, summary := clsCode (ownClass s.su),
    timeFlag := s.su.lastFlag, ready := readyFlag s, configAbsent := !s.cl.cfg.valid,
    driveLatch := s.su.driveLatch, driveEnable := driveEnable s, sectionWait := s.fd.sectionWait,
    causeMask := causeMask s.su, stopTime := s.su.lastTime,
    take := BitVec.ofNat 8 (((stateTake s).map takeNumber).getD 0), roll := s.tc.roll.number,
    stamp := (entry.map TakeEntry.stamp).getD 0, signature := (entry.map TakeEntry.signature).getD 0,
    seq := stateSeq s, result := codes.1, cancelCause := codes.2.1, refusal := codes.2.2.1,
    causeStation := codes.2.2.2, depth := BitVec.ofNat 3 (statePasses s).length,
    recovery := (s.tc.ctx.map PlayContext.recovery).getD false,
    passCounts := Table.ofFn fun i => passCount (statePasses s) i.val,
    axes := Table.ofFn fun i => axisSummary s i }

end Sys2Proof.Machine
end

