-- ==== Sys2Proof/Machine/Ops.lean ====
section
/-! DEFINITION. The shared operations of the blocks: counters, the transmit and receive queues, the
STATE, PACE, STOP and ANSWER hand-overs, the station mode, the own claim set and the effective class,
axis state changes, punch ends, and the return to IDLE. -/

namespace Sys2Proof.Machine

/-! ### Block updates -/

/-- The state with the line controller replaced. -/
def State.setLc (s : State) (x : LineController) : State := { s with lc := x }

/-- The state with the peer table replaced. -/
def State.setPt (s : State) (x : PeerTable) : State := { s with pt := x }

/-- The state with the axis channels replaced. -/
def State.setAx (s : State) (x : AxisBlock) : State := { s with ax := x }

/-- The state with the lens map unit replaced. -/
def State.setLmu (s : State) (x : Table LensChannel 3) : State := { s with lmu := x }

/-- The state with the take store replaced. -/
def State.setTs (s : State) (x : TakeStore) : State := { s with ts := x }

/-- The state with the feeder replaced. -/
def State.setFd (s : State) (x : Feeder) : State := { s with fd := x }

/-- The state with the take controller replaced. -/
def State.setTc (s : State) (x : TakeController) : State := { s with tc := x }

/-- The state with the pace unit replaced. -/
def State.setPu (s : State) (x : PaceUnit) : State := { s with pu := x }

/-- The state with the guard unit replaced. -/
def State.setGu (s : State) (x : GuardUnit) : State := { s with gu := x }

/-- The state with the stop unit replaced. -/
def State.setSu (s : State) (x : StopUnit) : State := { s with su := x }

/-- The state with the configuration loader replaced. -/
def State.setCl (s : State) (x : Loader) : State := { s with cl := x }

/-! ### Counters (R16) -/

/-- A 16-bit counter raised by 1, holding at 65,535. -/
def bump (n : Nat) : Nat := min 65535 (n + 1)

/-- The state with the counters replaced. -/
def setCounters (s : State) (c : Counters) : State := s.setLc { s.lc with counters := c }

/-- One CRC error. -/
def countCrcError (s : State) : State :=
  setCounters s { s.lc.counters with crcErrors := bump s.lc.counters.crcErrors }

/-- One malformed frame. -/
def countMalformed (s : State) : State :=
  setCounters s { s.lc.counters with malformed := bump s.lc.counters.malformed }

/-- One transmit failure. -/
def countTxFailure (s : State) : State :=
  setCounters s { s.lc.counters with txFailures := bump s.lc.counters.txFailures }

/-- One transmit drop. -/
def countTxDrop (s : State) : State :=
  setCounters s { s.lc.counters with txDrops := bump s.lc.counters.txDrops }

/-- One receive drop. -/
def countRxDrop (s : State) : State :=
  setCounters s { s.lc.counters with rxDrops := bump s.lc.counters.rxDrops }

/-- One alignment skip. -/
def countAlignSkip (s : State) : State :=
  setCounters s { s.lc.counters with alignSkips := bump s.lc.counters.alignSkips }

/-- One ADVANCE overrun. -/
def countAdvanceOverrun (s : State) : State :=
  setCounters s { s.lc.counters with advanceOverruns := bump s.lc.counters.advanceOverruns }

/-! ### The transmit queue (R12, R13) -/

/-- A frame joins behind every frame of its own class and in front of every frame of a higher class
number. -/
def insertFrame (p : Payload) : List TxFrame → List TxFrame
  | [] => [{ payload := p, onLine := false }]
  | f :: rest =>
    if frameClass p < frameClass f.payload then { payload := p, onLine := false } :: f :: rest
    else f :: insertFrame p rest

/-- PACE and STATE frames coalesce. -/
def coalesces (k : Kind) : Bool := k == .pace || k == .state

/-- A queued frame that a new frame of kind k replaces in its place. -/
def replaceable (k : Kind) (f : TxFrame) : Bool := coalesces k && f.payload.kind == k && !f.onLine

/-- The new frame in the place of the first queued frame that it replaces. -/
def replaceFrame (p : Payload) : List TxFrame → List TxFrame
  | [] => []
  | f :: rest =>
    if replaceable p.kind f then { payload := p, onLine := false } :: rest else f :: replaceFrame p rest

/-- The transmit queue after a frame is handed over in a link state other than FAULT, and whether a
transmit drop is counted (R12, R13). -/
def queueFrame (p : Payload) (q : List TxFrame) : List TxFrame × Bool :=
  if q.any (replaceable p.kind) then (replaceFrame p q, false)
  else if q.length < 8 then (insertFrame p q, false)
  else if frameClass p ≠ 0 then (q, true)
  else
    match q.getLast? with
    | none => (q, true)
    | some f =>
      if f.onLine || frameClass f.payload = 0 then (q, true) else (insertFrame p q.dropLast, true)

/-- A frame is handed to the line controller.  In FAULT it is discarded uncounted (R8). -/
def handOver (p : Payload) (s : State) : State :=
  if s.lc.link = .fault then s
  else
    let q := queueFrame p s.lc.txq
    let s := s.setLc { s.lc with txq := q.1 }
    if q.2 then countTxDrop s else s

/-- How many KEYFRAME-DATA frames are queued (R13). -/
def queuedReadout (q : List TxFrame) : Nat := (q.filter fun f => f.payload.kind == .keyframeData).length

/-- A read-out frame may join the transmit queue now (R13). -/
def readoutFits (s : State) : Bool := s.lc.txq.length < 8 && queuedReadout s.lc.txq < 4

/-! ### Hand-overs -/

/-- The peer table hands over a STATE frame and restarts its timer (R23); during START it hands over
nothing. -/
def handState (s : State) : State :=
  if s.tc.mode = .start then s
  else handOver (.state (stateFields s)) (s.setPt { s.pt with stateTimer := some s.cl.cfg.statePeriod })

/-- The pace unit hands over a PACE frame, restarts its timer and keeps the announced ceiling (R139). -/
def handPace (s : State) : State :=
  let c := localCeiling s
  handOver
    (.pace { time := s.pu.t, rate := BitVec.ofNat 16 s.pu.r, ceiling := BitVec.ofNat 16 c })
    (s.setPu { s.pu with announced := c, paceTimer := some s.cl.cfg.pacePeriod })

/-- The local ceiling is formed again: a change by 32 or more is announced at once (R138, R139). -/
def announce (s : State) : State :=
  if pacesIn s.tc.mode ∧ 32 ≤ ((localCeiling s : Int) - s.pu.announced).natAbs then handPace s else s

/-- The stop unit hands over the STOP frame of a change of its own claim set (R163).  DESIGN CHOICE: the parameter
of a cause that has none is 0 (log entry 68). -/
def handStop (raised : Bool) (c : Cause) (s : State) : State :=
  let flag := takeTimePresent s.tc.mode
  let f : StopFields :=
    { summary := clsCode (ownClass s.su), effective := clsCode s.su.effective, timeFlag := flag,
      cause := BitVec.ofNat 4 (causeCode c.kind), param := BitVec.ofNat 4 (causeParam c),
      causeMask := causeMask s.su, time := s.pu.t }
  handOver (if raised then .stopClaim f else .stopRelease f)
    (s.setSu { s.su with lastTime := s.pu.t, lastFlag := flag })

/-! ### Take store changes on a change of mode -/

/-- A bulk transfer ends: an open load is abandoned with its blocks freed (R97), a read-out ends with
its held frames (R96). -/
def abandonBulk (s : State) : State :=
  match s.ts.bulk with
  | .none => s
  | .load slot _ _ => s.setTs { emptyEntry slot s.ts with bulk := .none }
  | .readOut _ _ _ _ _ _ => s.setTs { s.ts with bulk := .none }

/-! ### The station mode (R100) -/

/-- Every entry's announced ceiling becomes 0 (R26).  A PACE frame that waits in the receive queue by then writes
its ceiling again when it is taken (log entry 70). -/
def clearCeilings (s : State) : State :=
  s.setPt { s.pt with entries := s.pt.entries.map fun e => { e with ceiling := 0 } }

/-- What a change of mode stops or clears at the other blocks: a bulk transfer on leaving IDLE (R96,
R97), the pace period timer (R139), the alignment window (R115), the path rate (R142), a build in
progress (R120), and the announced ceilings on entering ROLLING (R26). -/
def modeEffects (old m : Mode) (s : State) : State :=
  let s := if old = .idle ∧ m ≠ .idle then abandonBulk s else s
  let s := s.setPu
    { s.pu with
      paceTimer := if pacesIn m then s.pu.paceTimer else none,
      alignTimer := if inPlay m then s.pu.alignTimer else none,
      r := if m = .playing ∨ m = .recording then s.pu.r else 0 }
  let s := if inPlay m then s else s.setFd { s.fd with sourceRead := none }
  if m = .rolling then clearCeilings s else s

/-- The station mode becomes m: its effects, then the STATE frames of R23 for the change of mode and for
a change of the ready flag. -/
def setMode (m : Mode) (s : State) : State :=
  let old := s.tc.mode
  let ready := readyFlag s
  let s := modeEffects old m (s.setTc { s.tc with mode := m })
  let s := if old = m then s else handState s
  if readyFlag s = ready then s else handState s

/-! ### Lens maps (R77) -/

/-- A pending map becomes the active map. -/
def changeover (i : Axis) (s : State) : State :=
  let m := s.lmu.get i
  match m.pending with
  | none => s
  | some new => s.setLmu (s.lmu.set i { m with active := new, pending := none })

/-- The states in which a committed map waits (R76). -/
def holdsPending (st : AxisState) : Bool := st == .follow || st == .override || st == .rejoin

/-! ### Axis channels -/

/-- The axis tracks its encoder instead of its own step (R37, Table 3-1; log entry 16). -/
def tracks (latch : Bool) (c : AxisChannel) : Bool :=
  !latch && (c.state == .rest || (c.state == .braking && c.v8 == 0))

/-- A channel as it is kept: outside FOLLOW it holds no segment copy (R67), and while it tracks its encoder its
following counter is 0 (R33). -/
def keptChannel (latch : Bool) (c : AxisChannel) : AxisChannel :=
  { c with
    segmentCopy := if c.state = .follow then c.segmentCopy else none,
    followCount := if tracks latch c then 0 else c.followCount }

/-- Channel i is replaced.  Entering a state other than FOLLOW, OVERRIDE or REJOIN makes the changeover
(R77). -/
def setChannel (i : Axis) (c : AxisChannel) (s : State) : State :=
  let c := keptChannel s.su.driveLatch c
  let s := s.setAx { s.ax with ch := s.ax.ch.set i c }
  if holdsPending c.state then s else changeover i s

/-- The idle release timer as it stands on entering REST (R39). -/
def restTimer (cfg : NodeConfig) (ctrl : Controller) : Option Nat :=
  match ctrl with
  | .console _ => some cfg.idleRelease
  | _ => none

/-- A channel entering REST, with its P8 and v8 as they stand. -/
def enterRest (cfg : NodeConfig) (c : AxisChannel) : AxisChannel :=
  { c with state := .rest, segment := none, idleTimer := restTimer cfg c.ctrl }

/-! ### Punch ends (R178) -/

/-- The punch in progress on axis i. -/
def activePunch (s : State) (i : Axis) : Option PunchRecord :=
  s.ax.punches.find? fun p => p.axis == i && !p.ended

/-- The velocity of one axis of keyframe k is replaced. -/
def setAxisVelocity (slot : Slot) (k : Nat) (i : Axis) (v : Int) (ts : TakeStore) : TakeStore :=
  let kf := readKeyframe ts slot k
  writeKeyframe slot k (kf.set i { kf.get i with vel := v }) ts

/-- The position of one axis in keyframe k of a take. -/
def axisPosition (ts : TakeStore) (slot : Slot) (k : Nat) (i : Axis) : Int :=
  ((readKeyframe ts slot k).get i).pos

/-- A punch's slot is STORED with a take that is not tainted (R89) and holds keyframe k.  DESIGN CHOICE: that is all
that is looked at, no stamp.  A slot that is not STORED takes no write, and an untainted take STORED anew in the
slot meanwhile takes the samples that still wait (log entry 14). -/
def punchTarget (ts : TakeStore) (slot : Slot) (k : Nat) : Bool :=
  (ts.dir.get slot).state == .stored && (ts.dir.get slot).taint.isNone && decide (k < (ts.dir.get slot).count)

/-- The velocity of the last keyframe that an ended punch wrote (R178). -/
def punchFixup (p : PunchRecord) (ts : TakeStore) : TakeStore :=
  match p.lastWritten with
  | none => ts
  | some b =>
    let e := ts.dir.get p.take
    if !punchTarget ts p.take b then ts
    else if b + 1 < e.count then
      setAxisVelocity p.take b p.axis
        (centralVelocity (axisPosition ts p.take (b - 1) p.axis) (axisPosition ts p.take (b + 1) p.axis)
          e.interval) ts
    else
      setAxisVelocity p.take b p.axis
        (endVelocity (axisPosition ts p.take (b - 1) p.axis) (axisPosition ts p.take b p.axis) e.interval) ts

/-- An ended punch with no sample waiting is fixed up and its record dropped.  DESIGN CHOICE: the fix-up of a
punch that ends with no sample waiting is written inside the ending event, without a grant of the store port
(log entry 42). -/
def settlePunches (s : State) : State :=
  let done := fun (p : PunchRecord) => p.ended && s.ax.samples.all (fun x => x.ident != p.ident)
  let s' := s.setTs ((s.ax.punches.filter done).foldl (fun t p => punchFixup p t) s.ts)
  s'.setAx { s'.ax with punches := s.ax.punches.filter fun p => !done p }

/-- The punch of axis i ends: its writing flag is cleared, and what it wrote is fixed up once its last
sample is written (R178). -/
def endPunch (i : Axis) (s : State) : State :=
  settlePunches
    (s.setAx { s.ax with punches := s.ax.punches.map fun p =>
      if p.axis = i then { p with ended := true, writing := false } else p })

/-! ### The class at the axes (R47) -/

/-- A punch in OVERRIDE or REJOIN ends by a halt or a fault: its controller becomes TAKE (R181). -/
def punchedState (st : AxisState) : Bool := st == .override || st == .rejoin

/-- A channel driven off its path: jog demand 0, timers stopped, segment abandoned; a punch's controller
becomes TAKE. -/
def offPath (st : AxisState) (c : AxisChannel) : AxisChannel :=
  { c with state := st, demand := 0, jogTimer := none, idleTimer := none, segment := none,
           ctrl := if punchedState c.state then .take else c.ctrl }

/-- What a change of the effective class does to a channel (table of R47).  In SEVERED the following counter is
0 (R33). -/
def classChannel (cfg : NodeConfig) (old new : Cls) (c : AxisChannel) : AxisChannel :=
  match c.state with
  | .disabled | .fault => c
  | .braking =>
    match new with
    | .sever => { c with state := .severed, v8 := 0, followCount := 0 }
    | .halt => c
    | _ => if clsGe old .halt ∧ c.v8 = 0 then enterRest cfg c else c
  | .severed =>
    match new with
    | .sever => c
    | .halt => { c with state := .braking, v8 := 0 }
    | _ => enterRest cfg { c with v8 := 0 }
  | _ =>
    match new with
    | .sever => { offPath .severed c with v8 := 0, followCount := 0 }
    | .halt => offPath .braking c
    | .hold => if old = .none then { c with demand := 0, jogTimer := none } else c
    | .none => c

/-- One channel takes a change of the effective class. -/
def takeClassAt (old : Cls) (s : State) (i : Axis) : State :=
  let c := axisCh s i
  let c' := classChannel s.cl.cfg old s.su.effective c
  let s := setChannel i c' s
  if punchedState c.state && !punchedState c'.state then endPunch i s else s

/-! ### A change of the effective class (R161) -/

/-- The pace unit drops both rates at once on a rise to HALT or SEVER; in RECORDING the path rate stays
(R142, R147). -/
def dropRates (old : Cls) (s : State) : State :=
  if clsGe s.su.effective .halt ∧ clsRank old < clsRank s.su.effective then
    s.setPu { s.pu with rm := 0, r := if s.tc.mode = .recording then s.pu.r else 0 }
  else s

/-- The drive latch clears when the class reaches SEVER (R167). -/
def dropLatch (s : State) : State :=
  if s.su.effective = .sever then s.setSu { s.su with driveLatch := false } else s

/-- A rise to HOLD or above during a recording asks the take store for the taint of R89; the first
trip time stands. -/
def requestTaint (old : Cls) (trip : TakeTime) (s : State) : State :=
  if s.tc.mode = .recording ∧ clsRank old < clsRank s.su.effective ∧ s.ts.taintTrip = none then
    s.setTs { s.ts with taintTrip := some trip }
  else s

/-- The STATE frames of R23 for a change of the class and, with it, of the ready flag. -/
def reportClass (old : Cls) (s : State) : State :=
  let s := handState s
  if (s.tc.mode = .ready ∨ s.tc.mode = .armed) ∧ (old = .none ∨ s.su.effective = .none) then handState s
  else s

/-- The pace unit, the stop unit, the axis channels, the peer table and the take store take a change of
the effective class. -/
def takeClass (old : Cls) (trip : TakeTime) (s : State) : State :=
  let s := announce (dropRates old s)
  let s := allAxes.foldl (takeClassAt old) (dropLatch s)
  requestTaint old trip (reportClass old s)

/-- The effective class is formed from the present claims, stop table and stop line. -/
def formClass (s : State) : State := s.setSu { s.su with effective := formEffective s.su }

/-! ### Releases (R162) -/

/-- The own claim set becomes `own`; the class is formed and the STOP frame handed over (R162, R163). -/
def changeOwn (raised : Bool) (c : Cause) (own : List Claim) (s : State) : State :=
  handStop raised c (formClass (s.setSu { s.su with own := own }))

/-- A key is released; an absent key changes nothing.  A release cannot raise the class, so the take
controller has nothing to do on it (R168). -/
def releaseKey (c : Cause) (s : State) : State :=
  if s.su.own.any (fun k => k.cause == c) then
    let old := s.su.effective
    let s := changeOwn false c (s.su.own.filter fun k => k.cause != c) s
    if s.su.effective = old then announce s else takeClass old s.pu.t s
  else s

/-! ### The return to IDLE (R100) -/

/-- Channel i at the return to IDLE (R40, R181).  DESIGN CHOICE: an axis that goes from OVERRIDE to REST has its jog
timer stopped and its demand cleared (log entry 64). -/
def idleAt (s : State) (i : Axis) : State :=
  let c := axisCh s i
  let cfg := s.cl.cfg
  match c.state with
  | .override =>
    endPunch i (setChannel i (enterRest cfg { c with ctrl := .none, demand := 0, jogTimer := none }) s)
  | .follow | .rejoin | .goto =>
    if c.ctrl = .take then
      let s := setChannel i (enterRest cfg { c with ctrl := .none }) s
      if c.state = .rejoin then endPunch i s else s
    else s
  | _ => if c.ctrl = .take then setChannel i { c with ctrl := .none } s else s

/-- The feeder at the return to IDLE: everything cleared but the level of its input (R133). -/
def clearFeeder (s : State) : State := s.setFd { Feeder.reset with cueLow := s.fd.cueLow }

/-- The ARMED entry of the play context's take becomes EMPTY (R84, R100). -/
def disarm (s : State) : State :=
  match s.tc.ctx with
  | none => s
  | some c => if (entryOf s c.take).state = .armed then s.setTs (emptyEntry c.take s.ts) else s

/-- The station goes to IDLE from another mode: the effects of R100. -/
def returnToIdle (s : State) : State :=
  let s := allAxes.foldl idleAt (disarm s)
  let s := clearFeeder s
  let s := s.setTc { s.tc with ctx := none, arrivals := Table.fill 3 false,
                               roll := { s.tc.roll with window := none } }
  let s := s.setPu { s.pu with offsetSum := 0, offsetCount := 0, slices := [] }
  releaseKey .peerMismatch (setMode .idle s)

/-! ### Rolls and halts -/

/-- The roll window is cancelled: back to READY in the form it had, or to ARMED (R108). -/
def cancelRoll (cause : CancelCause) (s : State) : State :=
  setMode (if s.tc.roll.mode = some .record then .armed else .ready)
    (s.setTc { s.tc with roll := { s.tc.roll with window := none, result := .cancelled cause } })

/-- The feeder is suspended on entering HALTED (R134). -/
def suspendFeeder (s : State) : State :=
  s.setFd { s.fd with suspended := true, sectionWait := false, slot := .empty, sourceRead := none }

/-- The play context is changed where there is one. -/
def modContext (f : PlayContext → PlayContext) (s : State) : State :=
  s.setTc { s.tc with ctx := s.tc.ctx.map f }

/-- The station enters HALTED (R169); with WRAP pending it goes on to IDLE (R111). -/
def enterHalted (s : State) : State :=
  let seq := seqInPlay s.fd
  let s := modContext (fun c => { c with haltSeq := some seq }) (suspendFeeder s)
  let s := setMode .halted (s.setPu { s.pu with slices := [] })
  if wrapPending s then returnToIdle s else s

/-- The take controller takes a rise of the effective class (Table 11-2).  RECORDING ends by the taint
that the take store was asked for. -/
def modeOnRise (s : State) : State :=
  match s.tc.mode with
  | .cueing | .recovering => returnToIdle s
  | .rolling => cancelRoll .stopped s
  | .playing | .held => if clsGe s.su.effective .halt then enterHalted s else s
  | _ => s

/-- A newly formed class is handed to the blocks when it differs from the old one (R161, R168). -/
def classFormed (old : Cls) (trip : TakeTime) (s : State) : State :=
  if s.su.effective = old then s
  else
    let s := takeClass old trip s
    if clsRank old < clsRank s.su.effective then modeOnRise s else s

/-! ### Raises (R162) and the stop table (R164) -/

/-- The own claim set with a key raised, none when that changes nothing (R162). -/
def raisedSet (c : Cause) (cls : Cls) (own : List Claim) : Option (List Claim) :=
  match own.find? fun k => k.cause == c with
  | none => some (own ++ [{ cause := c, cls := cls }])
  | some k =>
    if clsRank k.cls < clsRank cls then
      some (own.map fun k => if k.cause = c then { k with cls := cls } else k)
    else none

/-- A key is raised. -/
def raiseKey (c : Cause) (cls : Cls) (s : State) : State :=
  match raisedSet c cls s.su.own with
  | none => s
  | some own =>
    let old := s.su.effective
    let s := changeOwn true c own s
    if s.su.effective = old then announce s else classFormed old s.pu.t s

/-- A stop-table entry is written and the class formed again; `trip` is the trip time of R170. -/
def writeStopEntry (n : Station) (e : StopEntry) (trip : TakeTime) (s : State) : State :=
  let old := s.su.effective
  classFormed old trip (formClass (s.setSu { s.su with entries := s.su.entries.set n e }))

/-! ### FAULT (R34) -/

/-- A channel entering FAULT, or taking a further cause in it. -/
def faultChannel (follow : Bool) (c : AxisChannel) : AxisChannel :=
  { offPath .fault c with
    v8 := 0, followCount := 0, faultFollow := c.faultFollow || follow, faultEncoder := c.faultEncoder || !follow }

/-- Axis i enters FAULT with a cause, and the claim is raised (R32, R33, R34). -/
def enterFault (i : Axis) (follow : Bool) (s : State) : State :=
  let c := axisCh s i
  let s := setChannel i (faultChannel follow c) s
  let s := if punchedState c.state then endPunch i s else s
  if follow then raiseKey (.follow i) .halt s else raiseKey (.encoder i) .sever s

/-! ### Position and velocity of an axis in axis units (R64, R65) -/

/-- A count in axis units of axis i: as it is for an arm axis, by the inverse conversion for a lens
axis. -/
def toUnits (s : State) (i : Axis) (count : Int) : Int :=
  if (axisCfg s i).kind.isLens then inverse (activeMap s i) count else count

/-- The present position of axis i in axis units. -/
def presentUnits (s : State) (i : Axis) : Int := toUnits s i (outputOf (axisCh s i).p8)

/-- The present velocity of axis i in axis units per second. -/
def presentVelocity (s : State) (i : Axis) : Int :=
  let v := countVelocity (axisCh s i).v8 s.cl.cfg.servoPeriod
  if (axisCfg s i).kind.isLens then lensVelocity (activeMap s i) (outputOf (axisCh s i).p8) v else v

/-! ### The rejoin (R179) -/

/-- The target entry of a rejoin. -/
def rejoinTarget (s : State) : Option QueueEntry :=
  match s.fd.queue.find? fun e => decide ((1024 * s.cl.cfg.rejoinTime : Nat) ≤ tdiff (endTime e) s.pu.t) with
  | some e => some e
  | none =>
    match s.fd.queue.getLast? with
    | some e => some e
    | none => s.fd.retired

/-- The rejoin segment of axis i toward a target entry. -/
def rejoinSegment (s : State) (i : Axis) (e : QueueEntry) : Segment :=
  { t0 := s.pu.t, dur := clampNat 1 65535 (ceilDiv (tdiff (endTime e) s.pu.t).toNat 1024),
    p0 := presentUnits s i, p1 := (e.spans.get i).p1, v0 := presentVelocity s i, v1 := (e.spans.get i).v1,
    zeroStart := false, zeroEnd := e.zeroEnd }

/-- The axis is punched out: the punch ends, a pending map changes over, and the axis enters REJOIN, or
FOLLOW at once when there is no time left to the target (R22, R39, R179).  DESIGN CHOICE: the jog timer stops, at a
PUNCH-OUT, a release and the silence of the console alike, and at a PUNCH-OUT the demand becomes 0 as at the other
two (log entry 64). -/
def punchOutAxis (i : Axis) (s : State) : State :=
  let s := changeover i (endPunch i s)
  let c := { axisCh s i with ctrl := .take, demand := 0, jogTimer := none }
  match rejoinTarget s with
  | none => setChannel i { c with state := .follow, segment := none } s
  | some e =>
    if tdiff (endTime e) s.pu.t ≤ 0 then setChannel i { c with state := .follow, segment := none } s
    else
      setChannel i { c with state := .rejoin, segment := some (rejoinSegment s i e), rejoinTime := endTime e } s

/-- An axis is released by its console (table of R22).  DESIGN CHOICE: the jog timer of an axis in JOG runs on (log
entry 64). -/
def releaseAxis (i : Axis) (s : State) : State :=
  let c := axisCh s i
  match c.state with
  | .rest => setChannel i { c with ctrl := .none, idleTimer := none } s
  | .jog => setChannel i { c with ctrl := .none, demand := 0 } s
  | .goto => setChannel i { c with ctrl := .none } s
  | .override => punchOutAxis i s
  | _ => s

/-! ### Positioning (R43, R44) -/

/-- The clamped target of a positioning segment (R43). -/
def positionTarget (s : State) (i : Axis) (target : Int) : Int :=
  if (axisCfg s i).kind.isLens then clampToMap (activeMap s i) target
  else travelClamp (axisCfg s i) target

/-- The target count of a clamped target (R43, R46). -/
def targetCount (s : State) (i : Axis) (target : Int) : Int :=
  if (axisCfg s i).kind.isLens then travelClamp (axisCfg s i) (forward (activeMap s i) target).1 else target

/-- ΔP: the distance in counts to the target count (R43). -/
def positionDistance (s : State) (i : Axis) (target : Int) : Nat :=
  (targetCount s i (positionTarget s i target) - outputOf (axisCh s i).p8).natAbs

/-- The shared duration D of a positioning (R43). -/
def positionDuration (s : State) (duration : Nat) (targets : List (Axis × Int)) : Nat :=
  min 65535 ((targets.map fun x =>
    ceilDiv (1500 * positionDistance s x.1 x.2) (axisCfg s x.1).vmax.toNat).foldl max (max 500 duration))

/-- One axis enters GOTO on its positioning segment (R43). -/
def startPositioning (dur : Nat) (ctrl : Controller) (x : Axis × Int) (s : State) : State :=
  let seg : Segment :=
    { t0 := s.pu.tm, dur := dur, p0 := presentUnits s x.1, p1 := positionTarget s x.1 x.2, v0 := 0, v1 := 0,
      zeroStart := true, zeroEnd := true }
  setChannel x.1
    { axisCh s x.1 with state := .goto, ctrl := ctrl, demand := 0, jogTimer := none, idleTimer := none,
                        segment := some seg } s

/-- Whether R43 clamps a target: into the travel limits or the unit range, or, for a lens axis, its target
count into the travel limits. -/
def positionClampsAt (s : State) (i : Axis) (target : Int) : Bool :=
  let t := positionTarget s i target
  t != target || ((axisCfg s i).kind.isLens && targetCount s i t != (forward (activeMap s i) t).1)

/-- Whether R43 clamps any of the targets. -/
def positionClamps (s : State) (targets : List (Axis × Int)) : Bool :=
  targets.any fun x => positionClampsAt s x.1 x.2

/-- The positioning of a CUE or a RECOVER: every configured axis gets controller TAKE, and every one not
in FAULT its segment (R40, R44). -/
def positionToPose (pose : Axis → Int) (duration : Nat) (s : State) : State :=
  let axes := allAxes.filter (configured s)
  let targets := (axes.filter fun i => (axisCh s i).state != .fault).map fun i => (i, pose i)
  let dur := positionDuration s duration targets
  let s := s.setTc { s.tc with arrivals := Table.fill 3 false }
  let s := axes.foldl
    (fun s i => setChannel i
      { axisCh s i with ctrl := .take, demand := 0, jogTimer := none, idleTimer := none } s) s
  targets.foldl (fun s x => startPositioning dur .take x s) s

/-- Whether the positioning to a pose clamps a target (R104, R172). -/
def poseClamps (pose : Axis → Int) (s : State) : Bool :=
  positionClamps s
    (((allAxes.filter (configured s)).filter fun i => (axisCh s i).state != .fault).map fun i => (i, pose i))

/-- Every configured axis has reported its arrival. -/
def allArrived (s : State) : Bool := allAxes.all fun i => !configured s i || s.tc.arrivals.get i

/-- The station becomes READY once every configured axis has arrived: in its plain form from CUEING
(R104), with the recovery mark from RECOVERING (R173). -/
def checkArrivals (s : State) : State :=
  if !allArrived s then s
  else
    match s.tc.mode with
    | .cueing => setMode .ready s
    | .recovering =>
      let t0 := (s.fd.restart.map QueueEntry.t0).getD 0
      setMode .ready
        (modContext (fun c => { c with recovery := true, restartSeq := c.pendingRestart,
                                       pendingRestart := none, startTime := t0 }) s)
    | _ => s

/-! ### Mismatch (R110) -/

/-- A participant's entry shows another roll number, or a mode outside the roll. -/
def mismatched (s : State) (c : PlayContext) (n : Station) : Bool :=
  inMask c.mask n &&
    ((some (peer s n).roll != c.roll) ||
      !((peer s n).mode == .rolling || (peer s n).mode == .playing || (peer s n).mode == .held ||
        (peer s n).mode == .halted))

/-- Every participant is examined while the mode is PLAYING or HELD. -/
def examineMismatch (s : State) : State :=
  match s.tc.ctx with
  | none => s
  | some c =>
    if inPlay s.tc.mode && allStations.any (mismatched s c) then raiseKey .peerMismatch .hold s else s

/-! ### Liveness (R19) and the receive path (R8 to R11) -/

/-- The sender of a valid frame is LIVE, with its silence timer restarted; a return from SILENT releases
its PEER-SILENT claim. -/
def refreshLiveness (n : Station) (s : State) : State :=
  let e := peer s n
  let s := s.setPt { s.pt with
    entries := s.pt.entries.set n { e with liveness := .live, silence := some s.cl.cfg.silenceLimit } }
  if e.liveness = .silent then releaseKey (.peerSilent n) s else s

/-- Another station uses the node's number: the link is in FAULT (R8). -/
def duplicateFound (s : State) : State :=
  if s.lc.link = .fault then s
  else
    let s := s.setLc { s.lc with link := .fault, txq := [], quiet := none }
    releaseKey .linkLost (raiseKey .duplicate .sever s)

/-- A frame is admitted to the receive queue by its kind and target (R10). -/
def admits (s : State) (own : Bool) (p : Payload) : Bool :=
  match p with
  | .answer _ | .directoryEntry _ | .tripReport _ | .markerReport _ | .counters _ _ => false
  | .command target _ _ => targetsStation target s.cl.station
  | .keyframeData _ => !own
  | _ => true

/-- The receive queue with the oldest entry that is not of class 0 removed, none when there is none. -/
def displaceOldest : List RxEntry → Option (List RxEntry)
  | [] => none
  | e :: rest =>
    if frameClass e.payload ≠ 0 then some rest else (displaceOldest rest).map (e :: ·)

/-- An admitted frame meets the receive queue (R10). -/
def enqueueRx (sender : Station) (p : Payload) (mark : StartMark) (own : Bool) (s : State) : State :=
  let e : RxEntry := { sender := sender, payload := p, mark := mark, own := own, serial := s.lc.nextSerial }
  let put := fun q => s.setLc { s.lc with rxq := q ++ [e], nextSerial := s.lc.nextSerial + 1 }
  if s.lc.rxq.length < 4 then put s.lc.rxq
  else if frameClass p ≠ 0 then countRxDrop s
  else
    match displaceOldest s.lc.rxq with
    | none => countRxDrop s
    | some q => countRxDrop (put q)

/-- The path of a valid frame: liveness, the duplicate check, admission (R9, R5). -/
def receiveValid (sender : Station) (p : Payload) (mark : StartMark) (own : Bool) (s : State) : State :=
  let s := refreshLiveness sender s
  let s := if !own && sender = s.cl.station then duplicateFound s else s
  if admits s own p then enqueueRx sender p mark own s else s

/-! ### Offering the receive queue (R11) -/

/-- The blocks. -/
inductive Block where
  | lc | pt | ax | lmu | ts | fd | tc | pu | gu | su | cl
deriving DecidableEq, Repr

/-- The owners of a command (Table 1-1).  DESIGN CHOICE: of an entry written "X, with Y" the first block alone
owns the frame, so that Y neither orders it nor makes it wait (log entry 38). -/
def commandOwner : CommandBody → Block
  | .stopClear _ | .rearm | .recover _ => .su
  | .armRecord _ _ _ _ _ | .cue _ _ _ _ _ | .wrap => .tc
  | .resume | .masterRate _ => .pu
  | .brk | .advance => .fd
  | .jog _ | .goto _ _ | .controlRelease _ | .faultClear _ | .punchIn _ _ | .punchOut _ => .ax
  | .mark _ _ _ _ _ | .unmark _ _ | .cuePoints _ _ | .trim _ _ | .delete _ | .takeRead _ _ _
  | .takeLoadBegin _ _ _ _ _ | .takeLoadEnd _ => .ts
  | .lensPoint _ _ _ _ | .lensCommit _ _ => .lmu
  | .zoneArm _ | .zoneDisarm _ | .zoneAck _ => .gu
  | .query subject _ =>
    if subject = 1 then .pu else if subject = 2 then .gu else if subject = 3 then .ts else .lc
  | .reset => .cl

/-- The owners of an admitted frame (Table 1-1). -/
def ownersOf : Payload → List Block
  | .stopClaim _ | .stopRelease _ => [.su, .pt]
  | .roll _ | .rollAccept _ | .rollRefuse _ _ => [.tc]
  | .command _ _ b => [commandOwner b]
  | .pace _ => [.pt, .pu]
  | .state _ => [.pt, .su, .tc]
  | .keyframeData _ => [.ts]
  | _ => []

/-- The frame waits for the store port in the receive queue: the take store's own entries do (R11, R98). -/
def needsPort (p : Payload) : Bool := (ownersOf p).contains .ts

/-- The owners of an entry can take it: at once, or, at the store port, when it is the oldest work of the
bulk-transfer client, CUEs that wait and a fetch among it, and no other client has a request pending (R11,
R98). -/
def takeable (s : State) (before : List RxEntry) (e : RxEntry) : Bool :=
  !needsPort e.payload ||
    (portFreeForBulk s && before.all (fun b => !needsPort b.payload) &&
      (fetchSince s).all (fun n => decide (e.serial < n)) &&
      s.tc.cues.all (fun w => decide (e.serial < w.since)))

/-- No older entry has an owner in common with this one: entries of one owner go in arrival order (R11). -/
def inOwnersOrder (before : List RxEntry) (e : RxEntry) : Bool :=
  before.all fun b => (ownersOf b.payload).all fun o => !(ownersOf e.payload).contains o

/-- The owners of an entry can take it, and it is in the order of each of them.  DESIGN CHOICE: an entry that this
order holds back is not one whose owners can take it, so that a younger entry of its class may pass it (log
entry 59). -/
def mayTake (s : State) (before : List RxEntry) (e : RxEntry) : Bool :=
  takeable s before e && inOwnersOrder before e

/-- The entry may be offered now: class 0 first; within a class the oldest that can be taken; entries of
one owner in arrival order (R11). -/
def offerable (s : State) (before after : List RxEntry) (e : RxEntry) : Bool :=
  if frameClass e.payload = 0 then before.all fun b => frameClass b.payload ≠ 0
  else
    (before ++ after).all (fun b => frameClass b.payload ≠ 0) && mayTake s before e &&
      before.zipIdx.all fun (b, k) =>
        !(frameClass b.payload == frameClass e.payload && mayTake s (before.take k) b)

/-- The first entry that may be offered and that `want` picks, with the queue without it. -/
def findOffer (s : State) (want : Payload → Bool) :
    List RxEntry → List RxEntry → Option (RxEntry × List RxEntry)
  | _, [] => none
  | before, e :: after =>
    if want e.payload && offerable s before after e then some (e, before ++ after)
    else findOffer s want (before ++ [e]) after

/-- An entry that `want` picks is taken from the receive queue. -/
def takeOffer (want : Payload → Bool) (s : State) : Option (RxEntry × State) :=
  if running s then
    (findOffer s want [] s.lc.rxq).map fun x => (x.1, s.setLc { s.lc with rxq := x.2 })
  else none

/-! ### Commands and answers (R14, R15) -/

/-- A command taken from the receive queue. -/
structure Command where
  /-- Its sender. -/
  sender : Station
  /-- Target byte. -/
  target : BitVec 8
  /-- Command tag. -/
  tag : BitVec 8
  /-- The kind of its frame. -/
  kind : Kind
deriving DecidableEq, Repr

/-- The answer to a command: always when addressed, on refusal alone with target ALL (R15). -/
def answer (c : Command) (result : AnswerResult) (detail : Detail) (s : State) : State :=
  let refused := match result with
    | .refused _ => true
    | _ => false
  if c.target = targetAll && !refused then s
  else handOver (.answer { station := c.sender, kind := c.kind, tag := c.tag, result := result, detail := detail }) s

/-- The answer DONE without detail. -/
def answerDone (c : Command) (s : State) : State := answer c .done {} s

/-- The answer DONE, or DONE-CLAMPED. -/
def answerClamped (c : Command) (clamped : Bool) (s : State) : State :=
  answer c (if clamped then .doneClamped else .done) {} s

/-- A refusal. -/
def refuse (c : Command) (r : Reason) (s : State) : State := answer c (.refused r) {} s

/-- A refusal with a detail. -/
def refuseWith (c : Command) (r : Reason) (d : Detail) (s : State) : State := answer c (.refused r) d s

/-- A kind that is answered only by the addressed station (R14, check 2). -/
def addressedOnly (k : Kind) : Bool :=
  k == .query || k == .takeRead || k == .takeLoadBegin || k == .takeLoadEnd

/-- The checks 1 to 3 of R14, with the permitted-consoles check of R27: the reason of the first that
fails. -/
def commandRefusal (s : State) (c : Command) : Option Reason :=
  if s.tc.mode = .unconfigured ∧ c.kind ≠ .query ∧ c.kind ≠ .reset then some .unconfigured
  else if addressedOnly c.kind ∧ c.target = targetAll then some .notAddressed
  else if c.kind ≠ .advance ∧ !inMask s.cl.cfg.permitted c.sender then some .notPermitted
  else none

/-- The command of an entry, with what `pick` reads from its body. -/
def commandOf {α : Type} (pick : CommandBody → Option α) (e : RxEntry) : Option (Command × α) :=
  match e.payload with
  | .command target tag body =>
    (pick body).map fun x => ({ sender := e.sender, target := target, tag := tag, kind := body.kind }, x)
  | _ => none

/-- A frame holds a command that `pick` reads. -/
def picksCommand {α : Type} (pick : CommandBody → Option α) (p : Payload) : Bool :=
  match p with
  | .command _ _ body => (pick body).isSome
  | _ => false

/-- A command is taken from the receive queue: `early` may act on it before the checks of R14 (a command
that is ignored, or a field without a meaning), then the checks are made, then `act`.  With no such
command to take, nothing happens (log entry 2). -/
def withCommand {α : Type} (pick : CommandBody → Option α) (early : Command → α → State → Option State)
    (act : Command → α → State → State) (s : State) : State :=
  match takeOffer (picksCommand pick) s with
  | none => s
  | some (e, s) =>
    match commandOf pick e with
    | none => s
    | some (c, x) =>
      match early c x s with
      | some s' => s'
      | none =>
        match commandRefusal s c with
        | some r => refuse c r s
        | none => act c x s

/-- No early action. -/
def noEarly {α : Type} (_ : Command) (_ : α) (_ : State) : Option State := none

/-- An axis number of a command names a channel that is not DISABLED: 0 to 2 and configured (R30). -/
def namedAxis (s : State) (number : Nat) : Option Axis :=
  if h : number < 3 then
    (if (axisCh s ⟨number, h⟩).state = .disabled then none else some ⟨number, h⟩)
  else none

end Sys2Proof.Machine
end

