-- ==== Sys2Proof/Machine/Axes.lean ====
section
/-! DEFINITION. The axis commands and timers (sections 3.3, 3.6 and 3.7): JOG, GOTO, CONTROL-RELEASE,
FAULT-CLEAR, the jog timeout and the idle release. -/

namespace Sys2Proof.Machine

/-! ### JOG and GOTO (R41 to R43) -/

/-- The axes that a JOG or a GOTO names, with what it carries for each, in channel order. -/
def namedValues (t : Table (Option (BitVec 32)) 3) : List (Axis × Int) :=
  allAxes.filterMap fun i => (t.get i).map fun v => (i, v.toInt)

/-- The first named axis for which a check fails. -/
def firstAxis (named : List (Axis × Int)) (fails : Axis → Bool) : Option Axis :=
  (named.map Prod.fst).find? fails

/-- The controller is another than NONE or the sender. -/
def heldByOther (sender : Station) (c : Controller) : Bool := c != .none && c != .console sender

/-- The checks of R41, in their order: the refusal of the first that fails. -/
def moveRefusal (isGoto : Bool) (sender : Station) (named : List (Axis × Int)) (s : State) :
    Option (Reason × Detail) :=
  match firstAxis named fun i => (axisCh s i).state == .disabled with
  | some i => some (.notController, { name := .disabled, number := some i.val })
  | none =>
    match firstAxis named fun i => heldByOther sender (axisCh s i).ctrl with
    | some i => some (.notController, { number := some i.val })
    | none =>
      match firstAxis named fun i => isGoto && (axisCh s i).state == .override with
      | some i => some (.notController, { name := .override, number := some i.val })
      | none =>
        if clsGe s.su.effective .hold then some (.stopped, {})
        else if !s.su.driveLatch then some (.stopped, { name := .driveOff })
        else
          match firstAxis named fun i => isGoto && (axisCfg s i).kind.isLens && (activeMap s i).isEmpty with
          | some i => some (.mapAbsent, { number := some i.val })
          | none =>
            match firstAxis named fun i => (axisCh s i).state == .braking with
            | some i => some (.stopped, { name := .braking, number := some i.val })
            | none => none

/-- The controller after an accepted JOG or GOTO: a free axis is taken (R38). -/
def takenBy (sender : Station) (c : Controller) : Controller := if c = .none then .console sender else c

/-- A demand saturated to ±Vmax (R42). -/
def saturateDemand (c : AxisConfig) (v : Int) : Int := clampInt (-c.vmax) c.vmax v

/-- A channel after an accepted JOG (R42). -/
def jogChannel (cfg : NodeConfig) (sender : Station) (demand : Int) (c : AxisChannel) : AxisChannel :=
  let c := { c with demand := demand, jogTimer := some cfg.jogTimeout, ctrl := takenBy sender c.ctrl }
  match c.state with
  | .rest => { c with state := .jog, idleTimer := none }
  | .goto => { c with state := .jog, segment := none }
  | _ => c

/-- A JOG is applied to one axis. -/
def jogAxis (sender : Station) (s : State) (x : Axis × Int) : State :=
  setChannel x.1 (jogChannel s.cl.cfg sender (saturateDemand (axisCfg s x.1) x.2) (axisCh s x.1)) s

/-- A JOG is picked. -/
def pickJog : CommandBody → Option (Table (Option (BitVec 32)) 3)
  | .jog t => some t
  | _ => none

/-- JOG (R41, R42). -/
def jogEffect (s : State) : State :=
  withCommand pickJog noEarly
    (fun c t s =>
      let named := namedValues t
      match moveRefusal false c.sender named s with
      | some (r, d) => refuseWith c r d s
      | none =>
        answerClamped c (named.any fun x => saturateDemand (axisCfg s x.1) x.2 != x.2)
          (named.foldl (jogAxis c.sender) s)) s

/-- A GOTO is picked. -/
def pickGoto : CommandBody → Option (BitVec 16 × Table (Option (BitVec 32)) 3)
  | .goto d t => some (d, t)
  | _ => none

/-- GOTO (R41, R43). -/
def gotoEffect (s : State) : State :=
  withCommand pickGoto noEarly
    (fun c x s =>
      let named := namedValues x.2
      match moveRefusal true c.sender named s with
      | some (r, d) => refuseWith c r d s
      | none =>
        let dur := positionDuration s x.1.toNat named
        answerClamped c (positionClamps s named)
          (named.foldl (fun s y => startPositioning dur (takenBy c.sender (axisCh s y.1).ctrl) y s) s)) s

/-! ### CONTROL-RELEASE (R39) -/

/-- The axes of a set. -/
def axesOf (set : BitVec 3) : List Axis := allAxes.filter fun i => set.getLsbD i.val

/-- A CONTROL-RELEASE is picked. -/
def pickControlRelease : CommandBody → Option (BitVec 3)
  | .controlRelease a => some a
  | _ => none

/-- The named axes that the sender controls are released (R22, R39). -/
def releaseNamed (sender : Station) (axes : List Axis) (s : State) : State :=
  axes.foldl (fun s i => if (axisCh s i).ctrl = .console sender then releaseAxis i s else s) s

/-- CONTROL_RELEASE (R39).  DESIGN CHOICE: the refusal names the lowest axis that another controller holds (log
entry 39).  DESIGN CHOICE: R39 has no check of a DISABLED axis, so one that is named, with its controller NONE, is
unchanged and does not refuse the command, whatever R30 says of R41 and R34 (log entry 66). -/
def controlReleaseEffect (s : State) : State :=
  withCommand pickControlRelease noEarly
    (fun c set s =>
      let axes := axesOf set
      match axes.find? fun i => heldByOther c.sender (axisCh s i).ctrl with
      | some i => refuseWith c .notController { number := some i.val } s
      | none => answerDone c (releaseNamed c.sender axes s)) s

/-! ### FAULT-CLEAR (R34) -/

/-- A FAULT-CLEAR is picked. -/
def pickFaultClear : CommandBody → Option Nat
  | .faultClear a => some a
  | _ => none

/-- A channel after an accepted FAULT-CLEAR (R34). -/
def clearedChannel (cfg : NodeConfig) (a : AxisConfig) (c : AxisChannel) : AxisChannel :=
  enterRest cfg
    { c with p8 := trackOf a c.lastValid, v8 := 0, followCount := 0, faultFollow := false,
             faultEncoder := false }

/-- A fault is cleared: REST, the claims released, and then the class that still stands (R34, R47).  DESIGN
CHOICE: of both causes FOLLOW is released first (log entry 40). -/
def clearFault (i : Axis) (s : State) : State :=
  let s := setChannel i (clearedChannel s.cl.cfg (axisCfg s i) (axisCh s i)) s
  let s := releaseKey (.encoder i) (releaseKey (.follow i) s)
  if clsGe s.su.effective .halt then takeClassAt .none s i else s

/-- FAULT_CLEAR (R34). -/
def faultClearEffect (s : State) : State :=
  withCommand pickFaultClear noEarly
    (fun c number s =>
      match namedAxis s number with
      | none => refuseWith c .notController { name := .disabled } s
      | some i =>
        if (axisCh s i).state ≠ .fault then answerDone c s
        else if (axisCh s i).lossCount ≠ 0 then refuseWith c .stopped { name := .encoder } s
        else answerDone c (clearFault i s)) s

/-! ### Timers (R39, R42) -/

/-- JOG_TIMEOUT: the jog timer expires and the demand becomes 0 (R42). -/
def jogTimeoutEffect (i : Axis) (s : State) : State :=
  if (axisCh s i).jogTimer ≠ none then
    s.setAx { s.ax with ch := s.ax.ch.set i { axisCh s i with demand := 0, jogTimer := none } }
  else s

/-- IDLE_RELEASE_EXPIRY: the idle release timer expires and the controller becomes NONE (R39). -/
def idleReleaseExpiryEffect (i : Axis) (s : State) : State :=
  if (axisCh s i).idleTimer ≠ none then
    s.setAx { s.ax with ch := s.ax.ch.set i { axisCh s i with ctrl := .none, idleTimer := none } }
  else s

/-! ### The meanings

One per row of the command table; no command of this block stops, but for a contradictory FRAME_ARRIVES. -/

/-- JOG: the row's whole effect is `jogEffect`. -/
def execJog (s : State) : Host.Outcome State Fault Refusal :=
  .next (jogEffect s)

/-- GOTO: the row's whole effect is `gotoEffect`. -/
def execGoto (s : State) : Host.Outcome State Fault Refusal :=
  .next (gotoEffect s)

/-- CONTROL_RELEASE: the row's whole effect is `controlReleaseEffect`. -/
def execControlRelease (s : State) : Host.Outcome State Fault Refusal :=
  .next (controlReleaseEffect s)

/-- FAULT_CLEAR: the row's whole effect is `faultClearEffect`. -/
def execFaultClear (s : State) : Host.Outcome State Fault Refusal :=
  .next (faultClearEffect s)

/-- JOG_TIMEOUT: the row's whole effect is `jogTimeoutEffect`. -/
def execJogTimeout (i : Axis) (s : State) : Host.Outcome State Fault Refusal :=
  .next (jogTimeoutEffect i s)

/-- IDLE_RELEASE_EXPIRY: the row's whole effect is `idleReleaseExpiryEffect`. -/
def execIdleReleaseExpiry (i : Axis) (s : State) : Host.Outcome State Fault Refusal :=
  .next (idleReleaseExpiryEffect i s)

end Sys2Proof.Machine
end

