-- ==== Sys2Proof/Machine/Feed.lean ====
section
/-! DEFINITION. The feeder (chapter 8): building, the decisions at a segment's end, retirement, restart,
ADVANCE, BREAK and the cue input. -/

namespace Sys2Proof.Machine

/-! ### Building an entry (R121 to R126) -/

/-- The spans of a segment from keyframe pose q to keyframe pose b: zeros for a channel that is not
configured (R121). -/
def buildSpans (axisCount : Nat) (q b : Keyframe) : Table Span 3 :=
  Table.ofFn fun i =>
    if i.val < axisCount then
      { p0 := (q.get i).pos, p1 := (b.get i).pos, v0 := (q.get i).vel, v1 := (b.get i).vel }
    else { p0 := 0, p1 := 0, v0 := 0, v1 := 0 }

/-- The pose and velocity that the next segment takes from an entry's end (R120). -/
def endPose (spans : Table Span 3) : Keyframe := spans.map fun x => { pos := x.p1, vel := x.v1 }

/-- The mark that starts at a keyframe (R122). -/
def markAt (e : TakeEntry) (a : Nat) : Option Mark :=
  ((usedMarks e.marks).map Prod.fst).find? fun m => m.start == a

/-- A stack entry is for a mark. -/
def passIs (m : Mark) (p : Pass) : Bool := p.start == m.start && p.stop == m.stop

/-- The pass stack after the arrival at keyframe a (R122). -/
def pushMark (e : TakeEntry) (a : Nat) (stack : List Pass) : List Pass :=
  match markAt e a with
  | none => stack
  | some m =>
    if (stack.head?.map (passIs m)).getD false then stack
    else { start := m.start, stop := m.stop, remaining := m.count, breakRequested := false } :: stack

/-- What is decided at a segment's end: the stack and the loop-end flag after it, and the next arrival
keyframe, none when the entry is final. -/
structure EndDecision where
  /-- The lookahead stack after the decision. -/
  stack : List Pass
  /-- The loop-end flag after the decision. -/
  loopEnd : Bool
  /-- The next arrival keyframe; none when the entry is final. -/
  arrival : Option Nat
deriving DecidableEq, Repr

/-- Building goes on past b: onward, or the take-end decision (R123 step 2, R125). -/
def onwardDecision (mode : PlayMode) (last b : Nat) (stack : List Pass) (loopEnd : Bool) : EndDecision :=
  if b ≠ last then { stack := stack, loopEnd := loopEnd, arrival := some b }
  else if mode = .loop then
    (if loopEnd then { stack := stack, loopEnd := false, arrival := none }
     else { stack := stack, loopEnd := false, arrival := some 0 })
  else { stack := stack, loopEnd := loopEnd, arrival := none }

/-- The decisions of R123 at end keyframe b. -/
def endDecision (mode : PlayMode) (last b : Nat) (stack : List Pass) (loopEnd : Bool) : EndDecision :=
  match stack with
  | [] => onwardDecision mode last b [] loopEnd
  | p :: rest =>
    if p.stop ≠ b then onwardDecision mode last b stack loopEnd
    else if p.breakRequested ∨ p.remaining = 1 then onwardDecision mode last b rest loopEnd
    else { stack := { p with remaining := p.remaining - 1 } :: rest, loopEnd := loopEnd,
           arrival := some p.start }

/-- The section decision of R126 for an entry that is not final: the section-end state. -/
def sectionDecision (mode : PlayMode) (cues : List Nat) (b : Nat) (slot : AdvanceSlot) : SectionEnd :=
  if mode = .step ∧ cues.contains b then (if slot = .held then .released else .waiting) else .none

/-- The entry joins the queue with the decisions of R123, R125 and R126 made for it; the cursor goes beyond
it. -/
def enqueueEntry (mode : PlayMode) (take : TakeEntry) (e : QueueEntry) (fd : Feeder) : Feeder :=
  let d := endDecision mode (take.count - 1) e.stop fd.stack fd.loopEnd
  match d.arrival with
  | none =>
    { fd with
      queue := fd.queue ++ [{ e with zeroEnd := true, sectionEnd := .none, final := true }],
      stack := d.stack, loopEnd := d.loopEnd, finalBuilt := true, sourceRead := none,
      nextSeq := fd.nextSeq + 1 }
  | some a =>
    let sec := sectionDecision mode take.cues e.stop fd.slot
    let ends := decide (sec ≠ .none)
    { fd with
      queue := fd.queue ++ [{ e with zeroEnd := ends, sectionEnd := sec, final := false }],
      stack := d.stack, loopEnd := d.loopEnd, sourceRead := none, nextSeq := fd.nextSeq + 1,
      slot := if sec = .released then .applied else fd.slot,
      cursor := { arrival := a, source := e.stop, t0 := endTime e, atRest := ends,
                  pose := some (endPose e.spans) } }

/-- The enqueue event of a build whose reads have completed: source pose q, end pose b (R121 to R126,
R131). -/
def buildEntry (axisCount : Nat) (mode : PlayMode) (take : TakeEntry) (q b : Keyframe) (fd : Feeder) : Feeder :=
  let stack := pushMark take fd.cursor.arrival fd.stack
  let e : QueueEntry :=
    { t0 := fd.cursor.t0, dur := take.interval, zeroStart := fd.cursor.atRest, zeroEnd := false,
      spans := buildSpans axisCount q b, source := fd.cursor.source, stop := fd.cursor.arrival + 1,
      seq := fd.nextSeq, stack := stack, loopEnd := fd.loopEnd, sectionEnd := .none, final := false }
  enqueueEntry mode take e { fd with stack := stack }

/-- One read of the feeder completes: the source keyframe of the first segment of a roll, or the end
keyframe, whose completion enqueues the entry (R120). -/
def feederRead (c : PlayContext) (s : State) : Feeder :=
  let fd := s.fd
  match fd.cursor.pose.or fd.sourceRead with
  | none => { fd with sourceRead := some (readKeyframe s.ts c.take fd.cursor.source) }
  | some q =>
    buildEntry s.cl.cfg.axisCount c.mode (entryOf s c.take) q
      (readKeyframe s.ts c.take (fd.cursor.arrival + 1)) fd

/-- FEEDER_READ_DONE: a keyframe read of the feeder completes at the store port (R98, R120, R121). -/
def feederReadDoneEffect (s : State) : State :=
  if feederWants s then
    match s.tc.ctx with
    | none => s
    | some c => s.setFd (feederRead c s)
  else s

/-! ### The start of a roll (R109, R120, R131, R136) -/

/-- The feeder begins at the play context's start keyframe. -/
def beginFeeding (c : PlayContext) (startSeq : BitVec 16) (s : State) : State :=
  s.setFd { Feeder.reset with
    cueLow := s.fd.cueLow, nextSeq := startSeq, startSeq := startSeq,
    cursor := { arrival := c.startKeyframe, source := c.startKeyframe, t0 := c.startTime, atRest := true,
                pose := none } }

/-- The feeder rebuilds from the restart entry (R136). -/
def rebuildFeeder (c : PlayContext) (startSeq : BitVec 16) (s : State) : State :=
  match s.fd.restart with
  | none => beginFeeding c startSeq s
  | some e =>
    let fd := { s.fd with
      queue := [], retired := none, stack := e.stack, loopEnd := e.loopEnd, nextSeq := startSeq,
      startSeq := startSeq, suspended := false, finalBuilt := false, sourceRead := none }
    s.setFd (enqueueEntry c.mode (entryOf s c.take) { e with zeroStart := true, seq := startSeq } fd)

/-! ### Retirement (R132, R178) -/

/-- The punch writer samples every axis whose punch is writing, in ascending axis number (R178). -/
def samplePunches (stop : Nat) (s : State) : State :=
  s.setAx { s.ax with
    samples := s.ax.samples ++ allAxes.filterMap fun i =>
      match activePunch s i with
      | some p =>
        if p.writing then some { ident := p.ident, keyframe := stop, pos := toUnits s i (axisCh s i).lastValid }
        else none
      | none => none }

/-- The head leaves the queue and becomes the retired record. -/
def retireEntry (e : QueueEntry) (rest : List QueueEntry) (fd : Feeder) : Feeder :=
  { fd with
    queue := rest, retired := some e,
    slot := if e.sectionEnd = .released ∧ fd.slot = .applied then .empty else fd.slot,
    sectionWait := if e.sectionEnd = .waiting then true else fd.sectionWait }

/-- The published T has reached the end of the entry, and its mode allows its retirement. -/
def retires (s : State) (e : QueueEntry) : Bool :=
  decide (1024 * (e.dur : Int) ≤ tdiff s.pu.t e.t0) && inPlay s.tc.mode && !s.fd.suspended &&
    (!e.final || s.tc.mode == .playing)

/-- The feeder takes a publication: every head whose end T has reached is retired in order, and a final
entry takes the station to IDLE (R112, R132). -/
def takePublication : Nat → State → State
  | 0, s => s
  | n + 1, s =>
    match s.fd.queue with
    | [] => s
    | e :: rest =>
      if retires s e then
        let s := samplePunches e.stop (s.setFd (retireEntry e rest s.fd))
        if e.final then returnToIdle s else takePublication n s
      else s

/-! ### The restart entry (R135) -/

/-- The entry with a sequence number among the queue and the retired record. -/
def findEntry (fd : Feeder) (seq : BitVec 16) : Option QueueEntry :=
  (fd.queue ++ fd.retired.toList).find? fun e => e.seq == seq

/-- The restart entry is kept; the queue and the retired record are discarded. -/
def keepRestart (e : QueueEntry) (s : State) : State :=
  s.setFd { s.fd with queue := [], retired := none, restart := some e }

/-- The start pose of an entry. -/
def startPose (e : QueueEntry) (i : Axis) : Int := (e.spans.get i).p0

/-! ### Commands (R128, R129, R130) -/

/-- An ADVANCE is picked. -/
def pickAdvance : CommandBody → Option Unit
  | .advance => some ()
  | _ => none

/-- The first WAITING entry becomes RELEASED. -/
def releaseWaiting : List QueueEntry → List QueueEntry
  | [] => []
  | e :: rest =>
    if e.sectionEnd = .waiting then { e with sectionEnd := .released } :: rest else e :: releaseWaiting rest

/-- An ADVANCE meets an EMPTY slot (R128).  DESIGN CHOICE: a WAITING entry is released also when T has passed
its end before the entry was built (log entry 47). -/
def applyAdvance (fd : Feeder) : Feeder :=
  if fd.sectionWait then { fd with sectionWait := false }
  else if fd.queue.any (fun e => e.sectionEnd == .waiting) then
    { fd with queue := releaseWaiting fd.queue, slot := .applied }
  else { fd with slot := .held }

/-- The play mode of the play context. -/
def playMode (s : State) : Option PlayMode := s.tc.ctx.map PlayContext.mode

/-- ADVANCE (R128). -/
def advanceEffect (s : State) : State :=
  withCommand pickAdvance noEarly
    (fun c _ s =>
      if !inPlay s.tc.mode then refuse c .busy s
      else if playMode s ≠ some .step then refuseWith c .busy { name := .notStep } s
      else if s.fd.slot ≠ .empty then countAdvanceOverrun s
      else answerDone c (s.setFd (applyAdvance s.fd))) s

/-- A BREAK is picked. -/
def pickBreak : CommandBody → Option Unit
  | .brk => some ()
  | _ => none

/-- What BREAK does to the lookahead (R129). -/
def applyBreak (mode : Option PlayMode) (fd : Feeder) : Feeder :=
  match fd.stack with
  | p :: rest => { fd with stack := { p with breakRequested := true } :: rest }
  | [] => if mode = some .loop then { fd with loopEnd := true } else fd

/-- BREAK (R129). -/
def brkEffect (s : State) : State :=
  withCommand pickBreak noEarly
    (fun c _ s =>
      if !inPlay s.tc.mode then refuse c .busy s
      else answerDone c (s.setFd (applyBreak (playMode s) s.fd))) s

/-- The cue-level term for a level of the cue input (R130). -/
def cueTermOf (mode : CueInputMode) (cueLow : Bool) : Nat :=
  if mode = .runLevel ∧ !cueLow then 0 else 1024

/-- CUE_EDGE: a falling edge of the cue input (R130). -/
def cueEdgeEffect (s : State) : State :=
  if running s ∧ s.cl.cfg.cueMode ≠ .none then
    let s := s.setFd { s.fd with cueLow := true }
    if s.cl.cfg.cueMode = .advanceEdge ∧ inPlay s.tc.mode ∧ playMode s = some .step then
      handOver (.command targetAll 0 .advance) s
    else s
  else s

/-! ### The meanings

One per row of the command table; no command of this block stops, but for a contradictory FRAME_ARRIVES. -/

/-- BREAK: the row's whole effect is `brkEffect`. -/
def execBrk (s : State) : Host.Outcome State Fault Refusal :=
  .next (brkEffect s)

/-- ADVANCE: the row's whole effect is `advanceEffect`. -/
def execAdvance (s : State) : Host.Outcome State Fault Refusal :=
  .next (advanceEffect s)

/-- CUE_EDGE: the row's whole effect is `cueEdgeEffect`. -/
def execCueEdge (s : State) : Host.Outcome State Fault Refusal :=
  .next (cueEdgeEffect s)

/-- FEEDER_READ_DONE: the row's whole effect is `feederReadDoneEffect`. -/
def execFeederReadDone (s : State) : Host.Outcome State Fault Refusal :=
  .next (feederReadDoneEffect s)

end Sys2Proof.Machine
end

