-- ==== Sys2Proof/Machine/Guard.lean ====
section
/-! DEFINITION. The guard unit (chapter 10) and the stop line (R166): the guard sample event, the edge
latch, the zone commands and QUERY of TRIP. -/

namespace Sys2Proof.Machine

/-! ### Inputs (R149 to R151) -/

/-- The set of inputs with a property, as a mask. -/
def inputSet (p : Input → Bool) : BitVec 8 :=
  allInputs.foldl (fun m i => if p i then m ||| (1#8 <<< i.val) else m) 0

/-- A pin level with its polarity applied: active or inactive (R149). -/
def activeSample (c : InputConfig) (level : Bool) : Bool := level == c.activeHigh

/-- A LEVEL input after a sample (R150). -/
def sampleLevel (c : InputConfig) (active : Bool) (g : GuardInput) : GuardInput :=
  if active = g.filtered then { g with run := 0 }
  else if c.filterLength ≤ g.run + 1 then { g with filtered := active, run := 0 }
  else { g with run := g.run + 1 }

/-- An EDGE input after a sample: the level follows and the latch is cleared (R151). -/
def sampleEdge (active : Bool) (g : GuardInput) : GuardInput :=
  { g with level := active, latch := false, armedSince := 0 }

/-- An EDGE input has an edge for zone z at a sample (R151): its latch is set, and was set since the zone was
armed (R153), or its sample is active and its previous sample was inactive. -/
def hasEdge (active : Bool) (z : Zone) (g : GuardInput) : Bool :=
  (g.latch && !g.armedSince.getLsbD z.val) || (active && !g.level)

/-- The sample of input i among the pin levels. -/
def sampleOf (s : State) (levels : BitVec 8) (i : Input) : Bool :=
  activeSample (s.cl.cfg.inputs.get i) (levels.getLsbD i.val)

/-- An input after the first stage of a guard sample. -/
def sampledInput (s : State) (levels : BitVec 8) (i : Input) : GuardInput :=
  match (s.cl.cfg.inputs.get i).mode with
  | .level => sampleLevel (s.cl.cfg.inputs.get i) (sampleOf s levels i) (s.gu.inputs.get i)
  | .edge => sampleEdge (sampleOf s levels i) (s.gu.inputs.get i)

/-- The EDGE inputs that have an edge for zone z at a guard sample. -/
def edgesOf (s : State) (levels : BitVec 8) (z : Zone) : BitVec 8 :=
  inputSet fun i =>
    (s.cl.cfg.inputs.get i).mode == .edge && hasEdge (sampleOf s levels i) z (s.gu.inputs.get i)

/-- The first stage: every input takes its sample, and edges set the edge events of the armed zones that
hold them. -/
def sampleInputs (levels : BitVec 8) (s : State) : State :=
  s.setGu { s.gu with
    inputs := Table.ofFn (sampledInput s levels),
    zones := Table.ofFn fun z =>
      let r := s.gu.zones.get z
      if r.armed then { r with edges := r.edges ||| (edgesOf s levels z &&& (s.cl.cfg.zones.get z).mask) } else r }

/-! ### Zones (R152, R157, R158) -/

/-- Zone z as it stands. -/
def zoneOf (s : State) (z : Zone) : ZoneRecord := s.gu.zones.get z

/-- The definition of zone z. -/
def zoneCfg (s : State) (z : Zone) : ZoneConfig := s.cl.cfg.zones.get z

/-- Zone z is replaced. -/
def setZone (z : Zone) (r : ZoneRecord) (s : State) : State :=
  s.setGu { s.gu with zones := s.gu.zones.set z r }

/-- The inputs of the zone's mask that are active for the zone (R150, R151). -/
def activeFor (s : State) (z : Zone) : BitVec 8 :=
  inputSet fun i =>
    (zoneCfg s z).mask.getLsbD i.val &&
      match (s.cl.cfg.inputs.get i).mode with
      | .level => (s.gu.inputs.get i).filtered
      | .edge => (s.gu.inputs.get i).level || (zoneOf s z).edges.getLsbD i.val

/-- The zone is occupied-by-input. -/
def occupied (s : State) (z : Zone) : Bool := activeFor s z != 0

/-- The class of the claim of an action; a SCALE zone holds none (R158). -/
def actionClass : ZoneAction → Option Cls
  | .scale => none
  | .hold => some .hold
  | .halt => some .halt
  | .sever => some .sever

/-- A trip capture (R157). -/
def captureTrip (s : State) (z : Zone) (r : ZoneRecord) : ZoneRecord :=
  match r.trip with
  | none =>
    { r with trip := some { time := s.pu.t, mode := s.tc.mode, seq := stateSeq s, causes := activeFor s z } }
  | some _ => { r with overrun := true }

/-- The zone enters OCCUPIED: the trip capture, and from CLEAR the claim (R157, R158). -/
def enterOccupied (z : Zone) (s : State) : State :=
  let r := zoneOf s z
  let s := setZone z { captureTrip s z r with state := .occupied } s
  match r.state, actionClass (zoneCfg s z).action with
  | .clear, some cls => raiseKey (.zone z) cls s
  | _, _ => s

/-- The zone enters CLEAR: the claim it held is released (R158). -/
def enterClear (z : Zone) (s : State) : State :=
  releaseKey (.zone z) (setZone z { zoneOf s z with state := .clear } s)

/-- One armed zone is evaluated (R152). -/
def evaluateZone (s : State) (z : Zone) : State :=
  let r := zoneOf s z
  if !r.armed then s
  else
    match r.state, occupied s z with
    | .clear, true => enterOccupied z s
    | .vacated, true => enterOccupied z s
    | .occupied, false =>
      if (zoneCfg s z).ackLatch then setZone z { r with state := .vacated } s else enterClear z s
    | _, _ => s

/-- The guard ceiling (R156). -/
def guardCeiling (s : State) : Nat :=
  allZones.foldl
    (fun g z =>
      if (zoneOf s z).armed && (zoneCfg s z).action == .scale && (zoneOf s z).state != .clear then
        min g (zoneCfg s z).ceiling
      else g) 1024

/-- G is formed, and handed over when it has changed (R138, R156). -/
def formCeiling (s : State) : State :=
  let g := guardCeiling s
  if g = s.gu.ceiling then s else announce (s.setGu { s.gu with ceiling := g })

/-- The three stages of the guard unit (R149).  In UNCONFIGURED the inputs are not sampled (R160). -/
def guardStages (levels : BitVec 8) (s : State) : State :=
  if s.tc.mode = .unconfigured then s
  else formCeiling (allZones.foldl evaluateZone (sampleInputs levels s))

/-! ### The stop line (R166) -/

/-- The stop unit's sample of the stop line, the loop read as the operand says. -/
def sampleStopLine (closed : Bool) (s : State) : State :=
  let open' := !closed || s.su.openLatch
  let s := s.setSu { s.su with loopClosed := closed, openLatch := false }
  if !s.su.lineOpen then
    if open' then raiseKey .stopLine .sever (s.setSu { s.su with lineOpen := true, closedRun := 0 }) else s
  else if open' then s.setSu { s.su with closedRun := 0 }
  else if s.su.closedRun + 1 < 10 then s.setSu { s.su with closedRun := s.su.closedRun + 1 }
  else releaseKey .stopLine (s.setSu { s.su with lineOpen := false, closedRun := 0 })

/-- STOP_LINE_OPENS: the loop opens; drive-enable drops on the direct path and the open latch is set (R36,
R166). -/
def stopLineOpensEffect (s : State) : State :=
  if running s then s.setSu { s.su with loopClosed := false, openLatch := true } else s

/-! ### The guard sample event -/

/-- A guard sample: the guard unit's stages and the stop unit's sample, in either order. -/
def guardSample (levels : BitVec 8) (closed stopLineFirst : Bool) (s : State) : State :=
  if stopLineFirst then guardStages levels (sampleStopLine closed s)
  else sampleStopLine closed (guardStages levels s)

/-- GUARD_SAMPLE (R149, R166). -/
def guardSampleEffect (levels : BitVec 8) (closed stopLineFirst : Bool) (s : State) : State :=
  if running s then guardSample levels closed stopLineFirst s else s

/-- The filtered state of a LEVEL input changes at this sample. -/
def filterChanges (s : State) (levels : BitVec 8) : Bool :=
  s.tc.mode != .unconfigured && allInputs.any fun i =>
    (s.cl.cfg.inputs.get i).mode == .level &&
      (sampledInput s levels i).filtered != (s.gu.inputs.get i).filtered

/-- LEVEL_FILTER_CHANGE: the guard sample at which the filtered state of a LEVEL input changes (R150). -/
def levelFilterChangeEffect (levels : BitVec 8) (closed stopLineFirst : Bool) (s : State) : State :=
  if running s ∧ filterChanges s levels then guardSample levels closed stopLineFirst s else s

/-- The tenth consecutive closed sample would be the next (R166). -/
def closesNext (s : State) : Bool := s.su.lineOpen && !s.su.openLatch && decide (9 ≤ s.su.closedRun)

/-- STOP_LINE_CLOSED: the guard sample that is the tenth consecutive closed one (R166). -/
def stopLineClosedEffect (levels : BitVec 8) (stopLineFirst : Bool) (s : State) : State :=
  if running s ∧ closesNext s then guardSample levels true stopLineFirst s else s

/-- EDGE_LATCH: a transition to the active level at the pin of an EDGE input (R151), which reaches every zone
that is armed (R153). -/
def edgeLatchEffect (i : Input) (s : State) : State :=
  if running s ∧ s.tc.mode ≠ .unconfigured ∧ (s.cl.cfg.inputs.get i).mode = .edge then
    s.setGu { s.gu with inputs := s.gu.inputs.set i { s.gu.inputs.get i with latch := true, armedSince := 0 } }
  else s

/-! ### Zone commands (R153 to R155) -/

/-- The zones of a zone set, in ascending number. -/
def zonesOf (set : BitVec 8) : List Zone := allZones.filter fun z => set.getLsbD z.val

/-- The EDGE inputs of the zone's mask whose level is active (R153). -/
def activeEdges (s : State) (z : Zone) : BitVec 8 :=
  inputSet fun i =>
    (zoneCfg s z).mask.getLsbD i.val && (s.cl.cfg.inputs.get i).mode == .edge && (s.gu.inputs.get i).level

/-- The edges latched so far do not reach zone z (R153). -/
def forgetEdges (z : Zone) (s : State) : State :=
  s.setGu { s.gu with inputs := s.gu.inputs.map fun g =>
    if g.latch then { g with armedSince := g.armedSince ||| (1#8 <<< z.val) } else g }

/-- One zone is armed (R153). -/
def armZone (s : State) (z : Zone) : State :=
  let r := zoneOf s z
  if r.armed then s
  else
    let s := forgetEdges z s
    let s := setZone z { r with armed := true, edges := activeEdges s z } s
    if occupied s z then enterOccupied z s else s

/-- One zone is disarmed (R154). -/
def disarmZone (s : State) (z : Zone) : State :=
  let r := zoneOf s z
  if !r.armed then s else enterClear z (setZone z { r with armed := false, edges := 0 } s)

/-- One zone is acknowledged (R155). -/
def ackZone (s : State) (z : Zone) : State :=
  let r := { zoneOf s z with trip := none, overrun := false }
  match r.state with
  | .clear => setZone z r s
  | .vacated => enterClear z (setZone z r s)
  | .occupied =>
    let s := setZone z { r with edges := 0 } s
    if occupied s z then s else enterClear z s

/-- A zone command acts on the zones of its set, and G is formed (R156).  DESIGN CHOICE: the ANSWER is handed
over after the STOP, STATE and PACE frames of what it does (log entry 44). -/
def zoneCommand (act : State → Zone → State) (c : Command) (set : BitVec 8) (s : State) : State :=
  answerDone c (formCeiling ((zonesOf set).foldl act s))

/-- A ZONE-ARM is picked. -/
def pickZoneArm : CommandBody → Option (BitVec 8)
  | .zoneArm z => some z
  | _ => none

/-- ZONE_ARM (R153). -/
def zoneArmEffect (s : State) : State := withCommand pickZoneArm noEarly (zoneCommand armZone) s

/-- A ZONE-DISARM is picked. -/
def pickZoneDisarm : CommandBody → Option (BitVec 8)
  | .zoneDisarm z => some z
  | _ => none

/-- ZONE_DISARM (R154). -/
def zoneDisarmEffect (s : State) : State := withCommand pickZoneDisarm noEarly (zoneCommand disarmZone) s

/-- A ZONE-ACK is picked. -/
def pickZoneAck : CommandBody → Option (BitVec 8)
  | .zoneAck z => some z
  | _ => none

/-- ZONE_ACK (R155). -/
def zoneAckEffect (s : State) : State := withCommand pickZoneAck noEarly (zoneCommand ackZone) s

/-! ### QUERY of TRIP (R159) -/

/-- A QUERY of TRIP is picked, with its zone byte. -/
def pickQueryTrip : CommandBody → Option (BitVec 8)
  | .query subject low => if subject = 2 then some low else none
  | _ => none

/-- The zone that a zone byte names: 0 to 7 (R159, R187). -/
def zoneNamed (low : BitVec 8) : Option Zone := if h : low.toNat < 8 then some ⟨low.toNat, h⟩ else none

/-- The report of a zone. -/
def tripReport (c : Command) (z : Zone) (s : State) : Payload :=
  .tripReport
    { tag := c.tag, zone := z, armed := (zoneOf s z).armed, state := (zoneOf s z).state,
      trip := (zoneOf s z).trip, overrun := (zoneOf s z).overrun, active := activeFor s z }

/-- QUERY_TRIP: the report, and the trip record emptied, as one event (R159).  A zone byte above 7 is
counted malformed (R187). -/
def queryTripEffect (s : State) : State :=
  withCommand pickQueryTrip
    (fun _ low s => if (zoneNamed low).isNone then some (countMalformed s) else none)
    (fun c low s =>
      match zoneNamed low with
      | none => s
      | some z =>
        handOver (tripReport c z s) (setZone z { zoneOf s z with trip := none, overrun := false } s)) s

/-! ### The meanings

One per row of the command table; no command of this block stops, but for a contradictory FRAME_ARRIVES. -/

/-- ZONE_ARM: the row's whole effect is `zoneArmEffect`. -/
def execZoneArm (s : State) : Host.Outcome State Fault Refusal :=
  .next (zoneArmEffect s)

/-- ZONE_DISARM: the row's whole effect is `zoneDisarmEffect`. -/
def execZoneDisarm (s : State) : Host.Outcome State Fault Refusal :=
  .next (zoneDisarmEffect s)

/-- ZONE_ACK: the row's whole effect is `zoneAckEffect`. -/
def execZoneAck (s : State) : Host.Outcome State Fault Refusal :=
  .next (zoneAckEffect s)

/-- QUERY_TRIP: the row's whole effect is `queryTripEffect`. -/
def execQueryTrip (s : State) : Host.Outcome State Fault Refusal :=
  .next (queryTripEffect s)

/-- GUARD_SAMPLE: the row's whole effect is `guardSampleEffect`. -/
def execGuardSample (levels : BitVec 8) (closed stopLineFirst : Bool) (s : State) : Host.Outcome State Fault Refusal :=
  .next (guardSampleEffect levels closed stopLineFirst s)

/-- LEVEL_FILTER_CHANGE: the row's whole effect is `levelFilterChangeEffect`. -/
def execLevelFilterChange (levels : BitVec 8) (closed stopLineFirst : Bool) (s : State) : Host.Outcome State Fault Refusal :=
  .next (levelFilterChangeEffect levels closed stopLineFirst s)

/-- EDGE_LATCH: the row's whole effect is `edgeLatchEffect`. -/
def execEdgeLatch (i : Input) (s : State) : Host.Outcome State Fault Refusal :=
  .next (edgeLatchEffect i s)

/-- STOP_LINE_OPENS: the row's whole effect is `stopLineOpensEffect`. -/
def execStopLineOpens (s : State) : Host.Outcome State Fault Refusal :=
  .next (stopLineOpensEffect s)

/-- STOP_LINE_CLOSED: the row's whole effect is `stopLineClosedEffect`. -/
def execStopLineClosed (levels : BitVec 8) (stopLineFirst : Bool) (s : State) : Host.Outcome State Fault Refusal :=
  .next (stopLineClosedEffect levels stopLineFirst s)

end Sys2Proof.Machine
end

