-- ==== Sys2Proof/Machine/Lens.lean ====
section
/-! DEFINITION. The loading of lens maps (section 5.5): LENS-POINT and LENS-COMMIT. -/

namespace Sys2Proof.Machine

/-- A LENS-POINT is picked: axis, index, unit and count. -/
def pickLensPoint : CommandBody → Option (Nat × Nat × Nat × Int)
  | .lensPoint a i u c => some (a, i, u, c)
  | _ => none

/-- The shadow as the sender finds it: emptied first when another station filled it (R74). -/
def shadowFor (sender : Station) (m : LensChannel) : Table (Option LensPoint) 16 :=
  match m.writer with
  | none => m.shadow
  | some w => if w = sender then m.shadow else Table.fill 16 none

/-- The point that a LENS-POINT writes: its unit and its count clamped (R68, R74). -/
def clampPoint (a : AxisConfig) (unit : Nat) (count : Int) : LensPoint :=
  { unit := clampUnit a.kind unit, count := clampInt a.smin a.smax count }

/-- A map channel with one shadow slot written (R74). -/
def writePoint (sender : Station) (index : Fin 16) (p : LensPoint) (m : LensChannel) : LensChannel :=
  { m with shadow := (shadowFor sender m).set index (some p), writer := some sender }

/-- LENS_POINT (R74). -/
def lensPointEffect (s : State) : State :=
  withCommand pickLensPoint noEarly
    (fun c x s =>
      match namedAxis s x.1 with
      | none => refuseWith c .notController { name := .disabled } s
      | some i =>
        if !(axisCfg s i).kind.isLens then refuseWith c .mapInvalid { name := .notLens } s
        else if h : x.2.1 < 16 then
          let p := clampPoint (axisCfg s i) x.2.2.1 x.2.2.2
          answerClamped c (p.unit != x.2.2.1 || p.count != x.2.2.2)
            (s.setLmu (s.lmu.set i (writePoint c.sender ⟨x.2.1, h⟩ p (s.lmu.get i))))
        else refuseWith c .mapInvalid { name := .index } s) s

/-- A LENS-COMMIT is picked: axis and count. -/
def pickLensCommit : CommandBody → Option (Nat × Nat)
  | .lensCommit a n => some (a, n)
  | _ => none

/-- The first index i + 1 of a list of points at which the next one fails a test against the one before
it. -/
def firstBreak (fails : LensPoint → LensPoint → Bool) : Nat → LensMap → Option Nat
  | i, p :: q :: rest => if fails p q then some (i + 1) else firstBreak fails (i + 1) (q :: rest)
  | _, _ => none

/-- The counts fail to run in the direction that the first two set (R75, check 7). -/
def countBreak (m : LensMap) : Option Nat :=
  match m with
  | p :: q :: _ =>
    if p.count = q.count then some 1
    else if p.count < q.count then firstBreak (fun a b => b.count ≤ a.count) 0 m
    else firstBreak (fun a b => a.count ≤ b.count) 0 m
  | _ => none

/-- The checks 3 to 7 of R75, in their order: the new map, or the detail of the refusal. -/
def commitCheck (sender : Station) (n : Nat) (m : LensChannel) : Except Detail LensMap :=
  if m.writer ≠ some sender then .error { name := .writer }
  else if n < 2 ∨ 16 < n then .error { name := .count }
  else
    match (m.shadow.rows.take n).findIdx? Option.isNone with
    | some k => .error { name := .empty, number := some k }
    | none =>
      let points := (m.shadow.rows.take n).filterMap id
      match firstBreak (fun a b => b.unit ≤ a.unit) 0 points with
      | some k => .error { name := .units, number := some k }
      | none =>
        match countBreak points with
        | some k => .error { name := .counts, number := some k }
        | none => .ok points

/-- A new map is placed by the axis state (R76): pending, or active at once. -/
def placeMap (pending : Bool) (new : LensMap) (m : LensChannel) : LensChannel :=
  if pending then { m with pending := some new } else { m with active := new }

/-- LENS_COMMIT (R75, R76). -/
def lensCommitEffect (s : State) : State :=
  withCommand pickLensCommit noEarly
    (fun c x s =>
      match namedAxis s x.1 with
      | none => refuseWith c .notController { name := .disabled } s
      | some i =>
        if !(axisCfg s i).kind.isLens then refuseWith c .mapInvalid { name := .notLens } s
        else
          match commitCheck c.sender x.2 (s.lmu.get i) with
          | .error d => refuseWith c .mapInvalid d s
          | .ok new =>
            let pending := holdsPending (axisCh s i).state
            answer c .done { name := if pending then .pending else .active }
              (s.setLmu (s.lmu.set i (placeMap pending new (s.lmu.get i))))) s

/-! ### The meanings

One per row of the command table; no command of this block stops, but for a contradictory FRAME_ARRIVES. -/

/-- LENS_POINT: the row's whole effect is `lensPointEffect`. -/
def execLensPoint (s : State) : Host.Outcome State Fault Refusal :=
  .next (lensPointEffect s)

/-- LENS_COMMIT: the row's whole effect is `lensCommitEffect`. -/
def execLensCommit (s : State) : Host.Outcome State Fault Refusal :=
  .next (lensCommitEffect s)

end Sys2Proof.Machine
end

