-- ==== Sys2Proof/Machine/Line.lean ====
section
/-! DEFINITION. The line controller's own events (chapter 1): attempts, link loss, arriving frames, the
read-out frames it holds back, and QUERY of COUNTERS. -/

namespace Sys2Proof.Machine

/-! ### Sending (R3 to R7) -/

/-- The line controller may start a frame: a frame is queued, the line is idle, no quiet time runs, and
the link is not in FAULT (R3, R7, R8). -/
def mayStart (s : State) : Bool :=
  running s && s.lc.phase == .idle && s.lc.quiet == none && s.lc.link != .fault && !s.lc.txq.isEmpty

/-- A PACE frame with its take time written at the start bit (R4). -/
def stampPace (t : TakeTime) (p : Payload) : Payload :=
  match p with
  | .pace f => .pace { f with time := t }
  | p => p

/-- TRANSMIT_ATTEMPT: a start bit and the arbitration field, won or lost (R3, R4). -/
def transmitAttemptEffect (won : Bool) (instant : Nat) (s : State) : State :=
  if mayStart s then
    match s.lc.txq with
    | [] => s
    | f :: rest =>
      let mark : StartMark := { instant := instant, time := s.pu.t }
      s.setLc { s.lc with
        txq := { payload := stampPace s.pu.t f.payload, onLine := won } :: rest,
        phase := if won then .sending mark else .receiving mark }
  else s

/-- The frame on the line and the start mark it was sent with. -/
def frameOnLine (s : State) : Option (TxFrame × StartMark) :=
  match s.lc.phase with
  | .sending mark => (s.lc.txq.find? TxFrame.onLine).map fun f => (f, mark)
  | _ => none

/-- FRAME_SENT_WHOLE: the frame leaves the queue, LINK-LOST ends, and the node receives its own frame
(R5, R7). -/
def frameSentWholeEffect (s : State) : State :=
  match frameOnLine s with
  | none => s
  | some (f, mark) =>
    let lost := decide (s.lc.link = .linkLost)
    let s := s.setLc { s.lc with
      txq := s.lc.txq.filter fun f => !f.onLine, failRun := 0, phase := .idle,
      link := if lost then .joined else s.lc.link }
    let s := if lost then releaseKey .linkLost s else s
    receiveValid s.cl.station f.payload mark true s

/-- The transmit queue after the frame on the line failed: it stays, unless a newer PACE or STATE stands
in its place (R6). -/
def queueAfterFailure (f : TxFrame) (q : List TxFrame) : List TxFrame :=
  if q.any (replaceable f.payload.kind) then q.filter fun g => !g.onLine
  else q.map fun g => { g with onLine := false }

/-- LINK-LOST is entered, or entered again: the quiet time starts and the claim is raised (R7). -/
def enterLinkLost (s : State) : State :=
  raiseKey .linkLost .halt (s.setLc { s.lc with link := .linkLost, failRun := 0, quiet := some 100 })

/-- One failed attempt (R6). -/
def failAttempt (f : TxFrame) (s : State) : State :=
  let s := countTxFailure (s.setLc { s.lc with
    txq := queueAfterFailure f s.lc.txq, failRun := s.lc.failRun + 1, phase := .idle })
  if 16 ≤ s.lc.failRun then enterLinkLost s else s

/-- ATTEMPT_FAILS: a read-back mismatch or a foreign run of six dominant bits (R6). -/
def attemptFailsEffect (s : State) : State :=
  match frameOnLine s with
  | none => s
  | some (f, _) => failAttempt f s

/-- LINK_LOST_ENTRY: the failed attempt that brings the count of consecutive failures to 16 (R7). -/
def linkLostEntryEffect (s : State) : State :=
  match frameOnLine s with
  | none => s
  | some (f, _) => if 15 ≤ s.lc.failRun then failAttempt f s else s

/-- QUIET_TIME_EXPIRY: the line controller asks for a STATE frame and contends again (R7, R23). -/
def quietTimeExpiryEffect (s : State) : State :=
  if running s ∧ s.lc.quiet ≠ none then handState (s.setLc { s.lc with quiet := none }) else s

/-! ### Receiving (R1, R4, R9) -/

/-- START_BIT: another station's start bit on the idle line; the start mark is taken (R4). -/
def startBitEffect (instant : Nat) (s : State) : State :=
  if running s ∧ s.lc.phase = .idle then
    s.setLc { s.lc with phase := .receiving { instant := instant, time := s.pu.t } }
  else s

/-- FRAMING_VIOLATION: the bits of a frame being received, from its start bit on, come to a run of six equal
bits, of which a recessive one counts a CRC error (R1).  Bits without such a run are no violation (log entry
2). -/
def framingViolationEffect (line : List Bool) (s : State) : State :=
  match s.lc.phase, unstuff line with
  | .receiving _, .violation recessive =>
    let s := s.setLc { s.lc with phase := .idle }
    if recessive then countCrcError s else s
  | _, _ => s

/-- FRAME_ARRIVES: the last CRC bit of another station's frame (R9).  The operand is no frame when its
fields are of another kind than its header names (log entry 4). -/
def execFrameArrives (f : LineFrame) (s : State) : Host.Outcome State Fault Refusal :=
  match s.lc.phase with
  | .receiving mark =>
    let s := s.setLc { s.lc with phase := .idle }
    match checkFrame f with
    | .aborted => .next s
    | .crcError => .next (countCrcError s)
    | .malformed => .next (countMalformed s)
    | .valid k =>
      match decodePayload k f.words f.fields with
      | none => .fault .contradictoryFrame
      | some p => .next (receiveValid (headerSender f.header) p mark false s)
  | _ => .next s

/-! ### QUERY of COUNTERS (R16) -/

/-- A QUERY whose subject is COUNTERS, or one whose subject code or zone has no meaning (R187). -/
def pickQueryCounters : CommandBody → Option (BitVec 8 × BitVec 8)
  | .query subject low => if subject = 0 ∨ 3 < subject.toNat then some (subject, low) else none
  | _ => none

/-- QUERY_COUNTERS: the seven counters are reported and zeroed as one event (R16).  A QUERY with a
subject code above 3 is counted malformed (R187). -/
def queryCountersEffect (s : State) : State :=
  withCommand pickQueryCounters
    (fun _ x s => if 3 < x.1.toNat then some (countMalformed s) else none)
    (fun c _ s => handOver (.counters c.tag s.lc.counters) (setCounters s Counters.zero)) s

/-! ### The meanings

One per row of the command table; no command of this block stops, but for a contradictory FRAME_ARRIVES. -/

/-- TRANSMIT_ATTEMPT: the row's whole effect is `transmitAttemptEffect`. -/
def execTransmitAttempt (won : Bool) (instant : Nat) (s : State) : Host.Outcome State Fault Refusal :=
  .next (transmitAttemptEffect won instant s)

/-- FRAME_SENT_WHOLE: the row's whole effect is `frameSentWholeEffect`. -/
def execFrameSentWhole (s : State) : Host.Outcome State Fault Refusal :=
  .next (frameSentWholeEffect s)

/-- ATTEMPT_FAILS: the row's whole effect is `attemptFailsEffect`. -/
def execAttemptFails (s : State) : Host.Outcome State Fault Refusal :=
  .next (attemptFailsEffect s)

/-- LINK_LOST_ENTRY: the row's whole effect is `linkLostEntryEffect`. -/
def execLinkLostEntry (s : State) : Host.Outcome State Fault Refusal :=
  .next (linkLostEntryEffect s)

/-- QUIET_TIME_EXPIRY: the row's whole effect is `quietTimeExpiryEffect`. -/
def execQuietTimeExpiry (s : State) : Host.Outcome State Fault Refusal :=
  .next (quietTimeExpiryEffect s)

/-- FRAMING_VIOLATION: the row's whole effect is `framingViolationEffect`. -/
def execFramingViolation (line : List Bool) (s : State) : Host.Outcome State Fault Refusal :=
  .next (framingViolationEffect line s)

/-- QUERY_COUNTERS: the row's whole effect is `queryCountersEffect`. -/
def execQueryCounters (s : State) : Host.Outcome State Fault Refusal :=
  .next (queryCountersEffect s)

/-- START_BIT: the row's whole effect is `startBitEffect`. -/
def execStartBit (instant : Nat) (s : State) : Host.Outcome State Fault Refusal :=
  .next (startBitEffect instant s)

end Sys2Proof.Machine
end

