-- ==== Sys2Proof/Machine/Servo.lean ====
section
/-! DEFINITION. The servo update of an axis channel (R31) in its five stages, and its two faults. -/

namespace Sys2Proof.Machine

/-! ### Stage 1: the encoder word (R32) -/

/-- The loss count after an update. -/
def lossAfter (a : AxisConfig) (c : AxisChannel) (enc : Option Int) : Nat :=
  match enc with
  | some _ => 0
  | none => min a.lossLimit (c.lossCount + 1)

/-- A channel that has taken its encoder word. -/
def takeEncoder (a : AxisConfig) (enc : Option Int) (c : AxisChannel) : AxisChannel :=
  { c with lossCount := lossAfter a c enc, lastValid := enc.getD c.lastValid }

/-- The loss count reaches E at this update. -/
def lossReaches (a : AxisConfig) (c : AxisChannel) (enc : Option Int) : Bool :=
  decide (c.lossCount < a.lossLimit) && lossAfter a c enc == a.lossLimit

/-! ### Stage 2: the following check (R33) -/

/-- The states in which the following check is made. -/
def followChecked (st : AxisState) : Bool :=
  st == .rest || st == .jog || st == .goto || st == .follow || st == .override || st == .rejoin ||
    st == .braking

/-- The following counter after the check of this update. -/
def followAfter (a : AxisConfig) (latch : Bool) (c : AxisChannel) (enc : Option Int) : Nat :=
  if tracks latch c || !followChecked c.state then 0
  else
    match enc with
    | none => c.followCount
    | some p => if a.followLimit < (p - c.output).natAbs then c.followCount + 1 else 0

/-- The following counter reaches FE_count at this update. -/
def followReaches (a : AxisConfig) (latch : Bool) (c : AxisChannel) (enc : Option Int) : Bool :=
  enc.isSome && a.feCount ≤ followAfter a latch c enc

/-! ### Stage 3: the setpoint (R50 to R63) -/

/-- The target of a segment at a clock, in counts, and whether the forward conversion clamped (R55,
R56). -/
def segmentTarget (s : State) (i : Axis) (g : Segment) (clock : TakeTime) : Int × Bool :=
  let p := evalSegment g clock
  if (axisCfg s i).kind.isLens then
    (travelClamp (axisCfg s i) (forward (activeMap s i) p).1, (forward (activeMap s i) p).2)
  else (travelClamp (axisCfg s i) p, false)

/-- A channel after the limiter has made a wanted velocity of it. -/
def limited (a : AxisConfig) (w : Int) (c : AxisChannel) : AxisChannel :=
  let r := limiter a w c.p8 c.v8
  { c with p8 := r.p8, v8 := r.v8, clampFlag := r.clamped }

/-- A channel that tracks its encoder (R34, R37, R47).  DESIGN CHOICE: no limiter runs at such an update, and its
clamp flag is clear (log entry 62). -/
def tracked (a : AxisConfig) (enc : Option Int) (c : AxisChannel) : AxisChannel :=
  match enc with
  | some p => { c with p8 := trackOf a p, v8 := 0, clampFlag := false }
  | none => { c with v8 := 0, clampFlag := false }

/-- The jog step (R62). -/
def jogStep (s : State) (i : Axis) (demand : Int) (c : AxisChannel) : AxisChannel :=
  limited (axisCfg s i) (wantedOfDemand demand s.gu.ceiling s.cl.cfg.servoPeriod) c

/-- A channel follows a segment to its target at this update. -/
def followSegment (s : State) (i : Axis) (g : Segment) (clock : TakeTime) (c : AxisChannel) : AxisChannel :=
  limited (axisCfg s i) (wantedOfTarget (segmentTarget s i g clock).1 c.p8) c

/-- The halt braking step (R63), with the clamp flag of the update (R61).  DESIGN CHOICE: R63 names no wanted
velocity, so the final v is compared with the braking velocity before the limit placement (log entry 62). -/
def brakeChannel (a : AxisConfig) (c : AxisChannel) : AxisChannel :=
  let r := brakingStep a c.p8 c.v8
  { c with p8 := r.1, v8 := r.2, clampFlag := decide (r.2 ≠ brakingVelocity a c.v8) }

/-- The end of braking: the first update that ends with no velocity while the class is below HALT (R47). -/
def endBraking (s : State) (c : AxisChannel) : AxisChannel :=
  if c.v8 = 0 ∧ ¬ clsGe s.su.effective .halt then enterRest s.cl.cfg c else c

/-- The move of a GOTO ends under HOLD: a published rm of 0 while the class is HOLD or above (R45).  DESIGN
CHOICE: an rm that HALT or SEVER set to 0 at once counts as published before the next pace step (log entry
48). -/
def endsUnderHold (s : State) : Bool := s.pu.rm == 0 && decide (clsGe s.su.effective .hold)

/-- A GOTO axis has arrived (R46). -/
def arrives (s : State) (i : Axis) (g : Segment) (enc : Option Int) : Bool :=
  match enc with
  | none => false
  | some p =>
    segmentComplete g s.pu.tm &&
      decide (((p - targetCount s i g.p1).natAbs : Int) ≤ (axisCfg s i).arrivalWindow)

/-- What stage 3 gives. -/
structure StageResult where
  /-- The channel. -/
  ch : AxisChannel
  /-- A forward conversion made at this update clamped (R73). -/
  lensClamped : Bool
  /-- A new segment was begun in FOLLOW: a pending map changes over before the map is used (R77). -/
  begun : Bool
  /-- The axis arrived, so that a TAKE axis reports it (R46). -/
  arrived : Bool
deriving DecidableEq, Repr

/-- A result of a step that makes no forward conversion. -/
def plainResult (c : AxisChannel) : StageResult :=
  { ch := c, lensClamped := false, begun := false, arrived := false }

/-- The FOLLOW step (R50), with the changeover of R77 made in the state it evaluates in. -/
def followStep (s : State) (i : Axis) (c : AxisChannel) : StageResult :=
  let head := s.fd.queue.head?.map fun e => segmentOf e i
  let c := { c with state := .follow, segment := none }
  match head with
  | some g =>
    let begun := decide (c.segmentCopy ≠ some g)
    let s := if begun then changeover i s else s
    { ch := { followSegment s i g s.pu.t c with segmentCopy := some g },
      lensClamped := (segmentTarget s i g s.pu.t).2, begun := begun, arrived := false }
  | none =>
    match c.segmentCopy with
    | some g =>
      { ch := followSegment s i g s.pu.t c, lensClamped := (segmentTarget s i g s.pu.t).2, begun := false,
        arrived := false }
    | none => plainResult (limited (axisCfg s i) (wantedOfTarget (outputOf c.p8) c.p8) c)

/-- The GOTO step: the segment at the move clock, then arrival or the end under HOLD (R45, R46).  `holdFirst`
says which is taken first when both fall at this update. -/
def gotoStep (s : State) (i : Axis) (enc : Option Int) (holdFirst : Bool) (c : AxisChannel) : StageResult :=
  match c.segment with
  | none => plainResult (enterRest s.cl.cfg c)
  | some g =>
    let c := followSegment s i g s.pu.tm c
    let clamped := (segmentTarget s i g s.pu.tm).2
    let arrived := arrives s i g enc && !(holdFirst && endsUnderHold s)
    { ch := if arrived || endsUnderHold s then enterRest s.cl.cfg c else c, lensClamped := clamped,
      begun := false, arrived := arrived }

/-- The REJOIN step, which becomes the FOLLOW step once T has reached T_j (R179, R180). -/
def rejoinStep (s : State) (i : Axis) (c : AxisChannel) : StageResult :=
  if 0 ≤ tdiff s.pu.t c.rejoinTime then followStep s i c
  else
    match c.segment with
    | none => followStep s i c
    | some g =>
      { ch := followSegment s i g s.pu.t c, lensClamped := (segmentTarget s i g s.pu.t).2, begun := false,
        arrived := false }

/-- Stage 3: the step that the axis state calls for (Table 3-1). -/
def setpointStage (s : State) (i : Axis) (enc : Option Int) (holdFirst : Bool) (c : AxisChannel) :
    StageResult :=
  match c.state with
  | .disabled => plainResult c
  | .rest =>
    plainResult (if tracks s.su.driveLatch c then tracked (axisCfg s i) enc c else jogStep s i 0 c)
  | .jog =>
    let c := jogStep s i c.demand c
    plainResult (if c.v8 = 0 ∧ c.demand = 0 then enterRest s.cl.cfg c else c)
  | .goto => gotoStep s i enc holdFirst c
  | .follow => followStep s i c
  | .override => plainResult (jogStep s i c.demand c)
  | .rejoin => rejoinStep s i c
  | .braking =>
    plainResult (endBraking s
      (if tracks s.su.driveLatch c then tracked (axisCfg s i) enc c else brakeChannel (axisCfg s i) c))
  | .severed => plainResult (tracked (axisCfg s i) enc c)
  | .fault => plainResult (tracked (axisCfg s i) enc c)

/-! ### Stages 4 and 5 (R35, R61, R73) -/

/-- The drive setpoint output and, for a lens axis, the lens-end flag decided after it. -/
def outputStage (s : State) (i : Axis) (lensClamped : Bool) (c : AxisChannel) : AxisChannel :=
  let out := outputOf c.p8
  { c with output := out, lensEnd := isLens s i && (lensClamped || outsideSpan (activeMap s i) out) }

/-- The clamp flag of a FOLLOW or GOTO axis is reported to the pace unit (R31, R61). -/
def reportClamp (c : AxisChannel) (s : State) : State :=
  if c.state = .follow ∨ c.state = .goto then
    s.setPu { s.pu with clampReport := s.pu.clampReport || c.clampFlag }
  else s

/-- An arrival is reported to the take controller (R46). -/
def reportArrival (i : Axis) (c : AxisChannel) (s : State) : State :=
  if c.ctrl = .take then checkArrivals (s.setTc { s.tc with arrivals := s.tc.arrivals.set i true }) else s

/-- Stages 3 to 5 of an update. -/
def finishUpdate (i : Axis) (enc : Option Int) (holdFirst : Bool) (s : State) : State :=
  let r := setpointStage s i enc holdFirst (axisCh s i)
  let s := if r.begun then changeover i s else s
  let c := outputStage s i r.lensClamped r.ch
  let s := reportClamp c (setChannel i c s)
  if r.arrived then reportArrival i c s else s

/-- The channel after stages 1 and 2, and the state with a fault taken (R32, R33). -/
def checkStages (i : Axis) (enc : Option Int) (s : State) : State :=
  let a := axisCfg s i
  let c := axisCh s i
  let c' := { takeEncoder a enc c with followCount := followAfter a s.su.driveLatch c enc }
  let s' := s.setAx { s.ax with ch := s.ax.ch.set i c' }
  if lossReaches a c enc then enterFault i false s'
  else if followReaches a s.su.driveLatch c enc then enterFault i true s'
  else s'

/-- The whole update of a configured channel (R31). -/
def updateAxis (i : Axis) (words : List (BitVec 40)) (holdFirst : Bool) (s : State) : State :=
  let enc := latestPosition words
  finishUpdate i enc holdFirst (checkStages i enc s)

/-- An update of axis i is made: the channel is configured, and START has ended (R30, R31). -/
def updates (s : State) (i : Axis) : Bool := running s && (axisCh s i).state != .disabled

/-- SERVO_UPDATE (R31). -/
def servoUpdateEffect (i : Axis) (words : List (BitVec 40)) (holdFirst : Bool) (s : State) : State :=
  if updates s i then updateAxis i words holdFirst s else s

/-- FOLLOWING_FAULT: the update at which the following counter reaches FE_count (R33). -/
def followingFaultEffect (i : Axis) (words : List (BitVec 40)) (s : State) : State :=
  if updates s i ∧ followReaches (axisCfg s i) s.su.driveLatch (axisCh s i) (latestPosition words) then
    updateAxis i words false s
  else s

/-- ENCODER_FAULT: the update at which the loss count reaches E (R32). -/
def encoderFaultEffect (i : Axis) (words : List (BitVec 40)) (s : State) : State :=
  if updates s i ∧ lossReaches (axisCfg s i) (axisCh s i) (latestPosition words) then
    updateAxis i words false s
  else s

/-! ### The meanings

One per row of the command table; no command of this block stops, but for a contradictory FRAME_ARRIVES. -/

/-- SERVO_UPDATE: the row's whole effect is `servoUpdateEffect`. -/
def execServoUpdate (i : Axis) (words : List (BitVec 40)) (holdFirst : Bool) (s : State) :
    Host.Outcome State Fault Refusal :=
  .next (servoUpdateEffect i words holdFirst s)

/-- FOLLOWING_FAULT: the row's whole effect is `followingFaultEffect`. -/
def execFollowingFault (i : Axis) (words : List (BitVec 40)) (s : State) : Host.Outcome State Fault Refusal :=
  .next (followingFaultEffect i words s)

/-- ENCODER_FAULT: the row's whole effect is `encoderFaultEffect`. -/
def execEncoderFault (i : Axis) (words : List (BitVec 40)) (s : State) : Host.Outcome State Fault Refusal :=
  .next (encoderFaultEffect i words s)

end Sys2Proof.Machine
end

