-- ==== Sys2Proof/Machine/Pace.lean ====
section
/-! DEFINITION. The pace unit (chapters 7 and 9): the pace step, the alignment window, the marker record,
RESUME and MASTER-RATE. -/

namespace Sys2Proof.Machine

/-! ### The pace step (R141, R147) -/

/-- The strain ceiling after the reports gathered since the last pace step (R145). -/
def strainAfter (reported : Bool) (k : Nat) : Nat :=
  if reported then max 128 (k - 16) else min 1024 (k + 1)

/-- The pace unit changes an input of the local ceiling, which is formed again when the input has changed
(R138, R139). -/
def reform (changed : Bool) (s : State) : State := if changed then announce s else s

/-- The cue-level term and the strain ceiling at a pace step (R130, R145).  DESIGN CHOICE: the cue-level term is
taken before the strain ceiling (log entry 51). -/
def updateCeilings (cueLow : Bool) (s : State) : State :=
  let term := cueTermOf s.cl.cfg.cueMode cueLow
  let changed := decide (term ≠ s.pu.cueTerm)
  let s := s.setFd { s.fd with cueLow := if s.cl.cfg.cueMode = .none then s.fd.cueLow else cueLow }
  let s := reform changed (s.setPu { s.pu with cueTerm := term })
  let k := strainAfter s.pu.clampReport s.pu.strain
  let changed := decide (k ≠ s.pu.strain)
  reform changed (s.setPu { s.pu with strain := k, clampReport := false })

/-- The path rate of this pace step (R127, R141, R142). -/
def stepRate (s : State) : Nat :=
  match s.tc.mode with
  | .playing => if s.fd.sectionWait then 0 else slew s.cl.cfg s.pu.r (rateTarget s)
  | .recording => 1024
  | _ => 0

/-- An advance and the slices left after it (R113, R116): `adv` is r·p, above 0. -/
def sliceAdvance (adv : Nat) (slices : List Int) : Int × List Int :=
  match slices with
  | [] => (adv, [])
  | x :: rest => if -(adv : Int) ≤ x then (adv + x, rest) else (0, (x + adv) :: rest)

/-- The pace unit with T advanced at rate r, stopped at a hold point (R113, R116, R127).  DESIGN CHOICE: a hold
point that T has already passed is reached too, at rate 0 as well, and T is set back to it (log entry 46). -/
def advanceTake (r period : Nat) (hold : Option TakeTime) (pu : PaceUnit) : PaceUnit :=
  let a := if r = 0 then (0, pu.slices) else sliceAdvance (r * period) pu.slices
  match hold with
  | some h =>
    if tdiff h pu.t ≤ a.1 then { pu with t := h, r := 0 }
    else { pu with t := tadd pu.t a.1, r := r, slices := a.2 }
  | none => { pu with t := tadd pu.t a.1, r := r, slices := a.2 }

/-- The move clock at a pace step (R147). -/
def advanceMove (cfg : NodeConfig) (target : Nat) (pu : PaceUnit) : PaceUnit :=
  let rm := slew cfg pu.rm target
  { pu with rm := rm, tm := tadd pu.tm (rm * cfg.servoPeriod : Nat) }

/-- The report of a zero rate after a publication in PLAYING (R111, R143). -/
def reportZeroRate (published : Bool) (s : State) : State :=
  if published ∧ s.tc.mode = .playing then
    if wrapPending s then returnToIdle s
    else if s.su.effective = .hold then setMode .held s
    else s
  else s

/-- The pose that the recorder samples (R85). -/
def encoderPose (s : State) : Table Int 3 :=
  Table.ofFn fun i => if configured s i then toUnits s i (axisCh s i).lastValid else 0

/-- The recorder takes a publication: it samples the next keyframe at or past its instant, and a full store
ends the recording (R85, R87, R112). -/
def recordPublication (s : State) : State :=
  match s.tc.ctx with
  | none => s
  | some c =>
    let e := entryOf s c.take
    if s.tc.mode = .recording ∧ s.ts.taintTrip = none ∧ e.state = .recording ∧
        0 ≤ tdiff s.pu.t (keyframeTime e.count e.interval) then
      match sampleKeyframe c.take (encoderPose s) s.ts with
      | some ts => s.setTs ts
      | none => returnToIdle (s.setTs (closeRecording s.cl.cfg.axisCount c.take .storeFull s.ts))
    else s

/-- The feeder and the recorder take a publication (R85, R132). -/
def publish (s : State) : State := recordPublication (takePublication s.fd.queue.length s)

/-- The publication of a pace step: the strain ceiling, the target, the slew, the advance of T and Tm (R141,
R145, R147). -/
def publishClocks (cueLow : Bool) (s : State) : State :=
  let s := updateCeilings cueLow s
  let cfg := s.cl.cfg
  let hold := if inPlay s.tc.mode then holdPoint s.fd else none
  let pu := advanceTake (stepRate s) cfg.servoPeriod hold s.pu
  s.setPu (advanceMove cfg (moveTarget s) pu)

/-- The servo updates that are taken before the retirement at the published T: each is a whole SERVO_UPDATE
(R31, R50). -/
def earlyUpdates (us : List EarlyUpdate) (s : State) : State :=
  us.foldl (fun s u => servoUpdateEffect u.axis u.encoderWords u.holdEndFirst s) s

/-- PACE_STEP: the publication, the servo updates that are taken before it is, then the reports (R50, R141,
R143).  `order` says which they are, and whether the take controller takes the zero-rate report before the
feeder takes the publication: the spec allows either. -/
def paceStepEffect (cueLow : Bool) (order : PaceOrder) (s : State) : State :=
  if running s then
    let p := publishClocks cueLow s
    let zero := decide (s.tc.mode = .playing) && p.pu.r == 0
    let u := earlyUpdates order.updates p
    if order.reportFirst then publish (reportZeroRate zero u) else reportZeroRate zero (publish u)
  else s

/-! ### PACE frames (R139) -/

/-- PACE_PERIOD_EXPIRY (R139). -/
def pacePeriodExpiryEffect (s : State) : State :=
  if pacesIn s.tc.mode ∧ s.pu.paceTimer ≠ none then handPace s else s

/-! ### RESUME and MASTER-RATE (R144, R146) -/

/-- A RESUME is picked. -/
def pickResume : CommandBody → Option Unit
  | .resume => some ()
  | _ => none

/-- RESUME (R144). -/
def resumeEffect (s : State) : State :=
  withCommand pickResume noEarly
    (fun c _ s =>
      if s.tc.mode ≠ .held then refuse c .busy s
      else if s.su.effective ≠ .none then refuse c .stopped s
      else answerDone c (setMode .playing s)) s

/-- A MASTER-RATE is picked. -/
def pickMasterRate : CommandBody → Option Nat
  | .masterRate v => some v
  | _ => none

/-- MASTER_RATE (R146).  DESIGN CHOICE: the PACE frame of a changed ceiling is handed over before the ANSWER
(log entry 44). -/
def masterRateEffect (s : State) : State :=
  withCommand pickMasterRate noEarly
    (fun c v s =>
      answerClamped c (decide (1024 < v)) (announce (s.setPu { s.pu with master := min 1024 v }))) s

/-! ### Tempo alignment (R115, R116) -/

/-- The shift of a window (R115). -/
def shiftOf (sum : Int) (count : Nat) : Int := clampInt (-2048) 2048 (rndDiv sum (2 * count))

/-- ALIGNMENT_WINDOW_END (R115). -/
def alignmentWindowEndEffect (s : State) : State :=
  if inPlay s.tc.mode ∧ s.pu.alignTimer ≠ none then
    let pu := { s.pu with offsetSum := 0, offsetCount := 0, alignTimer := some s.cl.cfg.alignWindow }
    if s.pu.offsetCount = 0 then s.setPu pu
    else if s.pu.slices ≠ [] then countAlignSkip (s.setPu pu)
    else
      let shift := shiftOf s.pu.offsetSum s.pu.offsetCount
      s.setPu (if shift.natAbs < 16 then pu else { pu with slices := slicesOf shift })
  else s

/-! ### The marker record (R117) -/

/-- The marker record after an edge that it captures (R117). -/
def captureMarker (seq : BitVec 16) (pu : PaceUnit) : PaceUnit :=
  match pu.marker with
  | none => { pu with marker := some { time := pu.t, seq := seq } }
  | some _ => { pu with markerOverrun := true }

/-- MARKER_EDGE: a falling edge of the marker input (R117).  DESIGN CHOICE: in PLAYING without a segment in play
the roll's start sequence is captured (log entry 49). -/
def markerEdgeEffect (s : State) : State :=
  if running s then
    let s := s.setPu { s.pu with markLow := true }
    match s.tc.mode with
    | .recording => s.setPu (captureMarker 0 s.pu)
    | .playing => s.setPu (captureMarker (seqInPlay s.fd) s.pu)
    | _ => s
  else s

/-- A QUERY of MARKER is picked. -/
def pickQueryMarker : CommandBody → Option Unit
  | .query subject _ => if subject = 1 then some () else none
  | _ => none

/-- QUERY_MARKER: the marker record is reported and emptied as one event (R117). -/
def queryMarkerEffect (s : State) : State :=
  withCommand pickQueryMarker noEarly
    (fun c _ s =>
      handOver (.markerReport { tag := c.tag, capture := s.pu.marker, overrun := s.pu.markerOverrun })
        (s.setPu { s.pu with marker := none, markerOverrun := false })) s

/-! ### The meanings

One per row of the command table; no command of this block stops, but for a contradictory FRAME_ARRIVES. -/

/-- RESUME: the row's whole effect is `resumeEffect`. -/
def execResume (s : State) : Host.Outcome State Fault Refusal :=
  .next (resumeEffect s)

/-- MASTER_RATE: the row's whole effect is `masterRateEffect`. -/
def execMasterRate (s : State) : Host.Outcome State Fault Refusal :=
  .next (masterRateEffect s)

/-- QUERY_MARKER: the row's whole effect is `queryMarkerEffect`. -/
def execQueryMarker (s : State) : Host.Outcome State Fault Refusal :=
  .next (queryMarkerEffect s)

/-- PACE_PERIOD_EXPIRY: the row's whole effect is `pacePeriodExpiryEffect`. -/
def execPacePeriodExpiry (s : State) : Host.Outcome State Fault Refusal :=
  .next (pacePeriodExpiryEffect s)

/-- ALIGNMENT_WINDOW_END: the row's whole effect is `alignmentWindowEndEffect`. -/
def execAlignmentWindowEnd (s : State) : Host.Outcome State Fault Refusal :=
  .next (alignmentWindowEndEffect s)

/-- PACE_STEP: the row's whole effect is `paceStepEffect`. -/
def execPaceStep (cueLow : Bool) (order : PaceOrder) (s : State) : Host.Outcome State Fault Refusal :=
  .next (paceStepEffect cueLow order s)

/-- MARKER_EDGE: the row's whole effect is `markerEdgeEffect`. -/
def execMarkerEdge (s : State) : Host.Outcome State Fault Refusal :=
  .next (markerEdgeEffect s)

end Sys2Proof.Machine
end

