-- ==== Sys2Proof/Machine/Peers.lean ====
section
/-! DEFINITION. The peer table's events (chapter 2): PACE and STATE frames, silence, the state period, and
the end of the mismatch grace. -/

namespace Sys2Proof.Machine

/-- The peer table with the entry of station n replaced. -/
def setPeer (n : Station) (e : PeerEntry) (s : State) : State :=
  s.setPt { s.pt with entries := s.pt.entries.set n e }

/-! ### PACE (R26, R114) -/

/-- What a PACE frame writes into its sender's entry (R26); a SILENT entry is frozen (R18, log entry
12).  DESIGN CHOICE: a frame that arrived before the node entered ROLLING and is taken after it writes its
ceiling too, by the first sentence of R26 (log entry 70). -/
def recordPace (f : PaceFields) (e : PeerEntry) : PeerEntry :=
  if e.liveness = .silent then e
  else { e with lastT := f.time, rate := min 1024 f.rate.toNat, ceiling := min 1024 f.ceiling.toNat }

/-- The conditions under which the pace unit forms an offset (R114). -/
def formsOffset (s : State) (e : RxEntry) : Bool :=
  !e.own && isParticipant s e.sender && (peer s e.sender).mode == .playing && s.tc.mode == .playing &&
    s.pu.alignTimer.isSome

/-- The accumulators with one offset added (R114). -/
def addOffset (offset : Int) (pu : PaceUnit) : PaceUnit :=
  { pu with offsetSum := pu.offsetSum + offset, offsetCount := pu.offsetCount + 1 }

/-- PACE: the peer table records it and the pace unit adds its offset (R26, R114). -/
def paceEffect (s : State) : State :=
  match takeOffer (fun p => p.kind == .pace) s with
  | some (e, s) =>
    match e.payload with
    | .pace f =>
      let s := setPeer e.sender (recordPace f (peer s e.sender)) s
      if formsOffset s e then s.setPu (addOffset (tdiff f.time e.mark.time) s.pu) else s
    | _ => s
  | none => s

/-! ### STATE (R25, R110, R164) -/

/-- The fields that a STATE frame writes into its sender's entry, none when the role, the mode or the
roll result has no meaning (R25, R187). -/
def recordState (f : StateFields) (e : PeerEntry) : Option PeerEntry :=
  match roleOf f.role, modeOf f.mode with
  | some role, some mode =>
    if rollResultMeaningful f.result f.cancelCause then
      some { e with
        role := role, mode := mode, cls := clsOf f.cls, take := f.take, stamp := f.stamp,
        signature := f.signature, ready := f.ready,
        result := { result := f.result, cause := f.cancelCause, refusal := f.refusal, station := f.causeStation },
        roll := f.roll, seq := f.seq }
    else none
  | _, _ => none

/-- The peer table takes a STATE frame; a SILENT entry is frozen (log entry 12). -/
def peerTakesState (n : Station) (f : StateFields) (s : State) : State :=
  match recordState f (peer s n) with
  | none => countMalformed s
  | some e => if (peer s n).liveness = .silent then s else setPeer n e s

/-- An entry of the receive queue may write the stop table: it is not the node's own, and its originator
is not frozen (R164). -/
def writesStopTable (s : State) (e : RxEntry) : Bool :=
  !e.own && e.sender != s.cl.station && (peer s e.sender).liveness != .silent

/-- The trip time of a stop-table entry written by a frame (R170). -/
def frameTrip (s : State) (e : RxEntry) (time : TakeTime) (flag : Bool) : TakeTime :=
  if flag && isParticipant s e.sender then time else e.mark.time

/-- The stop unit takes the class and the take time of a frame (R164). -/
def stopTakes (e : RxEntry) (cls : BitVec 2) (time : TakeTime) (flag : Bool) (s : State) : State :=
  if writesStopTable s e then
    writeStopEntry e.sender { cls := clsOf cls, time := time, timeFlag := flag } (frameTrip s e time flag) s
  else s

/-- The take controller takes a STATE frame: after the grace, one from a participant brings an examination
(R110). -/
def examineOnState (n : Station) (s : State) : State :=
  if s.tc.grace = .over ∧ isParticipant s n then examineMismatch s else s

/-- STATE: the peer table, the stop unit and the take controller take it (R25, R164, R110). -/
def stateEffect (s : State) : State :=
  match takeOffer (fun p => p.kind == .state) s with
  | some (e, s) =>
    match e.payload with
    | .state f =>
      examineOnState e.sender
        (stopTakes e f.summary f.stopTime f.timeFlag (peerTakesState e.sender f s))
    | _ => s
  | none => s

/-! ### Silence (R20, R22) -/

/-- The axes controlled by station n are released (R22). -/
def releaseAxesOf (n : Station) (s : State) : State :=
  allAxes.foldl (fun s i => if (axisCh s i).ctrl = .console n then releaseAxis i s else s) s

/-- A bulk transfer of station n ends (R96, R97). -/
def bulkSilent (n : Station) (s : State) : State :=
  match s.ts.bulk with
  | .load _ m _ => if m = n then abandonBulk s else s
  | .readOut _ m _ _ _ _ => if m = n then abandonBulk s else s
  | .none => s

/-- The stop unit takes the report of a silent station (R20, R171). -/
def stopTakesSilence (n : Station) (watched : Bool) (s : State) : State :=
  if watched then raiseKey (.peerSilent n) .halt s else s

/-- The take controller takes the report of a silent station (R108). -/
def takeControllerTakesSilence (n : Station) (s : State) : State :=
  if s.tc.mode = .rolling ∧ isParticipant s n then cancelRoll (.participantAbsent n) s else s

/-- SILENCE_EXPIRY: a LIVE entry becomes SILENT and the blocks take the report (R20, R22, R96, R97, R108,
R171).  The operands say which of the stop unit and the take controller acts first, and whether the axis
channels act before them: the spec allows either (R108). -/
def silenceExpiryEffect (n : Station) (takeControllerFirst axesFirst : Bool) (s : State) : State :=
  let e := peer s n
  if running s ∧ e.liveness = .live ∧ e.silence ≠ none then
    let watched := watchesPeers s.tc.mode && isParticipant s n
    let s := setPeer n { e with liveness := .silent, silence := none } s
    let s := bulkSilent n (if axesFirst then releaseAxesOf n s else s)
    let s :=
      if takeControllerFirst then stopTakesSilence n watched (takeControllerTakesSilence n s)
      else takeControllerTakesSilence n (stopTakesSilence n watched s)
    if axesFirst then s else releaseAxesOf n s
  else s

/-! ### Timers -/

/-- STATE_PERIOD_EXPIRY: a STATE frame is handed over and the timer restarts (R23). -/
def statePeriodExpiryEffect (s : State) : State :=
  if s.pt.stateTimer ≠ none then handState s else s

/-- MISMATCH_GRACE_END: the grace ends and the participants are examined (R110). -/
def mismatchGraceEndEffect (s : State) : State :=
  match s.tc.grace with
  | .running _ => examineMismatch (s.setTc { s.tc with grace := .over })
  | _ => s

/-! ### The meanings

One per row of the command table; no command of this block stops, but for a contradictory FRAME_ARRIVES. -/

/-- PACE: the row's whole effect is `paceEffect`. -/
def execPace (s : State) : Host.Outcome State Fault Refusal :=
  .next (paceEffect s)

/-- STATE: the row's whole effect is `stateEffect`. -/
def execState (s : State) : Host.Outcome State Fault Refusal :=
  .next (stateEffect s)

/-- SILENCE_EXPIRY: the row's whole effect is `silenceExpiryEffect`. -/
def execSilenceExpiry (n : Station) (takeControllerFirst axesFirst : Bool) (s : State) : Host.Outcome State Fault Refusal :=
  .next (silenceExpiryEffect n takeControllerFirst axesFirst s)

/-- STATE_PERIOD_EXPIRY: the row's whole effect is `statePeriodExpiryEffect`. -/
def execStatePeriodExpiry (s : State) : Host.Outcome State Fault Refusal :=
  .next (statePeriodExpiryEffect s)

/-- MISMATCH_GRACE_END: the row's whole effect is `mismatchGraceEndEffect`. -/
def execMismatchGraceEnd (s : State) : Host.Outcome State Fault Refusal :=
  .next (mismatchGraceEndEffect s)

end Sys2Proof.Machine
end

