-- ==== Sys2Proof/Machine/Punch.lean ====
section
/-! DEFINITION. Punch-in, punch-out and the punch writer (chapter 12). -/

namespace Sys2Proof.Machine

/-- A PUNCH-IN is picked: axis and record flag. -/
def pickPunchIn : CommandBody → Option (Nat × Bool)
  | .punchIn a r => some (a, r)
  | _ => none

/-- The checks of R176, in their order: the axis, or the refusal of the first that fails. -/
def punchInCheck (number : Nat) (s : State) : Except (Reason × Detail) Axis :=
  if s.tc.mode ≠ .playing then .error (.busy, {})
  else
    match namedAxis s number with
    | none => .error (.notController, { name := .disabled })
    | some i =>
      if (axisCh s i).state ≠ .follow then
        .error (.notController, { name := .axisState (axisCh s i).state })
      else if s.su.effective ≠ .none then .error (.stopped, {})
      else if !s.su.driveLatch then .error (.stopped, { name := .driveOff })
      else .ok i

/-- The cued take is tainted. -/
def cuedTainted (s : State) : Bool :=
  match s.tc.ctx with
  | none => false
  | some c => (entryOf s c.take).taint.isSome

/-- The punch record of an accepted PUNCH-IN (R176). -/
def newPunch (sender : Station) (i : Axis) (writing : Bool) (s : State) : PunchRecord :=
  { ident := s.ax.nextPunch, axis := i, console := sender,
    take := (s.tc.ctx.map PlayContext.take).getD 0, writing := writing, lastWritten := none,
    counted := false, ended := false }

/-- An accepted PUNCH-IN (R176). -/
def punchIn (sender : Station) (i : Axis) (writing : Bool) (s : State) : State :=
  let s := setChannel i
    { axisCh s i with state := .override, ctrl := .console sender, demand := 0, jogTimer := none } s
  s.setAx { s.ax with
    punches := s.ax.punches ++ [newPunch sender i writing s], nextPunch := s.ax.nextPunch + 1 }

/-- PUNCH_IN (R176). -/
def punchInEffect (s : State) : State :=
  withCommand pickPunchIn noEarly
    (fun c x s =>
      match punchInCheck x.1 s with
      | .error (r, d) => refuseWith c r d s
      | .ok i =>
        let noRecord := x.2 && cuedTainted s
        answer c .done { name := if noRecord then .noRecord else .none }
          (punchIn c.sender i (x.2 && !cuedTainted s) s)) s

/-- A PUNCH-OUT is picked. -/
def pickPunchOut : CommandBody → Option Nat
  | .punchOut a => some a
  | _ => none

/-- PUNCH_OUT (R179).  In HALTED the axis has left OVERRIDE, and NOT-CONTROLLER is the refusal (R181, log
entry 37). -/
def punchOutEffect (s : State) : State :=
  withCommand pickPunchOut noEarly
    (fun c number s =>
      if !inPlay s.tc.mode && s.tc.mode != .halted then refuse c .busy s
      else
        match namedAxis s number with
        | none => refuseWith c .notController { name := .disabled } s
        | some i =>
          if s.tc.mode = .halted ∨ (axisCh s i).state ≠ .override ∨ (axisCh s i).ctrl ≠ .console c.sender then
            refuse c .notController s
          else answerDone c (punchOutAxis i s)) s

/-! ### The punch writer (R178) -/

/-- The position of one axis of keyframe k is replaced. -/
def setAxisPosition (slot : Slot) (k : Nat) (i : Axis) (p : Int) (ts : TakeStore) : TakeStore :=
  let kf := readKeyframe ts slot k
  writeKeyframe slot k (kf.set i { kf.get i with pos := p }) ts

/-- The edit count rises at the first write of a punch (R90, R178). -/
def countPunch (p : PunchRecord) (ts : TakeStore) : TakeStore :=
  if p.counted then ts
  else setEntry p.take { ts.dir.get p.take with editCount := (ts.dir.get p.take).editCount + 1 } ts

/-- The write of one sample (R178, steps 1 to 3). -/
def writeSample (p : PunchRecord) (x : PunchSample) (ts : TakeStore) : TakeStore :=
  let b := x.keyframe
  let ts := setAxisPosition p.take b p.axis x.pos ts
  let ts :=
    if 2 ≤ b then
      setAxisVelocity p.take (b - 1) p.axis
        (centralVelocity (axisPosition ts p.take (b - 2) p.axis) (axisPosition ts p.take b p.axis)
          (ts.dir.get p.take).interval) ts
    else ts
  countPunch p ts

/-- The first waiting sample leaves the row, written when its slot is STORED, untainted and holds its keyframe (R89,
log entry 14). -/
def writeFirstSample (x : PunchSample) (rest : List PunchSample) (s : State) : State :=
  let s' := s.setAx { s.ax with samples := rest }
  match s.ax.punches.find? fun p => p.ident == x.ident with
  | none => s'
  | some p =>
    if punchTarget s.ts p.take x.keyframe then
      (s'.setTs (writeSample p x s.ts)).setAx { s'.ax with
        punches := s.ax.punches.map fun q =>
          if q.ident = x.ident then { q with lastWritten := some x.keyframe, counted := true } else q }
    else s'

/-- PUNCH_WRITE: the store port grants the punch writer (R98, R178). -/
def punchWriteEffect (s : State) : State :=
  if running s ∧ !feederWants s ∧ !recorderWants s then
    match s.ax.samples with
    | [] => s
    | x :: rest => settlePunches (writeFirstSample x rest s)
  else s

/-! ### The meanings

One per row of the command table; no command of this block stops, but for a contradictory FRAME_ARRIVES. -/

/-- PUNCH_IN: the row's whole effect is `punchInEffect`. -/
def execPunchIn (s : State) : Host.Outcome State Fault Refusal :=
  .next (punchInEffect s)

/-- PUNCH_OUT: the row's whole effect is `punchOutEffect`. -/
def execPunchOut (s : State) : Host.Outcome State Fault Refusal :=
  .next (punchOutEffect s)

/-- PUNCH_WRITE: the row's whole effect is `punchWriteEffect`. -/
def execPunchWrite (s : State) : Host.Outcome State Fault Refusal :=
  .next (punchWriteEffect s)

end Sys2Proof.Machine
end

