-- ==== Sys2Proof/Machine/Image.lean ====
section
/-! DEFINITION. The configuration image: its fields, the clamping of R183, the layout of R190, and what
the maps, axes, zones and station number become at the end of START (R48, R79, R160, R183, R184). -/

namespace Sys2Proof.Machine

/-! ### Reading bytes (R183, R186) -/

/-- The byte at an offset.  A memory that does not answer reads as 0xFF (R183). -/
def imageByte (image : List (BitVec 8)) (offset : Nat) : Nat := (image.getD offset 0xFF).toNat

/-- A 16-bit field, most significant byte first (R186; log entry 7). -/
def imageWord (image : List (BitVec 8)) (offset : Nat) : Nat :=
  256 * imageByte image offset + imageByte image (offset + 1)

/-- A 32-bit field, unsigned. -/
def imageLong (image : List (BitVec 8)) (offset : Nat) : Nat :=
  65536 * imageWord image offset + imageWord image (offset + 2)

/-- A 32-bit field, two's complement (R186). -/
def imageSigned (image : List (BitVec 8)) (offset : Nat) : Int :=
  (BitVec.ofNat 32 (imageLong image offset)).toInt

/-- The signature of a good image (R183). -/
def signatureGood (image : List (BitVec 8)) : Bool := imageByte image 0 == 0x5C

/-! ### Codes (R190): a code above the defined ones takes the highest -/

/-- The kind of an axis by its code. -/
def imageKind (code : Nat) : AxisKind :=
  match code with
  | 0 => .arm | 1 => .focus | 2 => .iris | _ => .zoom

/-- The action of a zone by its code. -/
def imageAction (code : Nat) : ZoneAction :=
  match code with
  | 0 => .scale | 1 => .hold | 2 => .halt | _ => .sever

/-- The cue input mode by its code. -/
def imageCueMode (code : Nat) : CueInputMode :=
  match code with
  | 0 => .none | 1 => .advanceEdge | _ => .runLevel

/-! ### Records (R190) -/

/-- The guard input described by one byte; a filter length of 0 is taken as 1 (R150). -/
def imageInput (image : List (BitVec 8)) (i : Input) : InputConfig :=
  let b := BitVec.ofNat 8 (imageByte image (0x020 + i.val))
  { mode := if b.getLsbD 7 then .edge else .level, activeHigh := b.getLsbD 6,
    filterLength := max 1 (b.extractLsb' 0 4).toNat }

/-- The zone described by six bytes (R190).  DESIGN CHOICE: bit i of its input mask names guard input i (log entry
65). -/
def imageZone (image : List (BitVec 8)) (z : Zone) : ZoneConfig :=
  let o := 0x028 + 6 * z.val
  let flags := BitVec.ofNat 8 (imageByte image (o + 2))
  { mask := BitVec.ofNat 8 (imageByte image o), action := imageAction (imageByte image (o + 1)),
    ceiling := min 1024 (imageWord image (o + 4)), ackLatch := flags.getLsbD 1,
    armedAtReset := flags.getLsbD 0 }

/-- The lower travel limit: clamped to at most 134,217,726 (R183). -/
def imageLower (v : Int) : Int := clampInt (-134217728) 134217726 v

/-- The upper travel limit; Smin + 1 when Smin is not below it (R183). -/
def imageUpper (smin v : Int) : Int :=
  let u := clampInt (-134217728) 134217727 v
  if smin < u then u else smin + 1

/-- The default map of a lens axis, its points clamped; 0 points when it is not valid (R79). -/
def imageMap (image : List (BitVec 8)) (i : Axis) (kind : AxisKind) (smin smax : Int) : LensMap :=
  let o := 0x0C4 + 98 * i.val
  let points := (List.range (min 16 (imageWord image o))).map fun k =>
    { unit := clampUnit kind (imageWord image (o + 2 + 6 * k)),
      count := clampInt smin smax (imageSigned image (o + 4 + 6 * k)) : LensPoint }
  if kind.isLens && mapValid points then points else []

/-- The axis described by 36 bytes, with its default map and the constants of R57. -/
def imageAxis (image : List (BitVec 8)) (period : Nat) (i : Axis) : AxisConfig :=
  let o := 0x058 + 36 * i.val
  let kind := imageKind (imageByte image o)
  let smin := imageLower (imageSigned image (o + 4))
  let smax := imageUpper smin (imageSigned image (o + 8))
  deriveAxis
    { kind := kind, feCount := clampNat 1 255 (imageByte image (o + 1)),
      lossLimit := clampNat 1 15 (imageByte image (o + 2)), smin := smin, smax := smax,
      vmax := clampNat 4 8388607 (imageLong image (o + 12)),
      amax := clampNat 1 100000000 (imageLong image (o + 16)),
      ahalt := clampNat 1 100000000 (imageLong image (o + 20)),
      followLimit := clampNat 0 134217727 (imageLong image (o + 24)),
      arrivalWindow := clampNat 0 134217727 (imageLong image (o + 28)),
      closureWindow := clampNat 0 134217727 (imageLong image (o + 32)),
      vmax8 := 1, amax8 := 1, ahalt8 := 1, defaultMap := imageMap image i kind smin smax } period

/-- The configuration of an image with a good signature (R183, R190). -/
def imageConfig (image : List (BitVec 8)) : NodeConfig :=
  let period := clampNat 1 2 (imageByte image 4)
  let const := fun (k : Nat) => imageWord image (0x00A + 2 * k)
  { valid := true, fastLine := imageByte image 3 != 0, servoPeriod := period,
    axisCount := min 3 (imageByte image 5), cueMode := imageCueMode (imageByte image 6),
    permitted := BitVec.ofNat 16 (imageWord image 8), idleRelease := clampNat 500 10000 (const 0),
    jogTimeout := clampNat 20 200 (const 1), silenceLimit := clampNat 10 100 (const 2),
    statePeriod := clampNat 4 20 (const 3), pacePeriod := clampNat 2 10 (const 4),
    rise := clampNat 1 16 (const 5), fall := clampNat 1 64 (const 6),
    rollWindow := clampNat 10 100 (const 7), alignWindow := clampNat 50 500 (const 8),
    taintSpan := clampNat 0 2000 (const 9), rejoinTime := clampNat 100 2000 (const 10),
    inputs := Table.ofFn (imageInput image), zones := Table.ofFn (imageZone image),
    axes := Table.ofFn (imageAxis image period) }

/-- The configuration that the loader settles: the image's, or that of an UNCONFIGURED node (R183,
R184). -/
def loadConfig (image : List (BitVec 8)) : NodeConfig :=
  if signatureGood image then imageConfig image else NodeConfig.unconfigured

/-- The station number that the loader settles: the image's, or the strap pins' (R183, R184). -/
def loadStation (image : List (BitVec 8)) (straps : BitVec 4) : Station :=
  if signatureGood image then ⟨min 15 (imageByte image 1), by omega⟩ else straps.toFin

/-! ### What the blocks hold at the end of START -/

/-- A channel at the end of START: a configured one as R48 gives, any other DISABLED. -/
def startChannel (cfg : NodeConfig) (i : Axis) : AxisChannel :=
  if i.val < cfg.axisCount then
    { AxisChannel.disabled with
      state := .rest, p8 := 256 * clampInt (cfg.axes.get i).smin (cfg.axes.get i).smax 0 }
  else AxisChannel.disabled

/-- The maps of an axis once its kind is settled (R79). -/
def startMaps (cfg : NodeConfig) (i : Axis) (m : LensChannel) : LensChannel :=
  let kind := (cfg.axes.get i).kind
  if i.val < cfg.axisCount && kind.isLens then
    { LensChannel.empty with
      active := if m.heldKind = some kind then m.active else (cfg.axes.get i).defaultMap,
      heldKind := some kind }
  else LensChannel.empty

/-- The zones at the end of START (R160). -/
def startZones (cfg : NodeConfig) : Table ZoneRecord 8 :=
  Table.ofFn fun z => { ZoneRecord.reset with armed := (cfg.zones.get z).armedAtReset }

end Sys2Proof.Machine
end

