-- ==== Sys2Proof/Machine/Resets.lean ====
section
/-! DEFINITION. The two resets, the end of START, and the RESET frame (sections 13.1 and 13.2, and the
reset rule of each chapter). -/

namespace Sys2Proof.Machine

/-! ### What a station reset keeps -/

/-- The directory and the free-block list after a station reset: STORED entries whole, every other
EMPTY, and free what no STORED take holds (R99). -/
def resetStore (ts : TakeStore) : TakeStore :=
  let dir := ts.dir.map fun e => if e.state = .stored then e else TakeEntry.empty
  { TakeStore.reset with
    dir := dir, pool := ts.pool,
    free := allBlocks.filter fun b => dir.rows.all fun e => !e.blocks.contains b }

/-- The maps of an axis after a station reset, until the kind is settled: a pending map becomes the
active one (R79). -/
def resetMaps (m : LensChannel) : LensChannel :=
  { LensChannel.empty with active := m.pending.getD m.active, heldKind := m.heldKind }

/-- A station reset (R182, and the reset rule of each chapter). -/
def stationReset (s : State) : State :=
  { State.reset with
    lmu := s.lmu.map resetMaps, ts := resetStore s.ts, cl := { Loader.reset with pinLow := s.cl.pinLow },
    pending := s.pending }

/-! ### The commands -/

/-- POWER_ON_RESET (R182): every block takes its power-on values.  The reset pin is as it was. -/
def powerOnResetEffect (s : State) : State :=
  { State.reset with cl := { Loader.reset with pinLow := s.cl.pinLow }, pending := s.pending }

/-- STATION_RESET: a low level at the reset pin (R182). -/
def stationResetEffect (s : State) : State :=
  let s := stationReset s
  s.setCl { s.cl with pinLow := true }

/-- RESET_PIN_RELEASE: the reset pin returns high (R182). -/
def resetPinReleaseEffect (s : State) : State := s.setCl { s.cl with pinLow := false }

/-- END_OF_START: the loader has finished with the image (R183, R184, R185).  It needs the mode START and
a reset pin that is high (R182). -/
def endOfStartEffect (image : List (BitVec 8)) (pins : StartPins) (s : State) : State :=
  if s.tc.mode = .start ∧ !s.cl.pinLow then
    let cfg := loadConfig image
    let s := s.setCl { s.cl with station := loadStation image pins.straps, cfg := cfg }
    let s := s.setAx { AxisBlock.reset with ch := Table.ofFn (startChannel cfg) }
    let s := s.setLmu (Table.ofFn fun i => startMaps cfg i (s.lmu.get i))
    let s := s.setGu { s.gu with zones := startZones cfg }
    let s := s.setSu { s.su with loopClosed := pins.loopClosed }
    let s := s.setFd { s.fd with cueLow := pins.cueLow }
    let s := s.setPu
      { s.pu with markLow := pins.markLow,
                  cueTerm := if cfg.cueMode = .runLevel ∧ !pins.cueLow then 0 else 1024 }
    setMode (if cfg.valid then .idle else .unconfigured) s
  else s

/-- A RESET is picked. -/
def pickReset : CommandBody → Option Unit
  | .reset => some ()
  | _ => none

/-- RESET: a station reset by a frame, without an answer (R15, R182). -/
def resetEffect (s : State) : State := withCommand pickReset noEarly (fun _ _ s => stationReset s) s

/-! ### The meanings

One per row of the command table; no command of this block stops, but for a contradictory FRAME_ARRIVES. -/

/-- POWER_ON_RESET: the row's whole effect is `powerOnResetEffect`. -/
def execPowerOnReset (s : State) : Host.Outcome State Fault Refusal :=
  .next (powerOnResetEffect s)

/-- STATION_RESET: the row's whole effect is `stationResetEffect`. -/
def execStationReset (s : State) : Host.Outcome State Fault Refusal :=
  .next (stationResetEffect s)

/-- END_OF_START: the row's whole effect is `endOfStartEffect`. -/
def execEndOfStart (image : List (BitVec 8)) (pins : StartPins) (s : State) : Host.Outcome State Fault Refusal :=
  .next (endOfStartEffect image pins s)

/-- RESET: the row's whole effect is `resetEffect`. -/
def execReset (s : State) : Host.Outcome State Fault Refusal :=
  .next (resetEffect s)

/-- RESET_PIN_RELEASE: the row's whole effect is `resetPinReleaseEffect`. -/
def execResetPinRelease (s : State) : Host.Outcome State Fault Refusal :=
  .next (resetPinReleaseEffect s)

end Sys2Proof.Machine
end

