-- ==== Sys2Proof/Machine/Takes.lean ====
section
/-! DEFINITION. The take store's commands and store port accesses (chapter 6): edits, directory queries,
read-out, load, the recorder and the taint. -/

namespace Sys2Proof.Machine

/-! ### Edits (R90) -/

/-- The first two checks of an edit (R90): the slot, or the reason. -/
def editSlot (s : State) (number : Nat) : Except Reason Slot :=
  match slotOf number with
  | none => .error .noTake
  | some slot =>
    if (entryOf s slot).state ≠ .stored then .error .noTake
    else if takeInUse s slot then .error .takeInUse
    else .ok slot

/-- An accepted edit of an entry: the signature is recomputed and the edit count rises (R90). -/
def editedEntry (e : TakeEntry) : TakeEntry :=
  { e with signature := editSignature e.marks e.cues, editCount := e.editCount + 1 }

/-- The entry of a slot after an accepted edit that changes it by f (R90). -/
def editEntry (slot : Slot) (f : TakeEntry → TakeEntry) (ts : TakeStore) : TakeStore :=
  setEntry slot (editedEntry (f (ts.dir.get slot))) ts

/-- A refusal for an invalid mark. -/
def markInvalid (c : Command) (name : DetailName) (number : Option Nat) (s : State) : State :=
  refuseWith c .markInvalid { name := name, number := number } s

/-! ### MARK and UNMARK (R91, R92) -/

/-- The distance in counts between an axis's positions in two keyframes, none for a lens axis without a
map (R91). -/
def closureDistance (s : State) (slot : Slot) (a b : Nat) (i : Axis) : Option Nat :=
  let p := axisPosition s.ts slot a i
  let q := axisPosition s.ts slot b i
  if (axisCfg s i).kind.isLens then
    if (activeMap s i).isEmpty then none
    else some ((forward (activeMap s i) p).1 - (forward (activeMap s i) q).1).natAbs
  else some (p - q).natAbs

/-- The closure check of two keyframes over the configured axes, in channel order (R91, R103): the first
axis that fails, with its reason.  DESIGN CHOICE: among several axes that fail the first channel is named (log
entry 39). -/
def closureFailure (s : State) (slot : Slot) (a b : Nat) : Option (Axis × Bool) :=
  (allAxes.filter (configured s)).findSome? fun i =>
    match closureDistance s slot a b i with
    | none => some (i, true)
    | some d => if (axisCfg s i).closureWindow < (d : Int) then some (i, false) else none

/-- The marks other than the one in a slot, with their slots. -/
def otherMarks (e : TakeEntry) (slot : Nat) : List (Mark × Nat) :=
  (usedMarks e.marks).filter fun x => x.2 != slot

/-- The checks 2 to 6 of R91, in their order: the refusal of the first that fails.  DESIGN CHOICE: among several
marks that fail a check the lowest slot is named (log entry 39). -/
def markRefusal (s : State) (slot : Slot) (number : Nat) (m : Mark) : Option (Reason × Detail) :=
  let e := entryOf s slot
  let others := otherMarks e number
  if ¬ (m.start < m.stop ∧ m.stop < e.count) then some (.markInvalid, { name := .range })
  else
    match closureFailure s slot m.start m.stop with
    | some (i, true) => some (.mapAbsent, { number := some i.val })
    | some (i, false) => some (.markInvalid, { name := .closure, number := some i.val })
    | none =>
      match others.find? fun x => x.1.stop == m.stop with
      | some x => some (.markInvalid, { name := .sharedEnd, number := some x.2 })
      | none =>
        match others.find? fun x => !marksCompatible x.1 m with
        | some x => some (.markInvalid, { name := .overlap, number := some x.2 })
        | none =>
          if depthAllowed (m :: others.map Prod.fst) then none else some (.markInvalid, { name := .depth })

/-- A MARK is picked: take, slot and mark. -/
def pickMark : CommandBody → Option (Nat × Nat × Mark)
  | .mark t k a b n => some (t, k, { start := a, stop := b, count := n })
  | _ => none

/-- MARK (R91). -/
def markEffect (s : State) : State :=
  withCommand pickMark noEarly
    (fun c x s =>
      match editSlot s x.1 with
      | .error r => refuse c r s
      | .ok slot =>
        if h : x.2.1 < 8 then
          match markRefusal s slot x.2.1 x.2.2 with
          | some (r, d) => refuseWith c r d s
          | none =>
            answerDone c (s.setTs (editEntry slot
              (fun e => { e with marks := e.marks.set ⟨x.2.1, h⟩ (some x.2.2) }) s.ts))
        else markInvalid c .slot none s) s

/-- An UNMARK is picked: take and slot. -/
def pickUnmark : CommandBody → Option (Nat × Nat)
  | .unmark t k => some (t, k)
  | _ => none

/-- UNMARK (R92). -/
def unmarkEffect (s : State) : State :=
  withCommand pickUnmark noEarly
    (fun c x s =>
      match editSlot s x.1 with
      | .error r => refuse c r s
      | .ok slot =>
        if h : x.2 < 8 then
          if ((entryOf s slot).marks.get ⟨x.2, h⟩).isNone then answerDone c s
          else
            answerDone c (s.setTs (editEntry slot
              (fun e => { e with marks := e.marks.set ⟨x.2, h⟩ none }) s.ts))
        else markInvalid c .slot none s) s

/-! ### CUE-POINTS, TRIM and DELETE (R92 to R94) -/

/-- A CUE-POINTS is picked: take and list. -/
def pickCuePoints : CommandBody → Option (Nat × List Nat)
  | .cuePoints t ps => some (t, ps)
  | _ => none

/-- CUE_POINTS (R92). -/
def cuePointsEffect (s : State) : State :=
  withCommand pickCuePoints noEarly
    (fun c x s =>
      match editSlot s x.1 with
      | .error r => refuse c r s
      | .ok slot =>
        match firstBadCue ((entryOf s slot).count - 1) 0 0 x.2 with
        | some k => markInvalid c .cuePoints (some k) s
        | none => answerDone c (s.setTs (editEntry slot (fun e => { e with cues := x.2 }) s.ts))) s

/-- A TRIM is picked: take and new last keyframe. -/
def pickTrim : CommandBody → Option (Nat × Nat)
  | .trim t l => some (t, l)
  | _ => none

/-- The four steps of an accepted TRIM (R93), and what every edit does. -/
def trimTake (axisCount : Nat) (slot : Slot) (last : Nat) (ts : TakeStore) : TakeStore :=
  editEntry slot (fun e => { e with cues := e.cues.filter (· ≤ last) })
    (giveEnd axisCount slot last (cutKeyframes slot last ts))

/-- TRIM (R93).  DESIGN CHOICE: among several marks that end beyond L the lowest slot is named (log entry
39). -/
def trimEffect (s : State) : State :=
  withCommand pickTrim noEarly
    (fun c x s =>
      match editSlot s x.1 with
      | .error r => refuse c r s
      | .ok slot =>
        let e := entryOf s slot
        if ¬ (1 ≤ x.2 ∧ x.2 < e.count) then markInvalid c .range none s
        else
          match (usedMarks e.marks).find? fun m => x.2 < m.1.stop with
          | some m => markInvalid c .trim (some m.2) s
          | none => answerDone c (s.setTs (trimTake s.cl.cfg.axisCount slot x.2 s.ts))) s

/-- A DELETE is picked. -/
def pickDelete : CommandBody → Option Nat
  | .delete t => some t
  | _ => none

/-- DELETE (R94). -/
def deleteEffect (s : State) : State :=
  withCommand pickDelete noEarly
    (fun c number s =>
      match editSlot s number with
      | .error r => refuse c r s
      | .ok slot => answerDone c (s.setTs (emptyEntry slot s.ts))) s

/-! ### QUERY of DIRECTORY (R95) -/

/-- A QUERY of DIRECTORY is picked. -/
def pickQueryDirectory : CommandBody → Option (BitVec 8)
  | .query subject low => if subject = 3 then some low else none
  | _ => none

/-- The mask of the used mark slots. -/
def usedSlots (marks : Table (Option Mark) 8) : BitVec 8 :=
  (usedMarks marks).foldl (fun m x => m ||| (1#8 <<< x.2)) 0

/-- The report of a directory entry (R95). -/
def directoryReport (c : Command) (e : TakeEntry) (s : State) : Payload :=
  .directoryEntry
    { tag := c.tag, state := e.state, stamp := e.stamp, mask := e.mask, interval := e.interval,
      count := e.count, signature := e.signature, editCount := e.editCount, taint := e.taint,
      endCause := e.endCause, marks := usedSlots e.marks, cuePoints := e.cues.length,
      freeBlocks := s.ts.free.length }

/-- QUERY_DIRECTORY (R95). -/
def queryDirectoryEffect (s : State) : State :=
  withCommand pickQueryDirectory noEarly
    (fun c low s =>
      match slotOf low.toNat with
      | none => refuse c .noTake s
      | some slot => handOver (directoryReport c (entryOf s slot) s) s) s

/-! ### Read-out (R96) -/

/-- The mode is IDLE and no bulk transfer is in progress. -/
def bulkFree (s : State) : Bool := s.tc.mode == .idle && !bulkOpen s

/-- A TAKE-READ is picked: take, first keyframe and count. -/
def pickTakeRead : CommandBody → Option (Nat × Nat × Nat)
  | .takeRead t f n => some (t, f, n)
  | _ => none

/-- A range is cut at the last keyframe (R96). -/
def rangeCut (count first n : Nat) : Bool := decide (count < first + n) || decide (count ≤ first)

/-- The read-out opens on the range, cut at the last keyframe; with nothing to send it is over (R96). -/
def openReadOut (slot : Slot) (console : Station) (first n : Nat) (s : State) : State :=
  let stop := min (first + n) (entryOf s slot).count
  if first < stop then
    s.setTs { s.ts with bulk := .readOut slot console first stop s.lc.nextSerial [] }
  else s

/-- TAKE_READ (R96). -/
def takeReadEffect (s : State) : State :=
  withCommand pickTakeRead noEarly
    (fun c x s =>
      if !bulkFree s then refuse c .busy s
      else
        match slotOf x.1 with
        | none => refuse c .noTake s
        | some slot =>
          if (entryOf s slot).state ≠ .stored then refuse c .noTake s
          else
            openReadOut slot c.sender x.2.1 x.2.2
              (answerClamped c (rangeCut (entryOf s slot).count x.2.1 x.2.2) s)) s

/-- The frame of a keyframe (R96). -/
def keyframeFrame (slot : Slot) (k : Nat) (kf : Keyframe) : KeyframeFields :=
  { take := BitVec.ofNat 8 (takeNumber slot), index := BitVec.ofNat 16 k,
    axes := kf.map fun f => { pos := BitVec.ofInt 32 f.pos, vel := BitVec.ofInt 32 f.vel } }

/-- The read-out as it goes on, over once its last frame has been handed over. -/
def readOutAfter (slot : Slot) (console : Station) (next stop since : Nat) (held : List KeyframeFields) :
    BulkTransfer :=
  if next < stop ∨ held ≠ [] then .readOut slot console next stop since held else .none

/-- The oldest work of the bulk-transfer client is the read-out's fetch (R98). -/
def fetchOldest (s : State) (since : Nat) : Bool :=
  s.lc.rxq.all (fun e => !needsPort e.payload || decide (since ≤ e.serial)) &&
    s.tc.cues.all (fun w => decide (since < w.since))

/-- READOUT_FETCH: a fetch completes, and its frame is handed over or held back (R13, R96). -/
def readoutFetchEffect (s : State) : State :=
  match s.ts.bulk with
  | .readOut slot console next stop since held =>
    if running s ∧ next < stop ∧ portFreeForBulk s ∧ fetchOldest s since then
      let f := keyframeFrame slot next (readKeyframe s.ts slot next)
      let fits := held.isEmpty && readoutFits s
      let held' := if fits then held else held ++ [f]
      let s' := s.setTs
        { s.ts with bulk := readOutAfter slot console (next + 1) stop s.lc.nextSerial held' }
      if fits then handOver (.keyframeData f) s' else s'
    else s
  | _ => s

/-- READOUT_REOFFER: the first held-back frame is handed over once it fits (R13). -/
def readoutReofferEffect (s : State) : State :=
  match s.ts.bulk with
  | .readOut slot console next stop since (f :: rest) =>
    if running s ∧ readoutFits s then
      handOver (.keyframeData f)
        (s.setTs { s.ts with bulk := readOutAfter slot console next stop since rest })
    else s
  | _ => s

/-! ### Load (R97) -/

/-- A TAKE-LOAD-BEGIN is picked: take, stamp, mask, interval and count. -/
def pickLoadBegin : CommandBody → Option (Nat × BitVec 32 × BitVec 16 × Nat × Nat)
  | .takeLoadBegin t st m i n => some (t, st, m, i, n)
  | _ => none

/-- The interval clamped into its range (R84, R97). -/
def clampInterval (i : Nat) : Nat := clampNat 10 250 i

/-- The load opens: blocks lowest first, and the entry RECORDING (R97). -/
def openLoad (slot : Slot) (loader : Station) (stamp : BitVec 32) (mask : BitVec 16) (interval n : Nat)
    (ts : TakeStore) : TakeStore :=
  let ts := setEntry slot { TakeEntry.empty with
    state := .recording, stamp := stamp, mask := mask, interval := clampInterval interval, count := n } ts
  { allocateBlocks slot (ceilDiv n 128) ts with bulk := .load slot loader [] }

/-- TAKE_LOAD_BEGIN (R97). -/
def takeLoadBeginEffect (s : State) : State :=
  withCommand pickLoadBegin noEarly
    (fun c (number, stamp, mask, interval, n) s =>
      if !bulkFree s then refuse c .busy s
      else
        match slotOf number with
        | none => refuse c .noTake s
        | some slot =>
          if (entryOf s slot).state ≠ .empty then refuse c .takeOccupied s
          else if n < 1 ∨ 8192 < n then markInvalid c .range none s
          else if s.ts.free.length < ceilDiv n 128 then refuse c .storeFull s
          else
            answerClamped c (clampInterval interval != interval)
              (s.setTs (openLoad slot c.sender stamp mask interval n s.ts))) s

/-- An index inserted into the list of written ones at its place, once. -/
def insertWritten (k : Nat) : List Nat → List Nat
  | [] => [k]
  | x :: rest => if k < x then k :: x :: rest else if k = x then x :: rest else x :: insertWritten k rest

/-- A loaded axis field: the ranges of Table 2, and zeros for a channel that is not configured (R97). -/
def loadField (s : State) (i : Axis) (w : AxisWords) : AxisField :=
  if configured s i then
    { pos := if (axisCfg s i).kind.isLens then clampInt 0 65535 w.pos.toInt
             else clampInt (-134217728) 134217727 w.pos.toInt,
      vel := satVel w.vel.toInt }
  else { pos := 0, vel := 0 }

/-- A KEYFRAME-DATA frame of the open load writes its keyframe; any other is ignored (R97). -/
def loadKeyframe (sender : Station) (f : KeyframeFields) (s : State) : State :=
  match s.ts.bulk with
  | .load slot loader written =>
    if sender = loader ∧ f.take.toNat = takeNumber slot ∧ f.index.toNat < (entryOf s slot).count then
      let ts := writeKeyframe slot f.index.toNat (Table.ofFn fun i => loadField s i (f.axes.get i)) s.ts
      s.setTs { ts with bulk := .load slot loader (insertWritten f.index.toNat written) }
    else s
  | _ => s

/-- KEYFRAME_DATA (R97). -/
def keyframeDataEffect (s : State) : State :=
  match takeOffer (fun p => p.kind == .keyframeData) s with
  | some (e, s) =>
    match e.payload with
    | .keyframeData f => loadKeyframe e.sender f s
    | _ => s
  | none => s

/-- A TAKE-LOAD-END is picked. -/
def pickLoadEnd : CommandBody → Option Nat
  | .takeLoadEnd t => some t
  | _ => none

/-- The load is stored (R97). -/
def storeLoad (slot : Slot) (ts : TakeStore) : TakeStore :=
  { setEntry slot
      { ts.dir.get slot with state := .stored, endCause := some .load, signature := 0, editCount := 0,
                             taint := none } ts with bulk := .none }

/-- The lowest index below n that is not written. -/
def lowestMissing (n : Nat) (written : List Nat) : Option Nat :=
  (List.range n).find? fun k => !written.contains k

/-- TAKE_LOAD_END (R97). -/
def takeLoadEndEffect (s : State) : State :=
  withCommand pickLoadEnd noEarly
    (fun c number s =>
      match s.ts.bulk with
      | .load slot loader written =>
        if c.sender ≠ loader ∨ number ≠ takeNumber slot then refuseWith c .busy { name := .noLoad } s
        else
          match lowestMissing (entryOf s slot).count written with
          | some k => refuseWith c .busy { name := .missing, number := some k } s
          | none => answerDone c (s.setTs (storeLoad slot s.ts))
      | _ => refuseWith c .busy { name := .noLoad } s) s

/-! ### The recorder and the taint (R85, R86, R89) -/

/-- RECORDER_WRITE: the store port grants the recorder, and its oldest waiting sample is written with the
velocity of the keyframe before it (R86, R98). -/
def recorderWriteEffect (s : State) : State :=
  match s.tc.ctx, s.ts.waiting with
  | some c, x :: rest =>
    if running s ∧ !feederWants s then
      s.setTs { recordSample s.cl.cfg.axisCount c.take x s.ts with waiting := rest }
    else s
  | _, _ => s

/-- TAINT: the store port grants the recorder the taint that a rise of the class asked for, and the station
goes to IDLE (R89, R98, R112). -/
def taintEffect (s : State) : State :=
  match s.tc.ctx, s.ts.taintTrip with
  | some c, some trip =>
    if s.tc.mode = .recording ∧ !feederWants s then
      returnToIdle (s.setTs (taintRecording s.cl.cfg.axisCount s.cl.cfg.taintSpan c.take trip s.ts))
    else s
  | _, _ => s

/-! ### The meanings

One per row of the command table; no command of this block stops, but for a contradictory FRAME_ARRIVES. -/

/-- READOUT_REOFFER: the row's whole effect is `readoutReofferEffect`. -/
def execReadoutReoffer (s : State) : Host.Outcome State Fault Refusal :=
  .next (readoutReofferEffect s)

/-- MARK: the row's whole effect is `markEffect`. -/
def execMark (s : State) : Host.Outcome State Fault Refusal :=
  .next (markEffect s)

/-- UNMARK: the row's whole effect is `unmarkEffect`. -/
def execUnmark (s : State) : Host.Outcome State Fault Refusal :=
  .next (unmarkEffect s)

/-- CUE_POINTS: the row's whole effect is `cuePointsEffect`. -/
def execCuePoints (s : State) : Host.Outcome State Fault Refusal :=
  .next (cuePointsEffect s)

/-- TRIM: the row's whole effect is `trimEffect`. -/
def execTrim (s : State) : Host.Outcome State Fault Refusal :=
  .next (trimEffect s)

/-- DELETE: the row's whole effect is `deleteEffect`. -/
def execDelete (s : State) : Host.Outcome State Fault Refusal :=
  .next (deleteEffect s)

/-- QUERY_DIRECTORY: the row's whole effect is `queryDirectoryEffect`. -/
def execQueryDirectory (s : State) : Host.Outcome State Fault Refusal :=
  .next (queryDirectoryEffect s)

/-- TAKE_READ: the row's whole effect is `takeReadEffect`. -/
def execTakeRead (s : State) : Host.Outcome State Fault Refusal :=
  .next (takeReadEffect s)

/-- TAKE_LOAD_BEGIN: the row's whole effect is `takeLoadBeginEffect`. -/
def execTakeLoadBegin (s : State) : Host.Outcome State Fault Refusal :=
  .next (takeLoadBeginEffect s)

/-- TAKE_LOAD_END: the row's whole effect is `takeLoadEndEffect`. -/
def execTakeLoadEnd (s : State) : Host.Outcome State Fault Refusal :=
  .next (takeLoadEndEffect s)

/-- KEYFRAME_DATA: the row's whole effect is `keyframeDataEffect`. -/
def execKeyframeData (s : State) : Host.Outcome State Fault Refusal :=
  .next (keyframeDataEffect s)

/-- RECORDER_WRITE: the row's whole effect is `recorderWriteEffect`. -/
def execRecorderWrite (s : State) : Host.Outcome State Fault Refusal :=
  .next (recorderWriteEffect s)

/-- READOUT_FETCH: the row's whole effect is `readoutFetchEffect`. -/
def execReadoutFetch (s : State) : Host.Outcome State Fault Refusal :=
  .next (readoutFetchEffect s)

/-- TAINT: the row's whole effect is `taintEffect`. -/
def execTaint (s : State) : Host.Outcome State Fault Refusal :=
  .next (taintEffect s)

end Sys2Proof.Machine
end

