-- ==== Sys2Proof/Machine/Rolls.lean ====
section
/-! DEFINITION. The take controller's commands and events (chapter 7): ARM-RECORD, CUE, WRAP, the roll and
its window. -/

namespace Sys2Proof.Machine

/-! ### ARM-RECORD (R84, R102) -/

/-- An ARM-RECORD is picked: take, stamp, mask, interval and overwrite flag. -/
def pickArmRecord : CommandBody → Option (Nat × BitVec 32 × BitVec 16 × Nat × Bool)
  | .armRecord t st m i o => some (t, st, m, i, o)
  | _ => none

/-- The first configured lens axis whose active map has 0 points (R78). -/
def unmappedAxis (s : State) : Option Axis := allAxes.find? fun i => isLens s i && (activeMap s i).isEmpty

/-- The blocks that would be available to an arming (R84). -/
def blocksForArm (s : State) (slot : Slot) : Nat :=
  s.ts.free.length + (if (entryOf s slot).state = .stored then (entryOf s slot).blocks.length else 0)

/-- The slot may be armed: EMPTY, or STORED under the overwrite flag. -/
def armable (e : TakeEntry) (overwrite : Bool) : Bool :=
  e.state == .empty || (e.state == .stored && overwrite)

/-- The checks of R102 and R84, in their order: the slot, or the refusal of the first that fails. -/
def armCheck (number : Nat) (overwrite : Bool) (s : State) : Except (Reason × Detail) Slot :=
  if !bulkFree s then .error (.busy, {})
  else
    match slotOf number with
    | none => .error (.noTake, {})
    | some slot =>
      if !armable (entryOf s slot) overwrite then .error (.takeOccupied, {})
      else
        match unmappedAxis s with
        | some i => .error (.mapAbsent, { number := some i.val })
        | none => if blocksForArm s slot = 0 then .error (.storeFull, {}) else .ok slot

/-- The slot is prepared for a recording (R84). -/
def armSlot (slot : Slot) (stamp : BitVec 32) (mask : BitVec 16) (interval : Nat) (ts : TakeStore) : TakeStore :=
  let ts := emptyEntry slot ts
  let ts := (allocateBlock slot ts).getD ts
  setEntry slot { TakeEntry.empty with
    state := .armed, stamp := stamp, mask := mask, interval := clampInterval interval,
    blocks := (ts.dir.get slot).blocks } ts

/-- The play context of an armed recording (R101, R102). -/
def armContext (slot : Slot) (stamp : BitVec 32) (mask : BitVec 16) : PlayContext :=
  { take := slot, mode := .record, startKeyframe := 0, mask := mask, stamp := stamp, signature := 0,
    startTime := 0, roll := none, recovery := false, restartSeq := none, pendingRestart := none,
    haltSeq := none, wrapPending := false }

/-- ARM_RECORD (R102).  A station outside the frame's mask ignores it.  DESIGN CHOICE: the STATE frame of the
change of mode is handed over before the ANSWER (log entry 44). -/
def armRecordEffect (s : State) : State :=
  withCommand pickArmRecord
    (fun _ (_, _, mask, _, _) s => if inMask mask s.cl.station then none else some s)
    (fun c (number, stamp, mask, interval, overwrite) s =>
      match armCheck number overwrite s with
      | .error (r, d) => refuseWith c r d s
      | .ok slot =>
        let s := s.setTs (armSlot slot stamp mask interval s.ts)
        let s := s.setTc { s.tc with ctx := some (armContext slot stamp mask) }
        answerClamped c (clampInterval interval != interval) (setMode .armed s)) s

/-! ### CUE (R103, R104) -/

/-- A CUE is picked: take, stamp, mode, cue point and duration. -/
def pickCue : CommandBody → Option (Nat × BitVec 32 × CueMode × Option Nat × Nat)
  | .cue t st m p d => some (t, st, m, p, d)
  | _ => none

/-- The station ignores the CUE: its entry is STORED with the station's own bit clear (R103). -/
def ignoresCue (s : State) (number : Nat) : Bool :=
  match slotOf number with
  | none => false
  | some slot => (entryOf s slot).state == .stored && !inMask (entryOf s slot).mask s.cl.station

/-- The start keyframe: 0, or what the named cue point holds, none when there is no such cue point below
the last keyframe (R103, check 5). -/
def cueStart (e : TakeEntry) (point : Option Nat) : Option Nat :=
  match point with
  | none => some 0
  | some k => e.cues[k]?.filter fun b => b + 1 < e.count

/-- The lowest slot whose mark holds a keyframe strictly inside (R103, check 7).  DESIGN CHOICE: of several such
marks the lowest slot is named (log entry 39). -/
def markAround (e : TakeEntry) (k : Nat) : Option Nat :=
  ((usedMarks e.marks).find? fun x => x.1.start < k && k < x.1.stop).map Prod.snd

/-- The checks of R103, in their order: the slot and the start keyframe, or the refusal. -/
def cueCheck (number : Nat) (stamp : BitVec 32) (mode : CueMode) (point : Option Nat) (s : State) :
    Except (Reason × Detail) (Slot × Nat) :=
  if !bulkFree s then .error (.busy, {})
  else
    match slotOf number with
    | none => .error (.noTake, {})
    | some slot =>
      let e := entryOf s slot
      if e.state ≠ .stored then .error (.noTake, {})
      else if e.stamp ≠ stamp then .error (.noTake, { name := .stamp })
      else if e.count < 2 then .error (.notPlayable, {})
      else
        match cueStart e point with
        | none => .error (.notPlayable, { name := .cuePoint })
        | some start =>
          match unmappedAxis s with
          | some i => .error (.mapAbsent, { number := some i.val })
          | none =>
            match markAround e start with
            | some k => .error (.insideMark, { number := some k })
            | none =>
              match if mode = .loop then closureFailure s slot 0 (e.count - 1) else none with
              | some (i, _) => .error (.notClosed, { number := some i.val })
              | none => if s.su.effective ≠ .none then .error (.stopped, {}) else .ok (slot, start)

/-- The play mode of a cue mode. -/
def playModeOf : CueMode → PlayMode
  | .once => .once
  | .loop => .loop
  | .step => .step

/-- The play context of a cue (R101). -/
def cueContext (slot : Slot) (mode : CueMode) (start : Nat) (e : TakeEntry) : PlayContext :=
  { take := slot, mode := playModeOf mode, startKeyframe := start, mask := e.mask, stamp := e.stamp,
    signature := e.signature, startTime := keyframeTime start e.interval, roll := none, recovery := false,
    restartSeq := none, pendingRestart := none, haltSeq := none, wrapPending := false }

/-- The pose of a keyframe, in axis units. -/
def keyframePose (ts : TakeStore) (slot : Slot) (k : Nat) (i : Axis) : Int := axisPosition ts slot k i

/-- An accepted CUE (R104): the play context, CUEING, and the positioning of R44.  DESIGN CHOICE: the mode changes
before the axes enter GOTO, so the STATE frame of CUEING shows the axis states from before the move (log entry
61). -/
def cueTake (slot : Slot) (mode : CueMode) (start duration : Nat) (s : State) : State :=
  let s := s.setTc { s.tc with ctx := some (cueContext slot mode start (entryOf s slot)) }
  checkArrivals (positionToPose (keyframePose s.ts slot start) duration (setMode .cueing s))

/-- A CUE meets the checks of R103, and is refused or taken up (R104).  DESIGN CHOICE: the STATE frame of the
change of mode is handed over before the ANSWER (log entry 44). -/
def checkCue (c : Command) (number : Nat) (stamp : BitVec 32) (mode : CueMode) (point : Option Nat)
    (duration : Nat) (s : State) : State :=
  match cueCheck number stamp mode point s with
  | .error (r, d) => refuseWith c r d s
  | .ok (slot, start) =>
    answerClamped c (poseClamps (keyframePose s.ts slot start) s) (cueTake slot mode start duration s)

/-- The keyframe reads of a CUE taken now wait for the store port: another client has a request pending, or the
bulk-transfer client has older work (R98).  A CUE that check 1 refuses reads none. -/
def cueMustWait (s : State) : Bool :=
  bulkFree s && !(portFreeForBulk s && s.lc.rxq.all (fun e => !needsPort e.payload) && s.tc.cues.isEmpty)

/-- A CUE that has been taken waits for the store port. -/
def holdCue (c : Command) (number : Nat) (stamp : BitVec 32) (mode : CueMode) (point : Option Nat)
    (duration : Nat) (s : State) : State :=
  s.setTc { s.tc with cues := s.tc.cues ++
    [{ sender := c.sender, target := c.target, tag := c.tag, number := number, stamp := stamp, mode := mode,
       point := point, duration := duration, since := s.lc.nextSerial }] }

/-- The store port grants the reads of a waiting CUE: no other client has a request pending, and nothing of the
bulk-transfer client's work is older (R98). -/
def cueGranted (s : State) (w : WaitingCue) : Bool :=
  running s && portFreeForBulk s &&
    s.lc.rxq.all (fun e => !needsPort e.payload || decide (w.since ≤ e.serial)) &&
    (fetchSince s).all (fun n => decide (w.since ≤ n))

/-- The command of a waiting CUE. -/
def WaitingCue.command (w : WaitingCue) : Command :=
  { sender := w.sender, target := w.target, tag := w.tag, kind := .cue }

/-- The oldest waiting CUE meets the checks of R103 once the store port grants its reads. -/
def grantCue (s : State) : State :=
  match s.tc.cues with
  | [] => s
  | w :: rest =>
    if cueGranted s w then
      checkCue w.command w.number w.stamp w.mode w.point w.duration (s.setTc { s.tc with cues := rest })
    else s

/-- CUE (R11, R103, R104).  The take controller takes it at once.  DESIGN CHOICE: while its keyframe reads wait
for the store port the frame is out of the receive queue, later frames of the take controller pass it, and a
further event of this row, with no CUE to take, is the grant, at which all checks of R103 are made (log entry
43). -/
def cueEffect (s : State) : State :=
  if (takeOffer (picksCommand pickCue) s).isNone then grantCue s
  else
    withCommand pickCue
      (fun _ x s => if ignoresCue s x.1 then some s else none)
      (fun c (number, stamp, mode, point, duration) s =>
        if cueMustWait s then holdCue c number stamp mode point duration s
        else checkCue c number stamp mode point duration s) s

/-! ### WRAP (R88, R111, R181) -/

/-- A WRAP is picked. -/
def pickWrap : CommandBody → Option Unit
  | .wrap => some ()
  | _ => none

/-- The final keyframe of a recording is sampled and the take is stored (R88). -/
def wrapRecording (c : PlayContext) (s : State) : State :=
  match sampleKeyframe c.take (encoderPose s) s.ts with
  | some ts => s.setTs (closeRecording s.cl.cfg.axisCount c.take .wrap ts)
  | none => s.setTs (closeRecording s.cl.cfg.axisCount c.take .storeFull s.ts)

/-- Every punch in progress of an axis in OVERRIDE ends (R181). -/
def endPunches (s : State) : State :=
  allAxes.foldl (fun s i => if (axisCh s i).state = .override then endPunch i s else s) s

/-- WRAP in PLAYING or HELD: WRAP-pending, or IDLE at once at r = 0 (R111, R138, R181).  DESIGN CHOICE: at r = 0
no PACE frame announces the ceiling of WRAP-pending before IDLE (log entry 52); and a WRAP under WRAP-pending
leaves a punch begun since (log entry 53). -/
def wrapPlayback (s : State) : State :=
  if wrapPending s then s
  else
    let s := modContext (fun c => { c with wrapPending := true }) (endPunches s)
    if s.pu.r = 0 then returnToIdle s else announce s

/-- What a WRAP does in each mode (R111).  A recording whose taint waits for the store port has ended:
the WRAP finds nothing to do (R89). -/
def wrapStation (s : State) : State :=
  match s.tc.mode with
  | .start | .unconfigured | .idle => s
  | .rolling =>
    returnToIdle (s.setTc { s.tc with roll := { s.tc.roll with window := none, result := .cancelled .wrap } })
  | .recording =>
    match s.tc.ctx with
    | none => returnToIdle s
    | some c => if s.ts.taintTrip ≠ none then s else returnToIdle (wrapRecording c s)
  | .playing | .held => wrapPlayback s
  | _ => returnToIdle s

/-- WRAP (R111).  DESIGN CHOICE: the frames of what it does are handed over before the ANSWER (log entry 44). -/
def wrapEffect (s : State) : State :=
  withCommand pickWrap noEarly (fun c _ s => answerDone c (wrapStation s)) s

/-! ### ROLL (R105 to R107) -/

/-- The node takes part in the roll (R105). -/
def takesPart (s : State) (number : Nat) : Bool :=
  s.tc.mode != .unconfigured &&
    match slotOf number with
    | none => false
    | some slot => (entryOf s slot).state != .empty && inMask (entryOf s slot).mask s.cl.station

/-- The first check of R106: ready for the roll, with the ready flag last heard from the own STATE, and under no
class above NONE, which the rule's last sentence refuses whatever was heard (DEDUCED, log entry 45). -/
def rollReady (s : State) (mode : RollMode) (f : RollFields) : Bool :=
  match s.tc.ctx with
  | none => false
  | some c =>
    (match mode with
     | .play => s.tc.mode == .ready && !c.recovery
     | .resumeFrom => s.tc.mode == .ready && c.recovery && c.restartSeq == some f.startSeq
     | .record => s.tc.mode == .armed) &&
      slotOf f.take.toNat == some c.take && (peer s s.cl.station).ready && s.su.effective == .none

/-- The checks of R106, in their order: the reason code of the first that fails. -/
def rollRefusal (s : State) (mode : RollMode) (f : RollFields) : Option (BitVec 8) :=
  if !rollReady s mode f then some 0
  else if s.tc.ctx.map PlayContext.stamp ≠ some f.stamp then some 1
  else if mode ≠ .record ∧ s.tc.ctx.map PlayContext.signature ≠ some f.signature then some 2
  else if !presence s then some 3
  else none

/-- A refused ROLL: the roll record keeps the number and the node's own reason (R105). -/
def refuseRoll (number reason : BitVec 8) (s : State) : State :=
  handOver (.rollRefuse number reason)
    (s.setTc { s.tc with
      roll := { s.tc.roll with number := number, result := .cancelled (.refused s.cl.station reason) } })

/-- An accepted ROLL: the answer, the roll record with its window, ROLLING, and the first PACE (R107,
R139).  DESIGN CHOICE: ROLL-ACCEPT, STATE and PACE are handed over in this order (log entry 44). -/
def acceptRoll (mode : RollMode) (f : RollFields) (mark : StartMark) (s : State) : State :=
  let s := handOver (.rollAccept f.number) s
  let s := s.setTc { s.tc with
    roll := { number := f.number, mode := some mode, accepted := 0,
              window := some (mark.instant + 1000 * s.cl.cfg.rollWindow), result := .none,
              startSeq := f.startSeq } }
  handPace (setMode .rolling s)

/-- A ROLL is taken (R105, R187). -/
def takeRoll (f : RollFields) (mark : StartMark) (s : State) : State :=
  match rollModeOf f.mode with
  | none => countMalformed s
  | some mode =>
    if !takesPart s f.take.toNat then s
    else if rollBusy s.tc.mode then handOver (.rollRefuse f.number 4) s
    else
      match rollRefusal s mode f with
      | some reason => refuseRoll f.number reason s
      | none => acceptRoll mode f mark s

/-- ROLL (R105). -/
def rollEffect (s : State) : State :=
  match takeOffer (fun p => p.kind == .roll) s with
  | some (e, s) =>
    match e.payload with
    | .roll f => takeRoll f e.mark s
    | _ => s
  | none => s

/-- The answer is to the open window, from a participant (R107). -/
def answersWindow (s : State) (sender : Station) (number : BitVec 8) : Bool :=
  s.tc.mode == .rolling && s.tc.roll.window.isSome && number == s.tc.roll.number && isParticipant s sender

/-- The set of accepted participants with a station added. -/
def acceptStation (n : Station) (set : BitVec 16) : BitVec 16 := set ||| (1#16 <<< n.val)

/-- ROLL_ACCEPT (R107). -/
def rollAcceptEffect (s : State) : State :=
  match takeOffer (fun p => p.kind == .rollAccept) s with
  | some (e, s) =>
    match e.payload with
    | .rollAccept number =>
      if answersWindow s e.sender number then
        s.setTc { s.tc with
          roll := { s.tc.roll with accepted := acceptStation e.sender s.tc.roll.accepted } }
      else s
    | _ => s
  | none => s

/-- ROLL_REFUSE (R107, R108). -/
def rollRefuseEffect (s : State) : State :=
  match takeOffer (fun p => p.kind == .rollRefuse) s with
  | some (e, s) =>
    match e.payload with
    | .rollRefuse number reason =>
      if answersWindow s e.sender number then cancelRoll (.refused e.sender reason) s else s
    | _ => s
  | none => s

/-! ### The window's end (R109) -/

/-- The lowest-numbered participant that has not accepted. -/
def firstMissing (c : PlayContext) (accepted : BitVec 16) : Option Station :=
  allStations.find? fun n => inMask c.mask n && !inMask accepted n

/-- What every start of a roll does (R109, R110, R145). -/
def beginRoll (c : PlayContext) (s : State) : State :=
  let s := s.setTc { s.tc with
    ctx := some { c with roll := some s.tc.roll.number }, grace := .running (2 * s.cl.cfg.statePeriod),
    roll := { s.tc.roll with window := none, result := .started } }
  s.setPu { s.pu with strain := 1024, offsetSum := 0, offsetCount := 0, slices := [] }

/-- Every configured axis not in FAULT enters FOLLOW (R40). -/
def followAll (s : State) : State :=
  (allAxes.filter fun i => configured s i && (axisCh s i).state != .fault).foldl
    (fun s i => setChannel i { axisCh s i with state := .follow, segment := none, idleTimer := none } s) s

/-- A roll in mode PLAY or RESUME-FROM starts (R40, R109, R174). -/
def startPlayback (resume : Bool) (c : PlayContext) (s : State) : State :=
  let s := s.setPu { s.pu with t := c.startTime, r := 0, alignTimer := some s.cl.cfg.alignWindow }
  let s := if resume then rebuildFeeder c s.tc.roll.startSeq s else beginFeeding c s.tc.roll.startSeq s
  let s := modContext (fun c => { c with recovery := false, restartSeq := none }) (followAll s)
  setMode .playing s

/-- A roll in mode RECORD starts: the entry is RECORDING, T is 0 and keyframe 0 is sampled (R85, R109).  DESIGN
CHOICE: R109 has T published at once for PLAY and RESUME-FROM alone; here the T of 0 counts as published from this
moment too, before the next pace step (log entry 67). -/
def startRecording (c : PlayContext) (s : State) : State :=
  let s := s.setPu { s.pu with t := 0, r := 1024 }
  let ts := setEntry c.take { entryOf s c.take with state := .recording } s.ts
  let ts := (sampleKeyframe c.take (encoderPose s) ts).getD ts
  setMode .recording (s.setTs ts)

/-- The roll starts (R109).  DESIGN CHOICE: the local ceiling is formed for the reset of K after the change of
mode, so that its PACE frame follows the STATE frame, and a record roll hands over none (log entry 50). -/
def startRoll (c : PlayContext) (s : State) : State :=
  let changed := decide (s.pu.strain ≠ 1024)
  let s := beginRoll c s
  reform changed
    (match s.tc.roll.mode with
     | some .record => startRecording c s
     | some .resumeFrom => startPlayback true c s
     | _ => startPlayback false c s)

/-- ROLL_WINDOW_EXPIRY (R109). -/
def rollWindowExpiryEffect (s : State) : State :=
  match s.tc.ctx with
  | none => s
  | some c =>
    if s.tc.mode = .rolling ∧ s.tc.roll.window ≠ none then
      match firstMissing c s.tc.roll.accepted with
      | some n => cancelRoll (.notAccepted n) s
      | none => startRoll c s
    else s

/-! ### The meanings

One per row of the command table; no command of this block stops, but for a contradictory FRAME_ARRIVES. -/

/-- ROLL: the row's whole effect is `rollEffect`. -/
def execRoll (s : State) : Host.Outcome State Fault Refusal :=
  .next (rollEffect s)

/-- ROLL_ACCEPT: the row's whole effect is `rollAcceptEffect`. -/
def execRollAccept (s : State) : Host.Outcome State Fault Refusal :=
  .next (rollAcceptEffect s)

/-- ROLL_REFUSE: the row's whole effect is `rollRefuseEffect`. -/
def execRollRefuse (s : State) : Host.Outcome State Fault Refusal :=
  .next (rollRefuseEffect s)

/-- ROLL_WINDOW_EXPIRY: the row's whole effect is `rollWindowExpiryEffect`. -/
def execRollWindowExpiry (s : State) : Host.Outcome State Fault Refusal :=
  .next (rollWindowExpiryEffect s)

/-- ARM_RECORD: the row's whole effect is `armRecordEffect`. -/
def execArmRecord (s : State) : Host.Outcome State Fault Refusal :=
  .next (armRecordEffect s)

/-- CUE: the row's whole effect is `cueEffect`. -/
def execCue (s : State) : Host.Outcome State Fault Refusal :=
  .next (cueEffect s)

/-- WRAP: the row's whole effect is `wrapEffect`. -/
def execWrap (s : State) : Host.Outcome State Fault Refusal :=
  .next (wrapEffect s)

end Sys2Proof.Machine
end

