-- ==== Sys2Proof/Machine/Stops.lean ====
section
/-! DEFINITION. The stop unit's frames (chapter 11): STOP-CLAIM, STOP-RELEASE, STOP-CLEAR, REARM and
RECOVER. -/

namespace Sys2Proof.Machine

/-! ### STOP-CLAIM and STOP-RELEASE (R25, R164) -/

/-- The peer table takes the effective class of a STOP frame; a SILENT entry is frozen (R25, log entry
12). -/
def peerTakesStop (n : Station) (cls : BitVec 2) (s : State) : State :=
  if (peer s n).liveness = .silent then s else setPeer n { peer s n with cls := clsOf cls } s

/-- The peer table and the stop unit take a STOP frame. -/
def takeStop (e : RxEntry) (f : StopFields) (s : State) : State :=
  stopTakes e f.summary f.time f.timeFlag (peerTakesStop e.sender f.effective s)

/-- STOP_CLAIM (R25, R164). -/
def stopClaimEffect (s : State) : State :=
  match takeOffer (fun p => p.kind == .stopClaim) s with
  | some (e, s) =>
    match e.payload with
    | .stopClaim f => takeStop e f s
    | _ => s
  | none => s

/-- STOP_RELEASE (R25, R164). -/
def stopReleaseEffect (s : State) : State :=
  match takeOffer (fun p => p.kind == .stopRelease) s with
  | some (e, s) =>
    match e.payload with
    | .stopRelease f => takeStop e f s
    | _ => s
  | none => s

/-! ### STOP-CLEAR (R165) -/

/-- A STOP-CLEAR is picked. -/
def pickStopClear : CommandBody → Option Nat
  | .stopClear n => some n
  | _ => none

/-- A silent originator is cleared: its stop-table entry is emptied and its PEER-SILENT released (R165). -/
def clearOriginator (n : Station) (s : State) : State :=
  releaseKey (.peerSilent n) (writeStopEntry n StopEntry.empty s.pu.t s)

/-- STOP-CLEAR of a station (table of R165). -/
def stopClear (c : Command) (n : Station) (s : State) : State :=
  if n = s.cl.station then refuseWith c .originatorLive { name := .own } s
  else
    match (peer s n).liveness with
    | .live => refuse c .originatorLive s
    | .silent => answerDone c (clearOriginator n s)
    | .unknown => answerDone c s

/-- STOP_CLEAR (R165).  An originator above 15 is counted malformed (R187). -/
def stopClearEffect (s : State) : State :=
  withCommand pickStopClear
    (fun _ n s => if n < 16 then none else some (countMalformed s))
    (fun c n s => if h : n < 16 then stopClear c ⟨n, h⟩ s else s) s

/-! ### REARM (R167) -/

/-- A REARM is picked. -/
def pickRearm : CommandBody → Option Unit
  | .rearm => some ()
  | _ => none

/-- REARM (R167).  DESIGN CHOICE: the effective class alone decides, so that a REARM between the opening of the
loop and the next guard sample sets the latch (log entry 56). -/
def rearmEffect (s : State) : State :=
  withCommand pickRearm noEarly
    (fun c _ s =>
      if s.su.effective = .sever then refuse c .stopped s
      else answerDone c (s.setSu { s.su with driveLatch := true })) s

/-! ### RECOVER (R172, R173) -/

/-- A RECOVER is picked. -/
def pickRecover : CommandBody → Option (BitVec 16)
  | .recover n => some n
  | _ => none

/-- The checks 1 to 4 of R172, in their order. -/
def recoverRefusal (n : BitVec 16) (s : State) : Option (Reason × Detail) :=
  let halt := (s.tc.ctx.bind PlayContext.haltSeq).getD 0
  if s.tc.mode ≠ .halted then some (.busy, {})
  else if s.su.effective ≠ .none then some (.stopped, {})
  else if !s.su.driveLatch then some (.stopped, { name := .driveOff })
  else if n ≠ halt ∧ n ≠ halt - 1 then some (.gap, { number := some halt.toNat })
  else none

/-- An accepted RECOVER (R135, R172): the restart entry is kept, and positioning to its start pose begins. -/
def recoverTo (n : BitVec 16) (e : QueueEntry) (s : State) : State :=
  let s := modContext (fun c => { c with pendingRestart := some n }) (keepRestart e s)
  checkArrivals (positionToPose (startPose e) 0 (setMode .recovering s))

/-- RECOVER (R172).  DESIGN CHOICE: the STATE frame of the change of mode is handed over before the ANSWER (log
entry 44). -/
def recoverEffect (s : State) : State :=
  withCommand pickRecover noEarly
    (fun c n s =>
      match recoverRefusal n s with
      | some (r, d) => refuseWith c r d s
      | none =>
        match findEntry s.fd n with
        | none => refuseWith c .gap { name := .unavailable } s
        | some e => answerClamped c (poseClamps (startPose e) s) (recoverTo n e s)) s

/-! ### The meanings

One per row of the command table; no command of this block stops, but for a contradictory FRAME_ARRIVES. -/

/-- STOP_CLAIM: the row's whole effect is `stopClaimEffect`. -/
def execStopClaim (s : State) : Host.Outcome State Fault Refusal :=
  .next (stopClaimEffect s)

/-- STOP_RELEASE: the row's whole effect is `stopReleaseEffect`. -/
def execStopRelease (s : State) : Host.Outcome State Fault Refusal :=
  .next (stopReleaseEffect s)

/-- STOP_CLEAR: the row's whole effect is `stopClearEffect`. -/
def execStopClear (s : State) : Host.Outcome State Fault Refusal :=
  .next (stopClearEffect s)

/-- REARM: the row's whole effect is `rearmEffect`. -/
def execRearm (s : State) : Host.Outcome State Fault Refusal :=
  .next (rearmEffect s)

/-- RECOVER: the row's whole effect is `recoverEffect`. -/
def execRecover (s : State) : Host.Outcome State Fault Refusal :=
  .next (recoverEffect s)

end Sys2Proof.Machine
end

