-- ==== Sys2Proof/Machine/Dispatch.lean ====
section
/-! DEFINITION. One arm per row of the command table: each command's meaning, which changes everything but
the queue of waiting commands (that is `step`'s). -/

namespace Sys2Proof.Machine

def exec (i : Instr) (s : State) : Host.Outcome State Fault Refusal :=
  match i with
  | .powerOnReset => Sys2Proof.Machine.execPowerOnReset s
  | .stationReset => Sys2Proof.Machine.execStationReset s
  | .endOfStart image pins => Sys2Proof.Machine.execEndOfStart image pins s
  | .transmitAttempt won instant => Sys2Proof.Machine.execTransmitAttempt won instant s
  | .frameSentWhole => Sys2Proof.Machine.execFrameSentWhole s
  | .attemptFails => Sys2Proof.Machine.execAttemptFails s
  | .linkLostEntry => Sys2Proof.Machine.execLinkLostEntry s
  | .quietTimeExpiry => Sys2Proof.Machine.execQuietTimeExpiry s
  | .framingViolation line => Sys2Proof.Machine.execFramingViolation line s
  | .frameArrives f => Sys2Proof.Machine.execFrameArrives f s
  | .readoutReoffer => Sys2Proof.Machine.execReadoutReoffer s
  | .stopClaim => Sys2Proof.Machine.execStopClaim s
  | .stopRelease => Sys2Proof.Machine.execStopRelease s
  | .stopClear => Sys2Proof.Machine.execStopClear s
  | .rearm => Sys2Proof.Machine.execRearm s
  | .roll => Sys2Proof.Machine.execRoll s
  | .rollAccept => Sys2Proof.Machine.execRollAccept s
  | .rollRefuse => Sys2Proof.Machine.execRollRefuse s
  | .rollWindowExpiry => Sys2Proof.Machine.execRollWindowExpiry s
  | .armRecord => Sys2Proof.Machine.execArmRecord s
  | .cue => Sys2Proof.Machine.execCue s
  | .wrap => Sys2Proof.Machine.execWrap s
  | .resume => Sys2Proof.Machine.execResume s
  | .recover => Sys2Proof.Machine.execRecover s
  | .brk => Sys2Proof.Machine.execBrk s
  | .advance => Sys2Proof.Machine.execAdvance s
  | .jog => Sys2Proof.Machine.execJog s
  | .goto => Sys2Proof.Machine.execGoto s
  | .controlRelease => Sys2Proof.Machine.execControlRelease s
  | .punchIn => Sys2Proof.Machine.execPunchIn s
  | .punchOut => Sys2Proof.Machine.execPunchOut s
  | .masterRate => Sys2Proof.Machine.execMasterRate s
  | .mark => Sys2Proof.Machine.execMark s
  | .unmark => Sys2Proof.Machine.execUnmark s
  | .cuePoints => Sys2Proof.Machine.execCuePoints s
  | .trim => Sys2Proof.Machine.execTrim s
  | .delete => Sys2Proof.Machine.execDelete s
  | .lensPoint => Sys2Proof.Machine.execLensPoint s
  | .lensCommit => Sys2Proof.Machine.execLensCommit s
  | .zoneArm => Sys2Proof.Machine.execZoneArm s
  | .zoneDisarm => Sys2Proof.Machine.execZoneDisarm s
  | .zoneAck => Sys2Proof.Machine.execZoneAck s
  | .faultClear => Sys2Proof.Machine.execFaultClear s
  | .queryCounters => Sys2Proof.Machine.execQueryCounters s
  | .queryMarker => Sys2Proof.Machine.execQueryMarker s
  | .queryTrip => Sys2Proof.Machine.execQueryTrip s
  | .queryDirectory => Sys2Proof.Machine.execQueryDirectory s
  | .takeRead => Sys2Proof.Machine.execTakeRead s
  | .takeLoadBegin => Sys2Proof.Machine.execTakeLoadBegin s
  | .takeLoadEnd => Sys2Proof.Machine.execTakeLoadEnd s
  | .reset => Sys2Proof.Machine.execReset s
  | .pace => Sys2Proof.Machine.execPace s
  | .state => Sys2Proof.Machine.execState s
  | .keyframeData => Sys2Proof.Machine.execKeyframeData s
  | .silenceExpiry n takeControllerFirst axesFirst => Sys2Proof.Machine.execSilenceExpiry n takeControllerFirst axesFirst s
  | .statePeriodExpiry => Sys2Proof.Machine.execStatePeriodExpiry s
  | .pacePeriodExpiry => Sys2Proof.Machine.execPacePeriodExpiry s
  | .jogTimeout a => Sys2Proof.Machine.execJogTimeout a s
  | .idleReleaseExpiry a => Sys2Proof.Machine.execIdleReleaseExpiry a s
  | .mismatchGraceEnd => Sys2Proof.Machine.execMismatchGraceEnd s
  | .alignmentWindowEnd => Sys2Proof.Machine.execAlignmentWindowEnd s
  | .servoUpdate a encoderWords holdEndFirst => Sys2Proof.Machine.execServoUpdate a encoderWords holdEndFirst s
  | .followingFault a encoderWords => Sys2Proof.Machine.execFollowingFault a encoderWords s
  | .encoderFault a encoderWords => Sys2Proof.Machine.execEncoderFault a encoderWords s
  | .paceStep cueLow order => Sys2Proof.Machine.execPaceStep cueLow order s
  | .guardSample levels loopClosed stopLineFirst => Sys2Proof.Machine.execGuardSample levels loopClosed stopLineFirst s
  | .levelFilterChange levels loopClosed stopLineFirst => Sys2Proof.Machine.execLevelFilterChange levels loopClosed stopLineFirst s
  | .edgeLatch input => Sys2Proof.Machine.execEdgeLatch input s
  | .stopLineOpens => Sys2Proof.Machine.execStopLineOpens s
  | .stopLineClosed levels stopLineFirst => Sys2Proof.Machine.execStopLineClosed levels stopLineFirst s
  | .markerEdge => Sys2Proof.Machine.execMarkerEdge s
  | .cueEdge => Sys2Proof.Machine.execCueEdge s
  | .feederReadDone => Sys2Proof.Machine.execFeederReadDone s
  | .recorderWrite => Sys2Proof.Machine.execRecorderWrite s
  | .punchWrite => Sys2Proof.Machine.execPunchWrite s
  | .readoutFetch => Sys2Proof.Machine.execReadoutFetch s
  | .taint => Sys2Proof.Machine.execTaint s
  | .startBit instant => Sys2Proof.Machine.execStartBit instant s
  | .resetPinRelease => Sys2Proof.Machine.execResetPinRelease s

end Sys2Proof.Machine
end

