-- ==== Sys2Proof/Safety.lean ====
section
/-! DEFINITION. The words that the statements use: what a command leaves alone, a command that its owner
takes, and the properties of a state that every step keeps. -/

namespace Sys2Proof.Machine

/-! ### Frames -/

/-- A block of t is as it was in s. -/
def sameBlock (s t : State) : Block → Prop
  | .lc => t.lc = s.lc
  | .pt => t.pt = s.pt
  | .ax => t.ax = s.ax
  | .lmu => t.lmu = s.lmu
  | .ts => t.ts = s.ts
  | .fd => t.fd = s.fd
  | .tc => t.tc = s.tc
  | .pu => t.pu = s.pu
  | .gu => t.gu = s.gu
  | .su => t.su = s.su
  | .cl => t.cl = s.cl

/-- Only the listed blocks differ: every other block, and the queue of waiting commands, is as it was. -/
def ChangesOnly (bs : List Block) (s t : State) : Prop :=
  (∀ b : Block, b ∉ bs → sameBlock s t b) ∧ t.pending = s.pending

/-- In the line controller only the two queues, the counters and the arrival serial differ. -/
def SameLink (s t : State) : Prop :=
  t.lc.failRun = s.lc.failRun ∧ t.lc.link = s.lc.link ∧ t.lc.quiet = s.lc.quiet ∧ t.lc.phase = s.lc.phase

/-- In the take controller only the roll record differs. -/
def OnlyRollRecord (s t : State) : Prop := t.tc = { s.tc with roll := t.tc.roll }

/-- An axis channel other than i is as it was. -/
def OtherAxes (i : Axis) (s t : State) : Prop := ∀ j, j ≠ i → axisCh t j = axisCh s j

/-- A directory entry other than the one of a slot is as it was. -/
def OtherTakes (slot : Slot) (s t : State) : Prop := ∀ k, k ≠ slot → t.ts.dir.get k = s.ts.dir.get k

/-! ### A command that its owner takes (R11, R14) -/

/-- A frame that `pick` reads as a command is taken from the receive queue of s, which leaves s1; the
command is c, with what it carries in x; and the checks of R14 and R27 pass. -/
structure Delivered {α : Type} (pick : CommandBody → Option α) (s : State) (c : Command) (x : α)
    (s1 : State) : Prop where
  /-- The frame is taken, and is that command. -/
  taken : ∃ e, takeOffer (picksCommand pick) s = some (e, s1) ∧ commandOf pick e = some (c, x)
  /-- The checks pass. -/
  passes : commandRefusal s1 c = none

/-- A frame of a kind that is no command is taken from the receive queue of s, which leaves s1. -/
def TakenFrame (k : Kind) (s : State) (e : RxEntry) (s1 : State) : Prop :=
  takeOffer (fun p => p.kind == k) s = some (e, s1)

/-! ### The checks on arrival (R14) -/

/-- The rows whose command meets the checks on arrival, with the kind of its frame. -/
def checkedRow : Instr → Option Kind
  | .stopClear => some .stopClear
  | .rearm => some .rearm
  | .armRecord => some .armRecord
  | .cue => some .cue
  | .wrap => some .wrap
  | .resume => some .resume
  | .recover => some .recover
  | .brk => some .brk
  | .advance => some .advance
  | .jog => some .jog
  | .goto => some .goto
  | .controlRelease => some .controlRelease
  | .punchIn => some .punchIn
  | .punchOut => some .punchOut
  | .masterRate => some .masterRate
  | .mark => some .mark
  | .unmark => some .unmark
  | .cuePoints => some .cuePoints
  | .trim => some .trim
  | .delete => some .delete
  | .lensPoint => some .lensPoint
  | .lensCommit => some .lensCommit
  | .zoneArm => some .zoneArm
  | .zoneDisarm => some .zoneDisarm
  | .zoneAck => some .zoneAck
  | .faultClear => some .faultClear
  | .takeRead => some .takeRead
  | .takeLoadBegin => some .takeLoadBegin
  | .takeLoadEnd => some .takeLoadEnd
  | .queryCounters => some .query
  | .queryMarker => some .query
  | .queryTrip => some .query
  | .queryDirectory => some .query
  | .reset => some .reset
  | _ => none

/-- The row takes the frame: it is of the row's kind, and a QUERY is of the row's subject, codes above 3 going to
QUERY_COUNTERS (log entry 27). -/
def rowTakes (i : Instr) (k : Kind) (p : Payload) : Bool :=
  p.kind == k &&
    match i, p with
    | .queryCounters, .command _ _ (.query subject _) => subject == 0 || decide (3 < subject.toNat)
    | .queryMarker, .command _ _ (.query subject _) => subject == 1
    | .queryTrip, .command _ _ (.query subject _) => subject == 2
    | .queryDirectory, .command _ _ (.query subject _) => subject == 3
    | _, _ => true

/-- The command meets no check, since it is counted malformed or ignored before (log entry 29): a QUERY of an
unknown subject or zone, a STOP-CLEAR of an originator above 15, an ARM-RECORD or a CUE without the own bit in
the mask. -/
def meetsNoCheck (s : State) : CommandBody → Prop
  | .query subject low => 3 < subject.toNat ∨ (subject = 2 ∧ 8 ≤ low.toNat)
  | .stopClear n => 16 ≤ n
  | .armRecord _ _ mask _ _ => inMask mask s.cl.station = false
  | .cue number _ _ _ _ => ignoresCue s number = true
  | _ => False

/-! ### The first of several (R39, R41, R91, R102, R103) -/

/-- Of the indices with a property, k is the least. -/
def Least {n : Nat} (P : Fin n → Prop) (k : Fin n) : Prop := P k ∧ ∀ j, j < k → ¬ P j

/-- An axis is named in a JOG or a GOTO. -/
def namedIn (t : Table (Option (BitVec 32)) 3) (a : Axis) : Prop := t.get a ≠ none

/-- The command of a row, JOG or GOTO, that names the axes of `t` is checked in the order of R41: each check is
met by the first named axis that fails it, once the checks before it pass, and a command that passes them all
is not refused. -/
def movesAreChecked (row : Instr) (isGoto : Bool) (c : Command) (t : Table (Option (BitVec 32)) 3)
    (s s1 : State) : Prop :=
  let disabled := fun a => namedIn t a ∧ (axisCh s a).state = .disabled
  let held := fun a => namedIn t a ∧ (axisCh s a).ctrl ≠ .none ∧ (axisCh s a).ctrl ≠ .console c.sender
  let punched := fun a => namedIn t a ∧ isGoto = true ∧ (axisCh s a).state = .override
  let unmapped := fun a =>
    namedIn t a ∧ isGoto = true ∧ (axisCfg s a).kind.isLens = true ∧ activeMap s a = []
  let braking := fun a => namedIn t a ∧ (axisCh s a).state = .braking
  let refused := fun (r : Reason) (d : Detail) => exec row s = .next (refuseWith c r d s1)
  (∀ a, Least disabled a → refused .notController { name := .disabled, number := some a.val }) ∧
  ((∀ a, ¬ disabled a) →
    (∀ a, Least held a → refused .notController { number := some a.val }) ∧
    ((∀ a, ¬ held a) →
      (∀ a, Least punched a → refused .notController { name := .override, number := some a.val }) ∧
      ((∀ a, ¬ punched a) →
        (clsGe s.su.effective .hold → refused .stopped {}) ∧
        (¬ clsGe s.su.effective .hold →
          (s.su.driveLatch = false → refused .stopped { name := .driveOff }) ∧
          (s.su.driveLatch = true →
            (∀ a, Least unmapped a → refused .mapAbsent { number := some a.val }) ∧
            ((∀ a, ¬ unmapped a) →
              (∀ a, Least braking a → refused .stopped { name := .braking, number := some a.val }) ∧
              ((∀ a, ¬ braking a) → moveRefusal isGoto c.sender (namedValues t) s1 = none)))))))

/-- A configured lens axis whose active map has 0 points (R78). -/
def withoutMap (s : State) (i : Axis) : Prop := isLens s i = true ∧ activeMap s i = []

/-- The distance in counts between the positions of two keyframes on an axis (R91). -/
def closureGap (s : State) (slot : Slot) (a b : Nat) (i : Axis) : Nat :=
  let count := fun k =>
    let p := ((readKeyframe s.ts slot k).get i).pos
    if (axisCfg s i).kind.isLens then (forward (activeMap s i) p).1 else p
  (count a - count b).natAbs

/-- A configured axis does not close over two keyframes: it has no map, or the distance exceeds its closure
window (R91). -/
def opensAt (s : State) (slot : Slot) (a b : Nat) (i : Axis) : Prop :=
  configured s i = true ∧
    (withoutMap s i ∨ (axisCfg s i).closureWindow < (closureGap s slot a b i : Int))

/-- The velocity that the last keyframe b of an ended punch takes on its axis, its position being `pos`: the central
difference below the last keyframe, the end velocity at it (R178). -/
def endedVelocity (s : State) (take : Slot) (i : Axis) (b : Nat) (pos : Int) : Int :=
  let at' := fun k => ((readKeyframe s.ts take k).get i).pos
  if b + 1 < (entryOf s take).count then
    satVel (rndDiv ((at' (b + 1) - at' (b - 1)) * 1000) (2 * (entryOf s take).interval))
  else satVel (rndDiv ((pos - at' (b - 1)) * 1000) (entryOf s take).interval)

/-- What the punch writer may write into: the slot is STORED with a take that is not tainted (R89) and that holds
keyframe k. -/
abbrev punchTakes (s : State) (take : Slot) (k : Nat) : Prop :=
  (entryOf s take).state = .stored ∧ (entryOf s take).taint = none ∧ k < (entryOf s take).count

/-- Two marks cross: they are neither disjoint nor strictly nested (R91). -/
def marksCross (a b : Mark) : Prop :=
  ¬ (a.stop ≤ b.start ∨ b.stop ≤ a.start) ∧ ¬ (a.start < b.start ∧ b.stop < a.stop) ∧
    ¬ (b.start < a.start ∧ a.stop < b.stop)

/-! ### A positioning move (R43, R44) -/

/-- The target that axis i takes for v: clamped into the travel limits, or, on a lens axis, into the units from the
first to the last point of its active map (R43). -/
def clampedTarget (s : State) (i : Axis) (v : Int) : Int :=
  if (axisCfg s i).kind.isLens then
    match (activeMap s i).head?, (activeMap s i).getLast? with
    | some first, some last => max first.unit (min last.unit v)
    | _, _ => v
  else max (axisCfg s i).smin (min (axisCfg s i).smax v)

/-- The count that axis i has to reach for a target v: on a lens axis the forward conversion of the clamped target,
clamped into the travel limits (R43). -/
def countToReach (s : State) (i : Axis) (v : Int) : Int :=
  if (axisCfg s i).kind.isLens then
    max (axisCfg s i).smin (min (axisCfg s i).smax (forward (activeMap s i) (clampedTarget s i v)).1)
  else clampedTarget s i v

/-- A target v is clamped: itself, or the count of a lens axis (R43). -/
def clampsTarget (s : State) (i : Axis) (v : Int) : Prop :=
  clampedTarget s i v ≠ v ∨
    ((axisCfg s i).kind.isLens = true ∧ countToReach s i v ≠ (forward (activeMap s i) (clampedTarget s i v)).1)

/-- The time that axis i takes for a target v: 1500·ΔP/Vmax rounded up, in ms (R43). -/
def travelTime (s : State) (i : Axis) (v : Int) : Nat :=
  let vmax := (axisCfg s i).vmax.toNat
  (1500 * (countToReach s i v - rndDiv (axisCh s i).p8 256).natAbs + vmax - 1) / vmax

/-- The duration that axes with these targets share: the greatest of 500 ms, the duration asked for, and the
travel time of each, cut at 65,535 (R43). -/
def SharedDuration (s : State) (asked : Nat) (targets : Axis → Option Int) (dur : Nat) : Prop :=
  ∃ most, dur = min 65535 most ∧ 500 ≤ most ∧ asked ≤ most ∧
    (∀ i v, targets i = some v → travelTime s i v ≤ most) ∧
    (most = 500 ∨ most = asked ∨ ∃ i v, targets i = some v ∧ most = travelTime s i v)

/-- The targets of a CUE or a RECOVER: the pose, for every configured axis that is not in FAULT (R44). -/
def poseTargets (s : State) (pose : Axis → Int) (i : Axis) : Option Int :=
  if configured s i = true ∧ (axisCh s i).state ≠ .fault then some (pose i) else none

/-! ### A servo update (R32, R33, R50, R73, R77, R180) -/

/-- At this update the axis enters FAULT, or takes a further cause in it (R32, R33). -/
def faultsAt (s : State) (i : Axis) (words : List (BitVec 40)) : Prop :=
  lossReaches (axisCfg s i) (axisCh s i) (latestPosition words) = true ∨
    followReaches (axisCfg s i) s.su.driveLatch (axisCh s i) (latestPosition words) = true

/-- The axis takes the step of FOLLOW at its next update: in FOLLOW, and in REJOIN once T has reached T_j or where
there is no segment to follow (R180). -/
def followsAt (s : State) (i : Axis) : Prop :=
  let c := axisCh s i
  c.state = .follow ∨ c.state = .rejoin ∧ (c.segment = none ∨ 0 ≤ (s.pu.t - c.rejoinTime).toInt)

/-- The segment of the axis at the head of the feeder's queue. -/
def headSegment (s : State) (i : Axis) : Option Segment := s.fd.queue.head?.map fun e => segmentOf e i

/-- The axis begins a new segment at that update: a pending map changes over first (R77). -/
def beginsAt (s : State) (i : Axis) : Prop :=
  followsAt s i ∧ ∃ g, headSegment s i = some g ∧ (axisCh s i).segmentCopy ≠ some g

/-- At an update without a fault the axis evaluates segment g at this clock: its own at Tm in GOTO and at T in REJOIN,
and in FOLLOW the head of the queue, or the copy, at T (R45, R50). -/
def evaluatesAt (s : State) (i : Axis) (g : Segment) (clock : TakeTime) : Prop :=
  let c := axisCh s i
  (c.state = .goto ∧ c.segment = some g ∧ clock = s.pu.tm) ∨
    (c.state = .rejoin ∧ ¬ followsAt s i ∧ c.segment = some g ∧ clock = s.pu.t) ∨
    (followsAt s i ∧ (headSegment s i).or c.segmentCopy = some g ∧ clock = s.pu.t)

/-- A count lies outside the count span of a map, from its first point's count to its last (R69). -/
def offSpan (m : LensMap) (count : Int) : Prop :=
  ∃ first last, m.head? = some first ∧ m.getLast? = some last ∧
    (count < min first.count last.count ∨ max first.count last.count < count)

/-! ### The checks of a CUE (R103, R104) -/

/-- A CUE meets its checks in s, and t is what comes of it: the refusal for the first check that fails, or, when
all pass, the play context, the positioning and the mode, with the answer handed over last. -/
def cueIsChecked (c : Command) (number : Nat) (stamp : BitVec 32) (mode : CueMode) (point : Option Nat)
    (duration : Nat) (s t : State) : Prop :=
  (∀ slot start, cueCheck number stamp mode point s = .ok (slot, start) →
    let pose := fun i => ((readKeyframe s.ts slot start).get i).pos
    ChangesOnly [.lc, .pt, .ax, .lmu, .fd, .tc, .pu] s t ∧ t.tc.cues = s.tc.cues ∧
      (∃ u, ((∃ i v, poseTargets s pose i = some v ∧ clampsTarget s i v) → t = answerClamped c true u) ∧
        ((∀ i v, poseTargets s pose i = some v → ¬ clampsTarget s i v) → t = answerClamped c false u)) ∧
      (∃ x, t.tc.ctx = some x ∧ x.take = slot ∧ x.startKeyframe = start ∧ x.stamp = stamp ∧
        x.mask = (entryOf s slot).mask ∧ x.signature = (entryOf s slot).signature ∧
        x.startTime = BitVec.ofNat 32 (start * (entryOf s slot).interval * 1024) ∧
        x.recovery = false ∧ x.wrapPending = false ∧
        (x.mode = .once ↔ mode = .once) ∧ (x.mode = .loop ↔ mode = .loop) ∧ (x.mode = .step ↔ mode = .step)) ∧
      ((∃ i, configured s i = true) → t.tc.mode = .cueing) ∧
      ((∀ i, configured s i = false) → t.tc.mode = .ready) ∧
      (∀ i, configured s i = false → axisCh t i = axisCh s i) ∧
      (∀ i, configured s i = true → (axisCh t i).ctrl = .take ∧ (axisCh t i).p8 = (axisCh s i).p8 ∧
        (axisCh t i).v8 = (axisCh s i).v8 ∧ t.tc.arrivals.get i = false) ∧
      (∀ i, configured s i = true → (axisCh s i).state = .fault → (axisCh t i).state = .fault) ∧
      (∀ i, configured s i = true → (axisCh s i).state ≠ .fault → (axisCh t i).state = .goto ∧
        ∃ g, (axisCh t i).segment = some g ∧ g.t0 = s.pu.tm ∧ g.zeroStart = true ∧ g.zeroEnd = true ∧
          SharedDuration s duration (poseTargets s pose) g.dur ∧
          ((s.lmu.get i).pending = none → g.p1 = clampedTarget s i (pose i)))) ∧
  (let refused := fun (r : Reason) (d : Detail) => t = refuseWith c r d s
   (¬ (s.tc.mode = .idle ∧ s.ts.bulk = .none) → refused .busy {}) ∧
   (s.tc.mode = .idle → s.ts.bulk = .none →
     ((∀ slot, slotOf number = some slot → (entryOf s slot).state ≠ .stored) → refused .noTake {}) ∧
     (∀ slot, slotOf number = some slot → (entryOf s slot).state = .stored →
       let e := entryOf s slot
       (e.stamp ≠ stamp → refused .noTake { name := .stamp }) ∧
       (e.stamp = stamp →
         (e.count < 2 → refused .notPlayable {}) ∧
         (2 ≤ e.count →
           let startsAt := fun (k : Nat) =>
             point = none ∧ k = 0 ∨ ∃ j, point = some j ∧ e.cues[j]? = some k ∧ k + 1 < e.count
           ((∀ k, ¬ startsAt k) → refused .notPlayable { name := .cuePoint }) ∧
           (∀ start, startsAt start →
             (∀ i, Least (withoutMap s) i → refused .mapAbsent { number := some i.val }) ∧
             ((∀ i, ¬ withoutMap s i) →
               let around := fun (j : Fin 8) => ∃ m, e.marks.get j = some m ∧ m.start < start ∧ start < m.stop
               (∀ j, Least around j → refused .insideMark { number := some j.val }) ∧
               ((∀ j, ¬ around j) →
                 let opens := fun (i : Axis) => mode = .loop ∧ opensAt s slot 0 (e.count - 1) i
                 (∀ i, Least opens i → refused .notClosed { number := some i.val }) ∧
                 ((∀ i, ¬ opens i) →
                   (s.su.effective ≠ .none → refused .stopped {}) ∧
                   (s.su.effective = .none →
                     cueCheck number stamp mode point s = .ok (slot, start)))))))))))

/-! ### Bits on the line (R1) -/

/-- Six equal bits of this level stand in a row. -/
def sixInRow (level : Bool) (line : List Bool) : Prop := List.replicate 6 level <:+: line

/-! ### Rolls (R105, R106) -/

/-- The node takes part in a roll of take number `number`: it names an entry that is not EMPTY and has the node's
bit in its mask (R105). -/
def partOfRoll (s : State) (number : Nat) : Prop :=
  s.tc.mode ≠ .unconfigured ∧ ∃ slot : Slot, number = slot.val + 1 ∧ (entryOf s slot).state ≠ .empty ∧
    inMask (entryOf s slot).mask s.cl.station = true

/-- The conditions of the first check of a ROLL in mode m: the mode with its form, the take, the ready flag in the
own peer entry, and no class above NONE (R106). -/
def readyForRoll (s : State) (m : RollMode) (f : RollFields) : Prop :=
  ∃ c, s.tc.ctx = some c ∧
    (m = .play → s.tc.mode = .ready ∧ c.recovery = false) ∧
    (m = .resumeFrom → s.tc.mode = .ready ∧ c.recovery = true ∧ c.restartSeq = some f.startSeq) ∧
    (m = .record → s.tc.mode = .armed) ∧
    f.take.toNat = c.take.val + 1 ∧ (peer s s.cl.station).ready = true ∧ s.su.effective = .none

/-- The rows of commands run one after the other. -/
def Runs : List Instr → State → State → Prop
  | [], s, t => t = s
  | i :: rest, s, t => ∃ u, exec i s = .next u ∧ Runs rest u t

/-! ### The stop unit (R161, R162, R167) -/

/-- The own claim set holds each key once and no claim of class NONE, PEER-MISMATCH with class HOLD, and the STOP-LINE
key exactly while the line is OPEN, and the effective class is the one R161 forms. -/
structure ClaimsInv (s : State) : Prop where
  /-- One claim for each key. -/
  keys : (s.su.own.map Claim.cause).Nodup
  /-- Every claim has a class. -/
  classes : ∀ k ∈ s.su.own, k.cls ≠ .none
  /-- A PEER-MISMATCH claim has class HOLD. -/
  mismatch : ∀ k ∈ s.su.own, k.cause = .peerMismatch → k.cls = .hold
  /-- The STOP-LINE claim and the stop-line state agree. -/
  line : s.su.lineOpen = true ↔ .stopLine ∈ s.su.own.map Claim.cause
  /-- The effective class is formed from them. -/
  effective : s.su.effective = formEffective s.su

/-- The drive latch is clear while the effective class is SEVER (R167). -/
def LatchInv (s : State) : Prop := s.su.driveLatch = true → s.su.effective ≠ .sever

/-! ### A change of the effective class (R47, R142, R147, R167 to R170) -/

/-- The states in which an axis stands or moves under no stop: those of the first column of R47. -/
def onPath (st : AxisState) : Prop :=
  st = .rest ∨ st = .jog ∨ st = .goto ∨ st = .follow ∨ st = .override ∨ st = .rejoin

/-- The modes that a rise of the class takes to IDLE at once: a positioning, and, at HALT or SEVER, a playback
with WRAP pending (Table 11-2, R169). -/
def endsOnRise (new : Cls) (s : State) : Prop :=
  s.tc.mode = .cueing ∨ s.tc.mode = .recovering ∨
    (inPlay s.tc.mode = true ∧ clsGe new .halt ∧ wrapPending s = true)

/-- What the blocks make of a rise of the effective class from s to `new`, with its trip time.  That a recording
keeps its mode and is only asked for its taint, with the first trip time, is log entry 20. -/
structure ClassRises (new : Cls) (trip : TakeTime) (s t : State) : Prop where
  /-- The class is the new one. -/
  formed : t.su.effective = new
  /-- The drive latch clears at SEVER alone (R167). -/
  latch : t.su.driveLatch = (if new = .sever then false else s.su.driveLatch)
  /-- The clocks stand as they were published. -/
  clocks : t.pu.t = s.pu.t ∧ t.pu.tm = s.pu.tm
  /-- At HALT or SEVER both rates are 0 at once, but the path rate of a recording (R142, R147). -/
  rates : clsGe new .halt → t.pu.rm = 0 ∧ (s.tc.mode ≠ .recording → t.pu.r = 0)
  /-- A recording keeps its path rate, and HOLD leaves the move rate, and the path rate of a playback, to the
  pace steps. -/
  slower : (s.tc.mode = .recording → t.pu.r = s.pu.r) ∧
    (new = .hold → t.pu.rm = s.pu.rm ∧ (inPlay s.tc.mode = true → t.pu.r = s.pu.r))
  /-- Axes in DISABLED or FAULT are not changed by the class. -/
  untouched : ∀ i, (axisCh s i).state = .disabled ∨ (axisCh s i).state = .fault →
    (axisCh t i).state = (axisCh s i).state ∧ (axisCh t i).p8 = (axisCh s i).p8 ∧
      (axisCh t i).v8 = (axisCh s i).v8
  /-- SEVER: every other axis is SEVERED, without velocity and with the following counter at 0 (R33). -/
  severed : new = .sever → ∀ i, onPath (axisCh s i).state ∨ (axisCh s i).state = .braking →
    (axisCh t i).state = .severed ∧ (axisCh t i).v8 = 0 ∧ (axisCh t i).followCount = 0
  /-- HALT: an axis brakes from the setpoint and the velocity that it has. -/
  braking : new = .halt → ∀ i, onPath (axisCh s i).state ∨ (axisCh s i).state = .braking →
    (axisCh t i).state = .braking ∧ (axisCh t i).p8 = (axisCh s i).p8 ∧ (axisCh t i).v8 = (axisCh s i).v8
  /-- HALT and SEVER: jog demand 0, no timer runs, and the segment is abandoned. -/
  stopped : clsGe new .halt → ∀ i, onPath (axisCh s i).state →
    (axisCh t i).demand = 0 ∧ (axisCh t i).jogTimer = none ∧ (axisCh t i).idleTimer = none ∧
      (axisCh t i).segment = none
  /-- HALT and SEVER: a punch ends, and in a playback that goes on its axis has controller TAKE (R181). -/
  punches : clsGe new .halt → ∀ i, (axisCh s i).state = .override ∨ (axisCh s i).state = .rejoin →
    (∀ p ∈ t.ax.punches, p.axis = i → p.ended = true ∧ p.writing = false) ∧
      (inPlay s.tc.mode = true → wrapPending s = false → (axisCh t i).ctrl = .take)
  /-- HOLD: jog demand 0, and the axis keeps all else, with the following counter at 0 while it tracks (R33). -/
  held : new = .hold → ¬ endsOnRise new s → ∀ i, onPath (axisCh s i).state →
    axisCh t i = { axisCh s i with
      demand := 0, jogTimer := none,
      segmentCopy := if (axisCh s i).state = .follow then (axisCh s i).segmentCopy else none,
      followCount := if (axisCh s i).state = .rest ∧ s.su.driveLatch = false then 0
        else (axisCh s i).followCount }
  /-- A positioning ends, and a halted playback with WRAP pending: IDLE, with feeder and play context
  cleared. -/
  ended : endsOnRise new s →
    t.tc.mode = .idle ∧ t.tc.ctx = none ∧ t.fd = { Feeder.reset with cueLow := s.fd.cueLow }
  /-- A roll window is cancelled, cause STOPPED (R108). -/
  cancelled : s.tc.mode = .rolling → t.tc = { s.tc with
    mode := if s.tc.roll.mode = some .record then .armed else .ready,
    roll := { s.tc.roll with window := none, result := .cancelled .stopped } }
  /-- A playback is HALTED, with its halt sequence number, the feeder suspended and the shift discarded (R134,
  R169). -/
  halted : inPlay s.tc.mode = true → clsGe new .halt → wrapPending s = false →
    t.tc = { s.tc with
      mode := .halted, ctx := s.tc.ctx.map fun c => { c with haltSeq := some (seqInPlay s.fd) } } ∧
    t.fd = { s.fd with suspended := true, sectionWait := false, slot := .empty, sourceRead := none } ∧
    t.pu.slices = []
  /-- Every other mode is kept. -/
  kept : ¬ endsOnRise new s → s.tc.mode ≠ .rolling → (inPlay s.tc.mode = true → new = .hold) →
    t.tc = s.tc ∧ t.fd = s.fd
  /-- In RECORDING the taint is asked for, with the trip time of the first rise (R89, R170). -/
  taint : t.ts.taintTrip =
    if s.tc.mode = .recording then s.ts.taintTrip.or (some trip) else s.ts.taintTrip

/-- What the return to IDLE makes of the station: the play context, the window, the arrivals, the feeder and the
rates at nothing, no PEER-MISMATCH claim, and the axes of a take, and those in a punch, at rest (R40, R77, R100,
R181).  That an axis from OVERRIDE loses its demand and its jog timer is log entry 64. -/
structure ReturnsToIdle (s t : State) : Prop where
  /-- The take controller. -/
  station : t.tc.mode = .idle ∧ t.tc.ctx = none ∧ t.tc.roll.window = none ∧
    ∀ i, t.tc.arrivals.get i = false
  /-- The feeder, the path rate, the shift and the offsets. -/
  cleared : t.fd = { Feeder.reset with cueLow := s.fd.cueLow } ∧ t.pu.r = 0 ∧ t.pu.slices = [] ∧
    t.pu.offsetSum = 0 ∧ t.pu.offsetCount = 0
  /-- The mismatch claim is released. -/
  released : ∀ k ∈ t.su.own, k.cause ≠ .peerMismatch
  /-- An axis in FOLLOW, REJOIN or GOTO under the take controller, and one in OVERRIDE, rests with controller NONE,
  with its setpoint and its velocity as they are. -/
  rests : ∀ i, let c := axisCh s i
    (c.ctrl = .take ∧ (c.state = .follow ∨ c.state = .rejoin ∨ c.state = .goto) ∨ c.state = .override) →
    (axisCh t i).state = .rest ∧ (axisCh t i).ctrl = .none ∧ (axisCh t i).segment = none ∧
      (axisCh t i).idleTimer = none ∧ (axisCh t i).p8 = c.p8 ∧ (axisCh t i).v8 = c.v8 ∧
      (c.state = .override → (axisCh t i).demand = 0 ∧ (axisCh t i).jogTimer = none) ∧
      (c.state ≠ .override → (axisCh t i).demand = c.demand ∧ (axisCh t i).jogTimer = c.jogTimer)
  /-- Its pending lens map becomes the active one. -/
  maps : ∀ i, let c := axisCh s i
    (c.ctrl = .take ∧ (c.state = .follow ∨ c.state = .rejoin ∨ c.state = .goto) ∨ c.state = .override) →
    t.lmu.get i = { s.lmu.get i with
      active := (s.lmu.get i).pending.getD (s.lmu.get i).active, pending := none }
  /-- The punch of such an axis ends. -/
  punches : ∀ i, let c := axisCh s i
    (c.ctrl = .take ∧ c.state = .rejoin ∨ c.state = .override) →
    ∀ p ∈ t.ax.punches, p.axis = i → p.ended = true ∧ p.writing = false
  /-- Every other axis keeps its state, its motion and a controller other than TAKE, and TAKE becomes NONE. -/
  others : ∀ i, let c := axisCh s i
    ¬ (c.ctrl = .take ∧ (c.state = .follow ∨ c.state = .rejoin ∨ c.state = .goto) ∨ c.state = .override) →
    (axisCh t i).ctrl = (if c.ctrl = .take then .none else c.ctrl) ∧
      (c.state ≠ .severed ∨ s.su.effective = .sever →
        (axisCh t i).state = c.state ∧ (axisCh t i).p8 = c.p8 ∧ (axisCh t i).v8 = c.v8 ∧
          (axisCh t i).demand = c.demand ∧ (axisCh t i).jogTimer = c.jogTimer ∧
          (axisCh t i).idleTimer = c.idleTimer ∧ (axisCh t i).segment = c.segment)

/-- What the blocks make of a fall of the effective class from that of s to `new`: no mode changes, and an axis
that leaves BRAKING or SEVERED enters REST (R47, R168). -/
structure ClassFalls (new : Cls) (s t : State) : Prop where
  /-- The class is the new one. -/
  formed : t.su.effective = new
  /-- The take controller, the feeder, the clocks and their rates, and the drive latch are not changed. -/
  kept : t.tc = s.tc ∧ t.fd = s.fd ∧ t.pu.t = s.pu.t ∧ t.pu.tm = s.pu.tm ∧ t.pu.r = s.pu.r ∧
    t.pu.rm = s.pu.rm ∧ t.su.driveLatch = s.su.driveLatch
  /-- A SEVERED axis brakes at HALT and rests below it, without velocity. -/
  severed : ∀ i, (axisCh s i).state = .severed →
    (axisCh t i).state = (if new = .halt then .braking else .rest) ∧ (axisCh t i).v8 = 0 ∧
      (axisCh t i).p8 = (axisCh s i).p8
  /-- A BRAKING axis without velocity rests below HALT. -/
  braking : clsGe s.su.effective .halt → ¬ clsGe new .halt → ∀ i, (axisCh s i).state = .braking →
    (axisCh t i).state = (if (axisCh s i).v8 = 0 then .rest else .braking) ∧
      (axisCh t i).v8 = (axisCh s i).v8 ∧ (axisCh t i).p8 = (axisCh s i).p8

/-- The class stays as it is, and with it the drive latch, the mode, the feeder, the clocks and the rates. -/
def ClassStays (s t : State) : Prop :=
  t.su.effective = s.su.effective ∧ t.su.driveLatch = s.su.driveLatch ∧ t.tc = s.tc ∧ t.fd = s.fd ∧
    t.pu.t = s.pu.t ∧ t.pu.tm = s.pu.tm ∧ t.pu.r = s.pu.r ∧ t.pu.rm = s.pu.rm ∧ t.pu.slices = s.pu.slices

/-- What the raise of a claim of class `cls` by the node itself makes of s: a rise of the class where that is below
`cls`, and otherwise the claim alone (R161, R162).  What a rise makes of a recording is log entry 20, and that its
T counts as published right from the start of the roll is log entry 67. -/
def OwnClaimActs (cls : Cls) (s t : State) : Prop :=
  ClaimsInv s →
    (clsRank s.su.effective < clsRank cls → ClassRises cls s.pu.t s t) ∧
    (clsRank cls ≤ clsRank s.su.effective → ClassStays s t ∧ ∀ i, axisCh t i = axisCh s i)

/-! ### The announced ceiling (R139) -/

/-- The PACE frame that is handed over now with ceiling c (R139). -/
def paceFrame (s : State) (c : Nat) : Payload :=
  .pace { time := s.pu.t, rate := BitVec.ofNat 16 s.pu.r, ceiling := BitVec.ofNat 16 c }

/-- The local ceiling becomes c, where an input of it has changed: one that has moved by 32 or more from the
announced one is announced at once, where PACE frames are handed over, and otherwise nothing comes of it.  Before
and after are the announced ceiling, the pace period timer and the transmit queue. -/
def CeilingFormed (s : State) (changed : Prop) (c : Nat) (before after : Nat × Option Nat × List TxFrame) : Prop :=
  let announces := changed ∧ pacesIn s.tc.mode = true ∧ 32 ≤ ((c : Int) - (before.1 : Int)).natAbs
  (announces → after.1 = c ∧ after.2.1 = some s.cl.cfg.pacePeriod ∧
    (s.lc.link ≠ .fault → after.2.2 = (queueFrame (paceFrame s c) before.2.2).1) ∧
    (s.lc.link = .fault → after.2.2 = before.2.2)) ∧
  (¬ announces → after = before)

/-! ### STATE (R24, R187, R189) -/

/-- The codes of the roll result, the cancel cause, the refusal reason and the station.  That the two last are 0
where the result names none is log entry 58. -/
def resultShown : RollResult → BitVec 2 × BitVec 3 × BitVec 3 × Nat
  | .none => (0, 0, 0, 0)
  | .started => (1, 0, 0, 0)
  | .cancelled (.refused n reason) => (2, 1, reason.extractLsb' 0 3, n.val)
  | .cancelled .stopped => (2, 2, 0, 0)
  | .cancelled (.participantAbsent n) => (2, 3, 0, n.val)
  | .cancelled .wrap => (2, 4, 0, 0)
  | .cancelled (.notAccepted n) => (2, 5, 0, n.val)

/-- The modes in which STATE names the take of the play context (R24). -/
def namesTake (m : Mode) : Prop :=
  m = .armed ∨ m = .recording ∨ m = .cueing ∨ m = .ready ∨ m = .rolling ∨ m = .playing ∨ m = .held ∨
    m = .halted ∨ m = .recovering

/-- The contents of a STATE frame show the node as it stands in s (R24).  What rests on the model's choices: the
refusal reason on log entries 32 and 58, the drive-enable output on log entry 57, and the counts of levels above the
depth on log entry 69. -/
structure StateShows (s : State) (f : StateFields) : Prop where
  /-- Role, with CONFIG-ABSENT. -/
  role : f.role = (if s.cl.cfg.valid = true then 0 else 2) ∧ f.configAbsent = !s.cl.cfg.valid
  /-- Station mode and effective class. -/
  mode : modeOf f.mode = some s.tc.mode ∧ clsOf f.cls = s.su.effective
  /-- The greatest class in the own claim set. -/
  summary : (∀ k ∈ s.su.own, clsRank k.cls ≤ clsRank (clsOf f.summary)) ∧
    (clsOf f.summary = .none ∨ ∃ k ∈ s.su.own, k.cls = clsOf f.summary)
  /-- The cause kinds in it. -/
  causes : ∀ n, f.causeMask.getLsbD n = true ↔ ∃ k ∈ s.su.own, causeCode k.cause.kind = n
  /-- The take time of the last STOP frame. -/
  stop : f.stopTime = s.su.lastTime ∧ f.timeFlag = s.su.lastFlag
  /-- The drive latch, drive-enable and the section wait. -/
  flags : f.driveLatch = s.su.driveLatch ∧ f.sectionWait = s.fd.sectionWait ∧
    (f.driveEnable = true ↔ s.su.driveLatch = true ∧ s.su.loopClosed = true ∧ s.su.openLatch = false ∧
      s.su.effective ≠ .sever)
  /-- The take of the play context, with its stamp and its edit signature. -/
  take : namesTake s.tc.mode → ∀ x, s.tc.ctx = some x →
    f.take.toNat = x.take.val + 1 ∧ f.stamp = (entryOf s x.take).stamp ∧ f.signature = (entryOf s x.take).signature
  /-- No take. -/
  noTake : ¬ namesTake s.tc.mode → f.take = 0 ∧ f.stamp = 0 ∧ f.signature = 0
  /-- The ready flag. -/
  ready : f.ready = true ↔ (s.tc.mode = .ready ∨ s.tc.mode = .armed) ∧ s.su.effective = .none
  /-- Roll number and roll result. -/
  roll : f.roll = s.tc.roll.number ∧
    (f.result, f.cancelCause, f.refusal, f.causeStation.toNat) = resultShown s.tc.roll.result
  /-- The sequence number of the segment in play. -/
  playSeq : s.tc.mode = .playing ∨ s.tc.mode = .held →
    (∀ e, s.fd.queue.head?.or s.fd.retired = some e → f.seq = e.seq) ∧
      (s.fd.queue.head?.or s.fd.retired = none → f.seq = s.fd.startSeq)
  /-- The halt sequence number. -/
  haltSeq : s.tc.mode = .halted ∨ s.tc.mode = .recovering →
    ∀ x n, s.tc.ctx = some x → x.haltSeq = some n → f.seq = n
  /-- The start sequence of a restart. -/
  restartSeq : s.tc.mode = .ready → ∀ x n, s.tc.ctx = some x → x.recovery = true →
    x.restartSeq = some n → f.seq = n
  /-- No sequence number. -/
  noSeq : s.tc.mode ≠ .playing → s.tc.mode ≠ .held → s.tc.mode ≠ .halted → s.tc.mode ≠ .recovering →
    (s.tc.mode = .ready → ∀ x, s.tc.ctx = some x → x.recovery = false) → f.seq = 0
  /-- The recovery mark. -/
  recovery : f.recovery = true ↔ ∃ x, s.tc.ctx = some x ∧ x.recovery = true
  /-- The pass context of the segment in play, from the outermost level on. -/
  passes : ∀ e, inPlay s.tc.mode = true → s.fd.queue.head?.or s.fd.retired = some e → e.stack.length ≤ 4 →
    f.depth.toNat = e.stack.length ∧
      ∀ (i : Fin 4) (p : Pass), e.stack.reverse[i.val]? = some p → f.passCounts.get i = BitVec.ofNat 8 p.remaining
  /-- No pass context.  That the counts of levels above the depth are 0 is log entry 69. -/
  noPasses : (inPlay s.tc.mode = false ∨ s.fd.queue.head?.or s.fd.retired = none) →
    f.depth = 0 ∧ ∀ i, f.passCounts.get i = 0
  /-- The axis summaries. -/
  axes : ∀ i, (f.axes.get i).state = axisCode (axisCh s i).state ∧ (f.axes.get i).lensEnd = (axisCh s i).lensEnd ∧
    ((f.axes.get i).mapPending = true ↔ (s.lmu.get i).pending ≠ none)

/-! ### The configuration image (R57, R79, R183, R190) -/

/-- The byte at an offset of the image; past its end it reads as 0xFF (R183; log entry 34). -/
def byteField (image : List (BitVec 8)) (o : Nat) : Nat := (image.getD o 0xFF).toNat

/-- The 16-bit field at an offset, the most significant byte first (R186; log entry 7). -/
def wordField (image : List (BitVec 8)) (o : Nat) : Nat := 256 * byteField image o + byteField image (o + 1)

/-- The 32-bit field at an offset, without a sign. -/
def longField (image : List (BitVec 8)) (o : Nat) : Nat := 65536 * wordField image o + wordField image (o + 2)

/-- The 32-bit field at an offset, in two's complement. -/
def signedField (image : List (BitVec 8)) (o : Nat) : Int :=
  if longField image o < 2 ^ 31 then longField image o else (longField image o : Int) - 2 ^ 32

/-- A value cut into a range (R183). -/
def cutNat (lo hi v : Nat) : Nat := max lo (min hi v)

/-- A value cut into a range (R183). -/
def cutInt (lo hi v : Int) : Int := max lo (min hi v)

/-- The axis record at offset o, with the constants that R57 derives for the servo period p. -/
structure AxisLoaded (image : List (BitVec 8)) (o p : Nat) (a : AxisConfig) : Prop where
  /-- Kind. -/
  kind : a.kind = match byteField image o with | 0 => .arm | 1 => .focus | 2 => .iris | _ => .zoom
  /-- FE_count and E. -/
  counts : a.feCount = cutNat 1 255 (byteField image (o + 1)) ∧ a.lossLimit = cutNat 1 15 (byteField image (o + 2))
  /-- Travel limits: an upper one that is not above the lower is one above it. -/
  travel : a.smin = cutInt (-134217728) 134217726 (signedField image (o + 4)) ∧
    a.smax = (let upper := cutInt (-134217728) 134217727 (signedField image (o + 8))
      if a.smin < upper then upper else a.smin + 1)
  /-- Velocity and accelerations. -/
  bounds : a.vmax = cutNat 4 8388607 (longField image (o + 12)) ∧
    a.amax = cutNat 1 100000000 (longField image (o + 16)) ∧
    a.ahalt = cutNat 1 100000000 (longField image (o + 20))
  /-- Following limit, arrival window and closure window. -/
  windows : a.followLimit = cutNat 0 134217727 (longField image (o + 24)) ∧
    a.arrivalWindow = cutNat 0 134217727 (longField image (o + 28)) ∧
    a.closureWindow = cutNat 0 134217727 (longField image (o + 32))
  /-- The derived constants. -/
  derived : a.vmax8 = a.vmax * p * 256 / 1000 ∧ a.amax8 = max 1 (a.amax * (p * p) * 256 / 1000000) ∧
    a.ahalt8 = max a.amax8 (a.ahalt * (p * p) * 256 / 1000000)

/-- The default map at offset o: its points cut into the ranges of the axis, if they make a valid map. -/
def MapLoaded (image : List (BitVec 8)) (o : Nat) (a : AxisConfig) : Prop :=
  ∃ m : LensMap, m.length = min 16 (wordField image o) ∧
    (∀ k x, m[k]? = some x →
      x.unit = cutInt (if a.kind = .focus then 1 else 0) 65535 (wordField image (o + 2 + 6 * k)) ∧
        x.count = cutInt a.smin a.smax (signedField image (o + 4 + 6 * k))) ∧
    a.defaultMap = if a.kind ≠ .arm ∧ mapValid m = true then m else []

/-- The configuration holds the fields of the image, each cut into its range (R183, R190).  Which bit of a mask names
which member is log entry 65. -/
structure ImageLoaded (image : List (BitVec 8)) (cfg : NodeConfig) : Prop where
  /-- The bit rate, the servo period, the axis count and the permitted consoles. -/
  head : cfg.valid = true ∧ (cfg.fastLine = true ↔ byteField image 3 ≠ 0) ∧
    cfg.servoPeriod = cutNat 1 2 (byteField image 4) ∧ cfg.axisCount = cutNat 0 3 (byteField image 5) ∧
    ∀ n : Station, inMask cfg.permitted n = (wordField image 8).testBit n.val
  /-- The cue input mode. -/
  cue : cfg.cueMode = match byteField image 6 with | 0 => .none | 1 => .advanceEdge | _ => .runLevel
  /-- The eleven constants. -/
  constants : let const := fun (k : Nat) => wordField image (0x00A + 2 * k)
    cfg.idleRelease = cutNat 500 10000 (const 0) ∧ cfg.jogTimeout = cutNat 20 200 (const 1) ∧
    cfg.silenceLimit = cutNat 10 100 (const 2) ∧ cfg.statePeriod = cutNat 4 20 (const 3) ∧
    cfg.pacePeriod = cutNat 2 10 (const 4) ∧ cfg.rise = cutNat 1 16 (const 5) ∧ cfg.fall = cutNat 1 64 (const 6) ∧
    cfg.rollWindow = cutNat 10 100 (const 7) ∧ cfg.alignWindow = cutNat 50 500 (const 8) ∧
    cfg.taintSpan = cutNat 0 2000 (const 9) ∧ cfg.rejoinTime = cutNat 100 2000 (const 10)
  /-- The guard inputs. -/
  inputs : ∀ i : Input, let b := byteField image (0x020 + i.val)
    ((cfg.inputs.get i).mode = .edge ↔ b.testBit 7 = true) ∧ (cfg.inputs.get i).activeHigh = b.testBit 6 ∧
      (cfg.inputs.get i).filterLength = max 1 (b % 16)
  /-- The zones. -/
  zones : ∀ z : Zone, let o := 0x028 + 6 * z.val
    (∀ i : Input, (cfg.zones.get z).mask.getLsbD i.val = (byteField image o).testBit i.val) ∧
      ((cfg.zones.get z).action =
        match byteField image (o + 1) with | 0 => .scale | 1 => .hold | 2 => .halt | _ => .sever) ∧
      (cfg.zones.get z).ackLatch = (byteField image (o + 2)).testBit 1 ∧
      (cfg.zones.get z).armedAtReset = (byteField image (o + 2)).testBit 0 ∧
      (cfg.zones.get z).ceiling = cutNat 0 1024 (wordField image (o + 4))
  /-- The axes and their default maps. -/
  axes : ∀ i : Axis, AxisLoaded image (0x058 + 36 * i.val) cfg.servoPeriod (cfg.axes.get i) ∧
    MapLoaded image (0x0C4 + 98 * i.val) (cfg.axes.get i)

/-! ### The queues (R10, R12, R119) -/

/-- The classes of the queued frames rise from the head (R12). -/
def classesRise (q : List TxFrame) : Prop := (q.map fun f => frameClass f.payload).Pairwise (· ≤ ·)

/-- The three queues keep within their lengths, and the transmit queue its order. -/
structure QueuesInv (s : State) : Prop where
  /-- The transmit queue holds at most eight frames. -/
  tx : s.lc.txq.length ≤ 8
  /-- Frames of a lower class number stand in front. -/
  order : classesRise s.lc.txq
  /-- The receive queue holds at most four entries. -/
  rx : s.lc.rxq.length ≤ 4
  /-- The segment queue holds at most eight entries. -/
  segments : s.fd.queue.length ≤ 8

/-! ### Zones (R150, R151, R156, R157) -/

/-- A trip record shows the mode and the sequence number of s: that of the segment in play in PLAYING and HELD, the
halt sequence number in HALTED and RECOVERING, the restart sequence in READY with the recovery mark, and 0
otherwise (R157). -/
structure TripShows (s : State) (trip : Trip) : Prop where
  /-- The station mode. -/
  mode : trip.mode = s.tc.mode
  /-- The segment in play. -/
  play : inPlay s.tc.mode = true → trip.seq = seqInPlay s.fd
  /-- The halt sequence number. -/
  halt : s.tc.mode = .halted ∨ s.tc.mode = .recovering →
    ∀ x n, s.tc.ctx = some x → x.haltSeq = some n → trip.seq = n
  /-- The restart sequence. -/
  restart : s.tc.mode = .ready →
    ∀ x n, s.tc.ctx = some x → x.recovery = true → x.restartSeq = some n → trip.seq = n
  /-- No sequence number. -/
  zero : inPlay s.tc.mode = false → s.tc.mode ≠ .halted → s.tc.mode ≠ .recovering →
    (s.tc.mode = .ready → ∀ x, s.tc.ctx = some x → x.recovery = false) → trip.seq = 0

/-- Input i belongs to the mask of zone z and is active for it: a LEVEL input by its filtered state, an EDGE
input by its level or by the edge event that the zone holds. -/
def inputActiveFor (s : State) (z : Zone) (i : Input) : Prop :=
  (zoneCfg s z).mask.getLsbD i.val = true ∧
    match (s.cl.cfg.inputs.get i).mode with
    | .level => (s.gu.inputs.get i).filtered = true
    | .edge => (s.gu.inputs.get i).level = true ∨ (zoneOf s z).edges.getLsbD i.val = true

/-- Zone z holds its ceiling: an armed SCALE zone that is not CLEAR. -/
def ceilingHeld (s : State) (z : Zone) : Prop :=
  (zoneOf s z).armed = true ∧ (zoneCfg s z).action = .scale ∧ (zoneOf s z).state ≠ .clear

/-- The guard ceiling is the least ceiling that a zone holds, 1024 when none does. -/
def CeilingIsLeast (s : State) : Prop :=
  s.gu.ceiling ≤ 1024 ∧ (∀ z, ceilingHeld s z → s.gu.ceiling ≤ (zoneCfg s z).ceiling) ∧
    (s.gu.ceiling = 1024 ∨ ∃ z, ceilingHeld s z ∧ s.gu.ceiling = (zoneCfg s z).ceiling)

/-! ### The rates (R140 to R148, R156) -/

/-- The rates and ceilings lie in their ranges, and the path rate is what the mode fixes (R142). -/
structure RatesInv (s : State) : Prop where
  /-- The path rate is at most the full rate. -/
  path : s.pu.r ≤ 1024
  /-- The move rate is at most the full rate. -/
  move : s.pu.rm ≤ 1024
  /-- The master rate is at most the full rate. -/
  master : s.pu.master ≤ 1024
  /-- The strain ceiling lies between 128 and 1024. -/
  strain : 128 ≤ s.pu.strain ∧ s.pu.strain ≤ 1024
  /-- The guard ceiling is at most the full rate. -/
  guard : s.gu.ceiling ≤ 1024
  /-- In RECORDING the path rate is 1024. -/
  recording : s.tc.mode = .recording → s.pu.r = 1024
  /-- Outside PLAYING and RECORDING it is 0. -/
  standing : s.tc.mode ≠ .playing → s.tc.mode ≠ .recording → s.pu.r = 0

/-! ### The take store (R81, R82) -/

/-- Every block number that a take holds, take by take. -/
def heldBlocks (ts : TakeStore) : List Nat := ts.dir.rows.flatMap TakeEntry.blocks

/-- Each of the 64 blocks is on the free-block list or in one take's block list, and the free-block list
rises strictly; an EMPTY entry holds none. -/
structure BlocksInv (ts : TakeStore) : Prop where
  /-- Free and held blocks together are the 64 blocks, each once. -/
  conserved : (ts.free ++ heldBlocks ts).Perm allBlocks
  /-- The free-block list is in ascending order. -/
  ascending : ts.free.Pairwise (· < ·)
  /-- An EMPTY entry has an empty block list. -/
  empty : ∀ slot, (ts.dir.get slot).state = .empty → (ts.dir.get slot).blocks = []

/-! ### The end of a recording (R85 to R89) -/

/-- The position that axis i has in keyframe k of a recording: that of the last sample of k that waits for the store
port, or else the one that the store holds. -/
def recordedPos (ts : TakeStore) (slot : Slot) (k : Nat) (i : Axis) : Int :=
  match ts.waiting.reverse.find? fun x => x.index == k with
  | some x => x.pose.get i
  | none => ((readKeyframe ts slot k).get i).pos

/-- The recording of a slot stands as recordings do: the store is sound, every keyframe lies in a block of the take,
and no axis is in a punch, which PUNCH-IN begins in PLAYING and HELD alone (R81, R82, R176). -/
structure RecordingStands (s : State) (slot : Slot) : Prop where
  /-- Each block is free or in one take. -/
  blocks : BlocksInv s.ts
  /-- The pool is canonical. -/
  pool : Pool.wf s.ts.pool
  /-- The first keyframe is sampled, and each has its block. -/
  room : 1 ≤ (entryOf s slot).count ∧ (entryOf s slot).count ≤ 128 * (entryOf s slot).blocks.length
  /-- No punch is in progress. -/
  unpunched : ∀ i, (axisCh s i).state ≠ .override ∧ (axisCh s i).state ≠ .rejoin

/-- What the end of a recording, from s to t, makes of the keyframes (R86, R89). -/
structure RecordingCloses (s t : State) (slot : Slot) : Prop where
  /-- Every keyframe that is kept has its recorded position. -/
  positions : ∀ k i, k < (entryOf s slot).count → k < (entryOf t slot).count →
    ((readKeyframe t.ts slot k).get i).pos = recordedPos s.ts slot k i
  /-- The last keyframe that the take keeps has the end velocity, from the one before it. -/
  endVelocity : ∀ n i, (entryOf t slot).count = n + 2 → configured s i = true →
    ((readKeyframe t.ts slot (n + 1)).get i).vel =
      satVel (rndDiv ((((readKeyframe t.ts slot (n + 1)).get i).pos - ((readKeyframe t.ts slot n).get i).pos) * 1000)
        (entryOf s slot).interval)
  /-- Keyframe 0 alone keeps its velocity 0. -/
  alone : (entryOf t slot).count = 1 → ∀ i, ((readKeyframe s.ts slot 0).get i).vel = 0 →
    ((readKeyframe t.ts slot 0).get i).vel = 0
  /-- Below the last keyframes every velocity stays, but for those that waiting samples give. -/
  velocities : s.ts.waiting = [] → ∀ k i, k + 1 < (entryOf s slot).count → k + 1 < (entryOf t slot).count →
    ((readKeyframe t.ts slot k).get i).vel = ((readKeyframe s.ts slot k).get i).vel
  /-- Every keyframe of another take reads as before. -/
  others : ∀ other k, other ≠ slot → readKeyframe t.ts other k = readKeyframe s.ts other k

/-! ### The setpoint (section 4.4) -/

/-- The parameters of an axis are those of an image or of R184: an interval of travel and positive
constants. -/
structure AxisParams (a : AxisConfig) : Prop where
  /-- The travel limits leave room. -/
  travel : a.smin < a.smax
  /-- The velocity bound is positive. -/
  vmax : 1 ≤ a.vmax8
  /-- The acceleration bound is positive. -/
  amax : 1 ≤ a.amax8
  /-- The halt deceleration is no less than the acceleration. -/
  ahalt : a.amax8 ≤ a.ahalt8

/-- The setpoint lies between the travel limits and its velocity under the bound. -/
structure SetpointHolds (a : AxisConfig) (c : AxisChannel) : Prop where
  /-- Not below the lower limit. -/
  low : 256 * a.smin ≤ c.p8
  /-- Not above the upper limit. -/
  high : c.p8 ≤ 256 * a.smax
  /-- At most the greatest velocity, either way. -/
  speed : (c.v8.natAbs : Int) ≤ a.vmax8

/-- The channels that are configured are those that are not DISABLED, and the law of the setpoint holds for
each of them. -/
structure SetpointInv (s : State) : Prop where
  /-- A channel is DISABLED exactly when it is not configured. -/
  disabled : ∀ i, (axisCh s i).state = .disabled ↔ configured s i = false
  /-- The parameters are sane. -/
  params : ∀ i, configured s i = true → AxisParams (axisCfg s i)
  /-- The law of the setpoint. -/
  law : ∀ i, configured s i = true → SetpointHolds (axisCfg s i) (axisCh s i)

/-! ### The play context (R100, R101) -/

/-- The modes in which there is no play context. -/
def contextFree (m : Mode) : Bool := m == .start || m == .unconfigured || m == .idle

/-- The play context exists in every mode but START, UNCONFIGURED and IDLE. -/
def ContextInv (s : State) : Prop := s.tc.ctx.isNone = contextFree s.tc.mode

end Sys2Proof.Machine
end

