-- ==== Sys2Proof/WellFormed.lean ====
section
/-! DEFINITION. Which operands of a command are operands at all: the sizes that the spec gives the image,
a frame's payload and a command's fields. -/

namespace Sys2Proof

/-- A byte field. -/
def fitsByte (n : Nat) : Bool := n < 256

/-- A word field. -/
def fitsWord (n : Nat) : Bool := n < 65536

/-- A signed 32-bit field. -/
def fitsSigned (v : Int) : Bool := decide (-2147483648 ≤ v) && decide (v ≤ 2147483647)

/-- The fields of a command lie in the widths of log entry 4: bytes for small numbers, words for keyframes,
durations and counts; a CUE-POINTS fits its layout (R188). -/
def CommandBody.wf : CommandBody → Bool
  | .stopClear n => fitsWord n
  | .armRecord t _ _ i _ => fitsByte t && fitsWord i
  | .cue t _ _ p d => fitsByte t && fitsWord d && (p.map fitsByte).getD true
  | .punchIn a _ => fitsByte a
  | .punchOut a => fitsByte a
  | .masterRate v => fitsWord v
  | .mark t k a b n => fitsByte t && fitsByte k && fitsWord a && fitsWord b && fitsByte n
  | .unmark t k => fitsByte t && fitsByte k
  | .cuePoints t ps => Machine.cuePointsFit t ps
  | .trim t l => fitsByte t && fitsWord l
  | .delete t => fitsByte t
  | .lensPoint a i u c => fitsByte a && fitsByte i && fitsWord u && fitsSigned c
  | .lensCommit a n => fitsByte a && fitsByte n
  | .faultClear a => fitsByte a
  | .takeRead t f n => fitsByte t && fitsWord f && fitsWord n
  | .takeLoadBegin t _ _ i n => fitsByte t && fitsWord i && fitsWord n
  | .takeLoadEnd t => fitsByte t
  | .rearm | .wrap | .resume | .recover _ | .brk | .advance | .jog _ | .goto _ _ | .controlRelease _
  | .zoneArm _ | .zoneDisarm _ | .zoneAck _ | .query _ _ | .reset => true

/-- The fields of a payload lie in their widths. -/
def Payload.wf : Payload → Bool
  | .command _ _ b => b.wf
  | .directoryEntry f => fitsWord f.interval && fitsWord f.count && fitsByte f.cuePoints && fitsByte f.freeBlocks
  | .counters _ c =>
    fitsWord c.crcErrors && fitsWord c.malformed && fitsWord c.txFailures && fitsWord c.txDrops &&
      fitsWord c.rxDrops && fitsWord c.alignSkips && fitsWord c.advanceOverruns
  | .stopClaim _ | .stopRelease _ | .roll _ | .rollAccept _ | .rollRefuse _ _ | .pace _ | .state _
  | .answer _ | .tripReport _ | .markerReport _ | .keyframeData _ => true

/-- A frame of 15 payload words is 273 bits and at most 68 stuff bits long (R1, R2), and a frame's fields do not
contradict its header (log entry 4). -/
def LineFrame.wf (f : LineFrame) : Bool :=
  f.line.length ≤ 341 && f.fields.wf &&
    match Machine.checkFrame f with
    | .valid k => (Machine.decodePayload k f.words f.fields).isSome
    | _ => true

/-- The image is 490 bytes long (R190), or the memory does not answer (R183). -/
def imageWf (image : List (BitVec 8)) : Bool := image.length == 490 || image.isEmpty

/-- Every axis has at most one servo update between a publication and its retirement (R31). -/
def PaceOrder.wf (o : PaceOrder) : Bool := decide (o.updates.map EarlyUpdate.axis).Nodup

/-- A command is well formed. -/
def Instr.wf : Instr → Bool
  | .endOfStart image _ => imageWf image
  | .frameArrives f => f.wf
  | .paceStep _ o => o.wf
  | .powerOnReset | .stationReset | .transmitAttempt _ _ | .frameSentWhole | .attemptFails
  | .linkLostEntry | .quietTimeExpiry | .framingViolation _ | .readoutReoffer | .stopClaim | .stopRelease
  | .stopClear | .rearm | .roll | .rollAccept | .rollRefuse | .rollWindowExpiry | .armRecord | .cue
  | .wrap | .resume | .recover | .brk | .advance | .jog | .goto | .controlRelease | .punchIn
  | .punchOut | .masterRate | .mark | .unmark | .cuePoints | .trim | .delete | .lensPoint
  | .lensCommit | .zoneArm | .zoneDisarm | .zoneAck | .faultClear | .queryCounters | .queryMarker
  | .queryTrip | .queryDirectory | .takeRead | .takeLoadBegin | .takeLoadEnd | .reset | .pace | .state
  | .keyframeData | .silenceExpiry _ _ _ | .statePeriodExpiry | .pacePeriodExpiry | .jogTimeout _
  | .idleReleaseExpiry _ | .mismatchGraceEnd | .alignmentWindowEnd | .servoUpdate _ _ _
  | .followingFault _ _ | .encoderFault _ _ | .guardSample _ _ _
  | .levelFilterChange _ _ _ | .edgeLatch _ | .stopLineOpens | .stopLineClosed _ _ | .markerEdge
  | .cueEdge | .feederReadDone | .recorderWrite | .punchWrite | .readoutFetch | .taint | .startBit _
  | .resetPinRelease => true

end Sys2Proof
end

