-- ==== Sys2Proof/Certificates/Slice0/Obligations.lean ====
section
/-! DEFINITION. The statements for the provers: what each command does, what it leaves alone, and what every
step keeps. -/

open Sys2Proof Sys2Proof.Machine

/-! ### The queue of commands -/

/-- One step runs the command at the front of the queue on the state with the queue's rest: the model's
queue (log entry 5). -/
def Obligations.StepRunsFrontCommand : Prop :=
  ∀ (c : Instr) (rest : List Instr) (s : State), s.pending = c :: rest →
    step s = exec c { s with pending := rest }

/-! ### Chapter 1: the line -/

/-- A frame handed over in a link state other than FAULT: a PACE or STATE takes the place of a queued one of its
kind that is not on the line; otherwise, below eight frames, a frame joins behind every frame of its class and
in front of every frame of a higher class number; at eight a frame of class 1 or above that is no KEYFRAME-DATA
is dropped and counted, and a frame of class 0 displaces the last frame unless that is on the line or of class 0
(section 1.5). A KEYFRAME-DATA is said to join where fewer than four are queued too, which is when a read-out
hands one over; otherwise the read-out holds it back, uncounted (section 1.5; log entry 15). In FAULT it is
discarded uncounted (section 1.3). -/
def Obligations.TransmitQueueTakesFrames : Prop :=
  ∀ (p : Payload) (s : State),
    (s.lc.link = .fault → handOver p s = s) ∧
    (s.lc.link ≠ .fault →
      ChangesOnly [.lc] s (handOver p s) ∧ SameLink s (handOver p s) ∧
      (handOver p s).lc.rxq = s.lc.rxq ∧
      ((∃ f ∈ s.lc.txq, replaceable p.kind f = true) →
        ∃ before f after, s.lc.txq = before ++ f :: after ∧ replaceable p.kind f = true ∧
          (∀ g ∈ before, replaceable p.kind g = false) ∧
          (handOver p s).lc.txq = before ++ { payload := p, onLine := false } :: after ∧
          (handOver p s).lc.counters = s.lc.counters) ∧
      (readoutFits s = true ↔ s.lc.txq.length < 8 ∧
        (s.lc.txq.filter fun f => f.payload.kind == .keyframeData).length < 4) ∧
      ((∀ f ∈ s.lc.txq, replaceable p.kind f = false) → s.lc.txq.length < 8 →
        (p.kind = .keyframeData → readoutFits s = true) →
        ∃ before after, s.lc.txq = before ++ after ∧
          (∀ g ∈ before, frameClass g.payload ≤ frameClass p) ∧
          (∀ g ∈ after.head?, frameClass p < frameClass g.payload) ∧
          (handOver p s).lc.txq = before ++ { payload := p, onLine := false } :: after ∧
          (handOver p s).lc.counters = s.lc.counters) ∧
      ((∀ f ∈ s.lc.txq, replaceable p.kind f = false) → 8 ≤ s.lc.txq.length → frameClass p ≠ 0 →
        p.kind ≠ .keyframeData → (handOver p s).lc.txq = s.lc.txq ∧
          (handOver p s).lc.counters =
            { s.lc.counters with txDrops := min 65535 (s.lc.counters.txDrops + 1) }) ∧
      ((∀ f ∈ s.lc.txq, replaceable p.kind f = false) → 8 ≤ s.lc.txq.length → frameClass p = 0 →
        (handOver p s).lc.counters =
            { s.lc.counters with txDrops := min 65535 (s.lc.counters.txDrops + 1) } ∧
        ∀ last ∈ s.lc.txq.getLast?,
          ((last.onLine = true ∨ frameClass last.payload = 0) → (handOver p s).lc.txq = s.lc.txq) ∧
          (last.onLine = false → frameClass last.payload ≠ 0 →
            ∃ before after, s.lc.txq.dropLast = before ++ after ∧
              (∀ g ∈ before, frameClass g.payload ≤ frameClass p) ∧
              (∀ g ∈ after.head?, frameClass p < frameClass g.payload) ∧
              (handOver p s).lc.txq = before ++ { payload := p, onLine := false } :: after)))

/-- FRAME_SENT_WHOLE, with a frame on the line: the frame leaves the transmit queue, the count of failed attempts
is 0, LINK-LOST ends with its claim released, and the node's own entry is LIVE. Where no claim is released, the
queue is what is left of it, and the frame goes through the receive path, marked own. Where one is, the rest of
the queue stays too, but for a STATE or a PACE that a newer one replaces (sections 1.2, 1.3, 1.5 and 2.2). -/
def Obligations.SentFrameLeavesQueue : Prop :=
  ∀ (s : State) (mark : StartMark) (f : TxFrame), s.lc.phase = .sending mark →
    s.lc.txq.find? TxFrame.onLine = some f →
    let own := s.cl.station
    let left := s.lc.txq.filter fun g => !g.onLine
    ∃ t, exec .frameSentWhole s = .next t ∧ t.lc.phase = .idle ∧ t.lc.failRun = 0 ∧
      (s.lc.link ≠ .linkLost → (peer s own).liveness ≠ .silent →
        t.lc.txq = left ∧ t.lc.link = s.lc.link ∧ ChangesOnly [.lc, .pt] s t ∧
        (∀ m, m ≠ own → peer t m = peer s m) ∧
        (let r := if admits s true f.payload then enqueueRx own f.payload mark true s else s
         t.lc.rxq = r.lc.rxq ∧ t.lc.counters = r.lc.counters)) ∧
      (s.lc.link ≠ .linkLost ∨ (peer s own).liveness ≠ .silent ∨ s.lc.txq.length ≤ 5 →
        s.lc.txq.length ≤ 8 →
        ∀ g ∈ left, g.payload.kind ≠ .state → g.payload.kind ≠ .pace → g ∈ t.lc.txq) ∧
      (∀ g ∈ t.lc.txq, g.onLine = false) ∧
      t.lc.link = (if s.lc.link = .linkLost then .joined else s.lc.link) ∧
      (s.lc.link = .linkLost → ∀ k ∈ t.su.own, k.cause ≠ .linkLost) ∧
      (peer t s.cl.station).liveness = .live ∧
      (peer t s.cl.station).silence = some s.cl.cfg.silenceLimit ∧
      t.cl = s.cl ∧ t.gu = s.gu ∧ t.fd = s.fd ∧ t.tc = s.tc ∧ t.pending = s.pending

/-- A failed attempt, with a frame on the line: the frame stays queued, unless it is a PACE or STATE with a newer
one queued behind it, which cancels it; the failure is counted, and the 16th in a row brings LINK-LOST with a quiet
time of 100 ms and a claim of class HALT or above (section 1.3). That claim raises a class below HALT with all that
a rise does to axes, rates, drive latch and mode, and leaves them otherwise (sections 3.9, 9.3 and 11.6 to 11.8). A
recording keeps its mode, and is only asked for its taint with the first trip time: log entry 20, with its T as
published from the start of the roll on: log entry 67. LINK_LOST_ENTRY is that 16th failure, and no event at any
other count, as log entry 18 says. -/
def Obligations.FailedAttemptsLoseTheLink : Prop :=
  ∀ (s : State) (mark : StartMark) (f : TxFrame), s.lc.phase = .sending mark →
    s.lc.txq.find? TxFrame.onLine = some f → s.lc.link ≠ .fault →
    let newer := ∃ g ∈ s.lc.txq, replaceable f.payload.kind g = true
    ∃ t q, exec .attemptFails s = .next t ∧ t.lc.phase = .idle ∧
      t.lc.counters.txFailures = min 65535 (s.lc.counters.txFailures + 1) ∧
      (newer → q = s.lc.txq.filter fun g => !g.onLine) ∧
      (¬ newer → q = s.lc.txq.map fun g => { g with onLine := false }) ∧
      (s.lc.failRun < 15 →
        t.lc.txq = q ∧ t.lc.failRun = s.lc.failRun + 1 ∧ t.lc.link = s.lc.link ∧ t.lc.quiet = s.lc.quiet ∧
        ChangesOnly [.lc] s t ∧ exec .linkLostEntry s = .next s) ∧
      (15 ≤ s.lc.failRun →
        (s.lc.txq.length ≤ 4 →
          ∀ g ∈ q, g.payload.kind ≠ .state → g.payload.kind ≠ .pace → g ∈ t.lc.txq) ∧
        t.lc.failRun = 0 ∧ t.lc.link = .linkLost ∧ t.lc.quiet = some 100 ∧
        (∃ k ∈ t.su.own, k.cause = .linkLost ∧ clsGe k.cls .halt) ∧ OwnClaimActs .halt s t ∧
        t.gu = s.gu ∧ t.cl = s.cl ∧ t.pending = s.pending ∧
        exec .linkLostEntry s = .next t)

/-- TRANSMIT_ATTEMPT, where the line controller may start (running, idle line, no quiet time, no FAULT): the
head frame is sent with the start mark, and stands on the line when it wins; a PACE frame carries the take time
of its start bit (sections 1.2 and 1.5). START_BIT on the idle line takes the start mark; FRAMING_VIOLATION in a
frame being received ends it, and counts a CRC error when the run of six was recessive; bits without such a run
change nothing, as log entry 2 says (sections 1.1 and 1.2). -/
def Obligations.LinePhaseFollowsTheLine : Prop :=
  (∀ (s : State) (f : TxFrame) (rest : List TxFrame) (won : Bool) (instant : Nat),
     running s = true → s.lc.phase = .idle → s.lc.quiet = none → s.lc.link ≠ .fault → s.lc.txq = f :: rest →
     ∃ t g, exec (.transmitAttempt won instant) s = .next t ∧ ChangesOnly [.lc] s t ∧
       t.lc = { s.lc with
         txq := g :: rest,
         phase := if won then .sending { instant := instant, time := s.pu.t }
                  else .receiving { instant := instant, time := s.pu.t } } ∧
       g.onLine = won ∧
       (∀ p, f.payload = .pace p → g.payload = .pace { p with time := s.pu.t }) ∧
       (f.payload.kind ≠ .pace → g.payload = f.payload)) ∧
  (∀ (s : State) (instant : Nat) (mark : StartMark) (line : List Bool),
     (running s = true → s.lc.phase = .idle →
       exec (.startBit instant) s =
         .next (s.setLc { s.lc with phase := .receiving { instant := instant, time := s.pu.t } })) ∧
     (∀ recessive, s.lc.phase = .receiving mark → unstuff line = .violation recessive →
       exec (.framingViolation line) s =
         .next (s.setLc { s.lc with
           phase := .idle,
           counters := if recessive then
               { s.lc.counters with crcErrors := min 65535 (s.lc.counters.crcErrors + 1) }
             else s.lc.counters })) ∧
     ((∀ recessive, unstuff line ≠ .violation recessive) → exec (.framingViolation line) s = .next s))

/-- FRAME_ARRIVES while a frame is being received. The checks in their order: bits that match the length, the CRC,
a class of 0 to 6, a kind of that class, a length allowed for the kind, and the length that the axis set of a JOG
or GOTO, or the count of a CUE-POINTS, gives; a dominant run of six is counted nowhere, as log entry 54 says. A CRC
error or a malformed frame is counted and changes nothing else; a valid frame makes its sender LIVE with its
silence timer restarted, releases the sender's PEER-SILENT claim on a return from SILENT, and, admitted by its kind
and target, meets the receive queue. One that bears the node's own number puts the link in FAULT: the transmit
queue is emptied, the quiet time ends, a LINK-LOST claim is released and a DUPLICATE claim of class SEVER is
raised, which acts on axes, rates, drive latch and mode as a rise to SEVER does, or changes none of them at SEVER
(sections 1.1, 1.3, 1.4, 2.2, 3.9, 11.6 to 11.8 and 13.3). A recording keeps its mode, and is only asked for its
taint with the first trip time: log entry 20, with its T as published from the start of the roll on: log entry 67.
The byte of the second word that holds the count of a CUE-POINTS, its low byte, is the model's choice of log entry
4. Classes 5, commands for another station and an own KEYFRAME-DATA are not admitted (section 1.4). An operand
whose fields are not of the kind that its header names is no frame, and stops with contradictoryFrame: the model's
choice of log entry 4. -/
def Obligations.ArrivingFrameIsChecked : Prop :=
  (∀ (s : State) (own : Bool) (p : Payload),
    (frameClass p = 5 → admits s own p = false) ∧
    (∀ target tag body, p = .command target tag body →
      (admits s own p = true ↔ target = 0xFF ∨ target.toNat = s.cl.station.val)) ∧
    (∀ f, p = .keyframeData f → admits s own p = !own) ∧
    (frameClass p ≠ 5 → (∀ target tag body, p ≠ .command target tag body) → (∀ f, p ≠ .keyframeData f) →
      admits s own p = true)) ∧
  (∀ f : LineFrame,
    (unstuff f.line = .violation false → checkFrame f = .aborted) ∧
    (unstuff f.line ≠ .violation false →
      (f.whole = false → checkFrame f = .crcError) ∧
      (f.whole = true →
        let cls := (headerClass f.header).toNat
        let row := fun (k : Kind) => (kindRow k).cls = cls ∧ (kindRow k).code = (headerCode f.header).toNat
        (frameCrc f.header f.words ≠ f.crc → checkFrame f = .crcError) ∧
        (frameCrc f.header f.words = f.crc →
          (6 < cls → checkFrame f = .malformed) ∧
          ((∀ k, ¬ row k) → checkFrame f = .malformed) ∧
          (∀ k, cls ≤ 6 → row k →
            let allowed := (kindRow k).minLen ≤ f.words.length ∧ f.words.length ≤ (kindRow k).maxLen
            let second := f.words.getD 1 0
            let named := (second.getLsbD 0).toNat + (second.getLsbD 1).toNat + (second.getLsbD 2).toNat
            let agrees := (k = .jog → f.words.length = 2 + 2 * named) ∧
              (k = .goto → f.words.length = 3 + 2 * named) ∧
              (k = .cuePoints → f.words.length = 2 + (13 * (loByte second).toNat + 15) / 16)
            (¬ (allowed ∧ agrees) → checkFrame f = .malformed) ∧
            (allowed → agrees → checkFrame f = .valid k)))))) ∧
  ∀ (s : State) (f : LineFrame) (mark : StartMark), s.lc.phase = .receiving mark →
    (checkFrame f = .aborted → exec (.frameArrives f) s = .next (s.setLc { s.lc with phase := .idle })) ∧
    (checkFrame f = .crcError →
      exec (.frameArrives f) s = .next (s.setLc { s.lc with
        phase := .idle,
        counters := { s.lc.counters with crcErrors := min 65535 (s.lc.counters.crcErrors + 1) } })) ∧
    (checkFrame f = .malformed →
      exec (.frameArrives f) s = .next (s.setLc { s.lc with
        phase := .idle,
        counters := { s.lc.counters with malformed := min 65535 (s.lc.counters.malformed + 1) } })) ∧
    (∀ k p, checkFrame f = .valid k → decodePayload k f.words f.fields = some p →
      ∃ t, exec (.frameArrives f) s = .next t ∧ t.lc.phase = .idle ∧
        (peer t (headerSender f.header)).liveness = .live ∧
        (peer t (headerSender f.header)).silence = some s.cl.cfg.silenceLimit ∧
        ((peer s (headerSender f.header)).liveness = .silent →
          ∀ c ∈ t.su.own, c.cause ≠ .peerSilent (headerSender f.header)) ∧
        (headerSender f.header = s.cl.station →
          t.lc.link = .fault ∧
          (s.lc.link ≠ .fault →
            t.lc.txq = [] ∧ t.lc.quiet = none ∧ (∀ c ∈ t.su.own, c.cause ≠ .linkLost) ∧
            (∃ c ∈ t.su.own, c.cause = .duplicate ∧ c.cls = .sever) ∧
            ((peer s s.cl.station).liveness ≠ .silent → OwnClaimActs .sever s t))) ∧
        (headerSender f.header ≠ s.cl.station → t.lc.link = s.lc.link ∧ t.lc.quiet = s.lc.quiet) ∧
        (let r := if admits s false p then enqueueRx (headerSender f.header) p mark false s else s
         t.lc.rxq = r.lc.rxq ∧ t.lc.nextSerial = r.lc.nextSerial ∧
         (headerSender f.header ≠ s.cl.station → (peer s (headerSender f.header)).liveness ≠ .silent →
           t.lc = { r.lc with phase := .idle } ∧ ChangesOnly [.lc, .pt] s t ∧
           ∀ m, m ≠ headerSender f.header → peer t m = peer s m)) ∧
        s.lc.rxq.length ≤ t.lc.rxq.length ∧
        t.gu = s.gu ∧ t.cl = s.cl ∧ t.pending = s.pending) ∧
    (∀ k, checkFrame f = .valid k → decodePayload k f.words f.fields = none →
      exec (.frameArrives f) s = .fault .contradictoryFrame)

/-- An admitted frame at the receive queue: appended below four entries; at four, a frame of class 1 or above is
dropped, and a frame of class 0 takes the place of the oldest entry of another class, or is dropped when there
is none. Each drop is counted once (section 1.4). An entry that an owner takes leaves the receive queue, which
is otherwise as it was: it is one that the owner wants; a class 0 entry is the oldest of class 0; any other goes
only when it may be taken, no class 0 entry waits, and no older entry of the same class may be taken; and an
entry of which that holds, the first that the owner wants, is taken (section 1.4). An entry may be taken when no
older one has an owner in common with it and its owners can take it: at once, but for one of the take store,
which needs the store port, free of other clients, and must be the oldest work of its client there. How that is
told is log entry 10; that a CUE which waits for its reads counts among that work is log entry 43; and that an
entry held back by the order of its owner does not hold back the younger ones of its class is log entry 59: the
model's choices. -/
def Obligations.ReceiveQueueInOrder : Prop :=
  (∀ (n : Station) (p : Payload) (mark : StartMark) (own : Bool) (s : State),
     ChangesOnly [.lc] s (enqueueRx n p mark own s) ∧
     ∃ e : RxEntry, e.sender = n ∧ e.payload = p ∧ e.mark = mark ∧ e.own = own ∧
       (s.lc.rxq.length < 4 →
         (enqueueRx n p mark own s).lc.rxq = s.lc.rxq ++ [e] ∧
         (enqueueRx n p mark own s).lc.counters = s.lc.counters) ∧
       (4 ≤ s.lc.rxq.length →
         (enqueueRx n p mark own s).lc.counters =
           { s.lc.counters with rxDrops := min 65535 (s.lc.counters.rxDrops + 1) }) ∧
       (4 ≤ s.lc.rxq.length → frameClass p ≠ 0 → (enqueueRx n p mark own s).lc.rxq = s.lc.rxq) ∧
       (4 ≤ s.lc.rxq.length → frameClass p = 0 →
         ((∀ x ∈ s.lc.rxq, frameClass x.payload = 0) → (enqueueRx n p mark own s).lc.rxq = s.lc.rxq) ∧
         (∀ before x after, s.lc.rxq = before ++ x :: after → (∀ y ∈ before, frameClass y.payload = 0) →
           frameClass x.payload ≠ 0 →
           (enqueueRx n p mark own s).lc.rxq = before ++ after ++ [e]))) ∧
  (∀ (want : Payload → Bool) (s s1 : State) (e : RxEntry), takeOffer want s = some (e, s1) →
     running s = true ∧ want e.payload = true ∧
     ∃ before after, s.lc.rxq = before ++ e :: after ∧
       s1 = s.setLc { s.lc with rxq := before ++ after } ∧
       (frameClass e.payload = 0 → ∀ b ∈ before, frameClass b.payload ≠ 0) ∧
       (frameClass e.payload ≠ 0 →
         mayTake s before e = true ∧ (∀ b ∈ before ++ after, frameClass b.payload ≠ 0) ∧
         ∀ pre b post, before = pre ++ b :: post → frameClass b.payload = frameClass e.payload →
           mayTake s pre b = false)) ∧
  (∀ (want : Payload → Bool) (s : State) (before after : List RxEntry) (e : RxEntry), running s = true →
     s.lc.rxq = before ++ e :: after → want e.payload = true → (∀ b ∈ before, want b.payload = false) →
     (frameClass e.payload = 0 → (∀ b ∈ before, frameClass b.payload ≠ 0) →
       takeOffer want s = some (e, s.setLc { s.lc with rxq := before ++ after })) ∧
     (frameClass e.payload ≠ 0 → mayTake s before e = true →
       (∀ b ∈ before ++ after, frameClass b.payload ≠ 0) →
       (∀ pre b post, before = pre ++ b :: post → frameClass b.payload = frameClass e.payload →
         mayTake s pre b = false) →
       takeOffer want s = some (e, s.setLc { s.lc with rxq := before ++ after }))) ∧
  (∀ (s : State) (older : List RxEntry) (e : RxEntry), mayTake s older e = true ↔
     (∀ b ∈ older, ∀ o, o ∈ ownersOf b.payload → o ∉ ownersOf e.payload) ∧
     (.ts ∈ ownersOf e.payload →
       feederWants s = false ∧ recorderWants s = false ∧ punchWants s = false ∧
       (∀ b ∈ older, .ts ∉ ownersOf b.payload) ∧ (∀ n, fetchSince s = some n → e.serial < n) ∧
       ∀ w ∈ s.tc.cues, e.serial < w.since))

/-- The answer to a command: one ANSWER frame for the command's station, kind and tag, with the result and the
detail; with target ALL only a refusal is answered. It touches nothing but the line controller (section 1.6). A
command that fails a check on arrival has no effect but its refusal: in UNCONFIGURED all but QUERY and RESET,
then an addressed-only kind sent to ALL, then a sender that is no permitted console, but for ADVANCE (sections
1.6 and 2.5). The rows are those of `checkedRow`, with the frames of `rowTakes`, and so every row of class 2,
with STOP-CLEAR and REARM. That QUERY_COUNTERS takes the unknown subject codes is log entry 27; that the frames
of `meetsNoCheck`, which are counted malformed or ignored, meet none of these checks is log entry 29: the
model's choices. -/
def Obligations.CommandsAreCheckedAndAnswered : Prop :=
  (∀ (c : Command) (r : AnswerResult) (d : Detail) (s : State),
     ((c.target ≠ targetAll ∨ ∃ why, r = .refused why) →
       answer c r d s =
         handOver (.answer { station := c.sender, kind := c.kind, tag := c.tag, result := r, detail := d }) s) ∧
     (c.target = targetAll → (∀ why, r ≠ .refused why) → answer c r d s = s) ∧
     ChangesOnly [.lc] s (answer c r d s)) ∧
  (∀ (i : Instr) (k : Kind) (s s1 : State) (e : RxEntry) (target tag : BitVec 8) (body : CommandBody),
     checkedRow i = some k → takeOffer (rowTakes i k) s = some (e, s1) →
     e.payload = .command target tag body → ¬ meetsNoCheck s body →
     let refused := fun (why : Reason) =>
       handOver (.answer { station := e.sender, kind := k, tag := tag, result := .refused why, detail := {} }) s1
     (s.tc.mode = .unconfigured → k ≠ .query → k ≠ .reset → exec i s = .next (refused .unconfigured)) ∧
     ((s.tc.mode ≠ .unconfigured ∨ k = .query) → addressedOnly k = true → target = 0xFF →
       exec i s = .next (refused .notAddressed)) ∧
     ((s.tc.mode ≠ .unconfigured ∨ k = .query ∨ k = .reset) → (addressedOnly k = false ∨ target ≠ 0xFF) → k ≠ .advance →
       inMask s.cl.cfg.permitted e.sender = false → exec i s = .next (refused .notPermitted)))

/-- QUERY of COUNTERS reports the seven counters as they stood and zeroes them; QUERY of MARKER reports the
marker record and QUERY of TRIP the trip record of a zone with the inputs that are active for it, and each
empties what it reports. A subject code above 3, and a zone above 7, is counted malformed instead (sections 1.7,
7.8, 10.5 and 13.3). That the row QUERY_COUNTERS takes a subject code above 3 is the model's choice of log entry
27, and that these malformed frames meet no other check is log entry 29. -/
def Obligations.QueriesReport : Prop :=
  (∀ (s s1 : State) (c : Command) (x : BitVec 8 × BitVec 8),
    Delivered pickQueryCounters s c x s1 → x.1 = 0 → s1.lc.link ≠ .fault → s1.lc.txq.length < 8 →
    ∃ t, exec .queryCounters s = .next t ∧ ChangesOnly [.lc] s t ∧ SameLink s t ∧
      t.lc.counters = Counters.zero ∧
      ∃ before after, s1.lc.txq = before ++ after ∧
        t.lc.txq = before ++ { payload := .counters c.tag s1.lc.counters, onLine := false } :: after) ∧
  (∀ (s s1 : State) (e : RxEntry) (c : Command) (x : BitVec 8 × BitVec 8),
    takeOffer (picksCommand pickQueryCounters) s = some (e, s1) → commandOf pickQueryCounters e = some (c, x) →
    3 < x.1.toNat → exec .queryCounters s = .next (countMalformed s1)) ∧
  (∀ (s s1 : State) (c : Command), Delivered pickQueryMarker s c () s1 →
    exec .queryMarker s = .next (handOver
      (.markerReport { tag := c.tag, capture := s.pu.marker, overrun := s.pu.markerOverrun })
      (s1.setPu { s.pu with marker := none, markerOverrun := false }))) ∧
  (∀ (s s1 : State) (c : Command) (low : BitVec 8) (z : Zone), Delivered pickQueryTrip s c low s1 →
    low.toNat = z.val →
    ∃ t, ∃ active : BitVec 8,
      exec .queryTrip s = .next (handOver (.tripReport
        { tag := c.tag, zone := z, armed := (zoneOf s z).armed, state := (zoneOf s z).state,
          trip := (zoneOf s z).trip, overrun := (zoneOf s z).overrun, active := active }) t) ∧
      ChangesOnly [.lc, .gu] s t ∧ t.lc = s1.lc ∧ t.gu = { s.gu with zones := t.gu.zones } ∧
      zoneOf t z = { zoneOf s z with trip := none, overrun := false } ∧
      (∀ y, y ≠ z → zoneOf t y = zoneOf s y) ∧
      ∀ i : Input, active.getLsbD i.val = true ↔ inputActiveFor s z i) ∧
  (∀ (s s1 : State) (e : RxEntry) (c : Command) (low : BitVec 8),
    takeOffer (picksCommand pickQueryTrip) s = some (e, s1) → commandOf pickQueryTrip e = some (c, low) →
    8 ≤ low.toNat → exec .queryTrip s = .next (countMalformed s1))

/-! ### Chapter 2: the peer table -/

/-- PACE writes last T, the path rate and the announced ceiling of its sender's entry, both rates cut at 1024,
unless the entry is SILENT (section 2.4; log entry 12), and whenever the frame arrived, also before the node
entered ROLLING, which is the model's choice (log entry 70); and, for another station's frame under the conditions
of section 7.7, the pace unit adds the offset of the carried take time from the start mark's T. -/
def Obligations.PaceFrameRecorded : Prop :=
  ∀ (s s1 : State) (e : RxEntry) (f : PaceFields), TakenFrame .pace s e s1 → e.payload = .pace f →
    ∃ t, exec .pace s = .next t ∧ ChangesOnly [.lc, .pt, .pu] s t ∧ t.lc = s1.lc ∧
      t.pt.stateTimer = s.pt.stateTimer ∧ (∀ m, m ≠ e.sender → peer t m = peer s m) ∧
      ((peer s e.sender).liveness = .silent → peer t e.sender = peer s e.sender) ∧
      ((peer s e.sender).liveness ≠ .silent →
        peer t e.sender = { peer s e.sender with
          lastT := f.time, rate := min 1024 f.rate.toNat, ceiling := min 1024 f.ceiling.toNat }) ∧
      ((e.own = false ∧ isParticipant s e.sender = true ∧ (peer s e.sender).mode = .playing ∧
          s.tc.mode = .playing ∧ s.pu.alignTimer ≠ none) →
        t.pu = { s.pu with
          offsetSum := s.pu.offsetSum + (f.time - e.mark.time).toInt, offsetCount := s.pu.offsetCount + 1 }) ∧
      (¬ (e.own = false ∧ isParticipant s e.sender = true ∧ (peer s e.sender).mode = .playing ∧
          s.tc.mode = .playing ∧ s.pu.alignTimer ≠ none) → t.pu = s.pu)

/-- STATE: role, mode, class, take, stamp, signature, ready flag, roll result, roll number and sequence go into
the sender's entry, unless it is SILENT (log entry 12); a role, mode or roll result without a meaning is counted
malformed and leaves the entry (sections 2.3, 13.3 and 13.5). Another station's claim summary goes into its
stop-table entry; the node's own never does (section 11.4). That it does so for a frame with a meaningless field
too, and that another station's frame under the own number writes no stop-table entry, is log entry 22. The
effective class is then formed again from the entry: a rise and a fall act at once as those of a STOP frame do,
with the trip time of the frame's take time and flag, or the start mark's T, and a recording stays and is asked
for its taint, as log entry 20 says; one that stays changes none of them, and of the stop unit the entry alone
(sections 3.9, 9.3, 9.7, 11.1, 11.4 and 11.6 to 11.8). Last, on the entry that the frame has just written and
with the class already formed, as log entry 21 says (DEDUCED), while PLAYING or HELD, with the grace over and a
participant as sender, every participant's entry is examined: one with another roll number, or a mode outside
the roll, raises PEER-MISMATCH with class HOLD, which leaves the mode; a claim already raised stands, and with
none mismatched nothing changes (section 7.4). -/
def Obligations.StateFrameRecorded : Prop :=
  ∀ (s s1 : State) (e : RxEntry) (f : StateFields), TakenFrame .state s e s1 → e.payload = .state f →
    ∃ t, exec .state s = .next t ∧ t.gu = s.gu ∧ t.cl = s.cl ∧ t.pending = s.pending ∧
      (∀ m, m ≠ e.sender → peer t m = peer s m) ∧
      (∀ role mode, roleOf f.role = some role → modeOf f.mode = some mode →
        rollResultMeaningful f.result f.cancelCause = true → (peer s e.sender).liveness ≠ .silent →
        peer t e.sender = { peer s e.sender with
          role := role, mode := mode, cls := clsOf f.cls, take := f.take, stamp := f.stamp,
          signature := f.signature, ready := f.ready, roll := f.roll, seq := f.seq,
          result := { result := f.result, cause := f.cancelCause, refusal := f.refusal,
                      station := f.causeStation } }) ∧
      ((roleOf f.role = none ∨ modeOf f.mode = none ∨
          rollResultMeaningful f.result f.cancelCause = false) →
        peer t e.sender = peer s e.sender ∧
        t.lc.counters.malformed = min 65535 (s.lc.counters.malformed + 1)) ∧
      ((peer s e.sender).liveness = .silent →
        peer t e.sender = peer s e.sender ∧ t.su.entries = s.su.entries) ∧
      (e.own = false → e.sender ≠ s.cl.station → (peer s e.sender).liveness ≠ .silent →
        t.su.entries.get e.sender =
          { cls := clsOf f.summary, time := f.stopTime, timeFlag := f.timeFlag } ∧
        ∀ m, m ≠ e.sender → t.su.entries.get m = s.su.entries.get m) ∧
      ((e.own = true ∨ e.sender = s.cl.station) → t.su.entries = s.su.entries) ∧
      ∃ u : State,
        (let meaningless := roleOf f.role = none ∨ modeOf f.mode = none ∨
           rollResultMeaningful f.result f.cancelCause = false
         let writes := e.own = false ∧ e.sender ≠ s.cl.station ∧ (peer s e.sender).liveness ≠ .silent
         let new := formEffective { s.su with entries := t.su.entries }
         let trip := if f.timeFlag = true ∧ isParticipant s e.sender = true then f.stopTime else e.mark.time
         ((writes → new = s.su.effective) →
           ChangesOnly [.lc, .pt, .su] s u ∧ (¬ writes → u.su = s.su) ∧
             (writes → u.su = { s.su with entries := t.su.entries }) ∧
             (¬ meaningless → u.lc = s1.lc) ∧ (meaningless → u.lc = (countMalformed s1).lc)) ∧
         (writes →
           u.su.effective = formEffective u.su ∧
           (ClaimsInv s → clsRank s.su.effective < clsRank new → ClassRises new trip s u) ∧
           (clsRank new < clsRank s.su.effective → ClassFalls new s u))) ∧
        (let examines := u.tc.grace = .over ∧ isParticipant u e.sender = true ∧
           (u.tc.mode = .playing ∨ u.tc.mode = .held)
         let astray := fun (x : PlayContext) (n : Station) => inMask x.mask n = true ∧
           (some (peer t n).roll ≠ x.roll ∨
             ((peer t n).mode ≠ .rolling ∧ (peer t n).mode ≠ .playing ∧ (peer t n).mode ≠ .held ∧
               (peer t n).mode ≠ .halted))
         (¬ examines → t = u) ∧
         (∀ x, u.tc.ctx = some x → examines →
           ((∀ n, ¬ astray x n) → t = u) ∧
           ((∃ n, astray x n) → ClaimsInv s →
             (∃ k ∈ t.su.own, k.cause = .peerMismatch ∧ clsGe k.cls .hold) ∧
             ((∃ k ∈ u.su.own, k.cause = .peerMismatch ∧ clsGe k.cls .hold) → t = u) ∧
             t.tc = u.tc ∧ t.fd = u.fd ∧
             (u.su.effective = .none → ClassRises .hold u.pu.t u t) ∧
             (u.su.effective ≠ .none →
               t.su.effective = u.su.effective ∧ ChangesOnly [.lc, .pu, .su] u t))))

/-- STOP_CLAIM and STOP_RELEASE: the summary class, the take time and its flag go into the stop-table entry of
another station that is not SILENT, and the effective class is formed again; the sender's peer entry takes its
effective class, unless that entry is SILENT, in which case neither table is written: log entry 12. A frame of
another node under the own number writes no stop-table entry: log entry 22. A class that the entry raises acts
at once on axes, rates, drive latch and mode, but that a recording stays and is asked for its taint, as log
entry 20 says; the trip time is the take time that a participant carries, or the start mark's T, and the first
one stands. One that falls changes no mode and ends braking; one that stays changes none of them, and of the
stop unit the entry alone (sections 2.3, 3.9, 9.3, 9.7, 11.1, 11.4 and 11.6 to 11.8). -/
def Obligations.StopFramesWriteTheStopTable : Prop :=
  ∀ (s s1 : State) (e : RxEntry) (f : StopFields) (i : Instr),
    (i = .stopClaim ∧ TakenFrame .stopClaim s e s1 ∧ e.payload = .stopClaim f ∨
      i = .stopRelease ∧ TakenFrame .stopRelease s e s1 ∧ e.payload = .stopRelease f) →
    ∃ t, exec i s = .next t ∧ t.gu = s.gu ∧ t.cl = s.cl ∧ t.pending = s.pending ∧
      (∀ m, m ≠ e.sender → peer t m = peer s m) ∧
      ((peer s e.sender).liveness = .silent → t = s1) ∧
      ((peer s e.sender).liveness ≠ .silent →
        peer t e.sender = { peer s e.sender with cls := clsOf f.effective }) ∧
      ((e.own = true ∨ e.sender = s.cl.station) → t.su = s.su) ∧
      (e.own = false → e.sender ≠ s.cl.station → (peer s e.sender).liveness ≠ .silent →
        t.su.entries.get e.sender = { cls := clsOf f.summary, time := f.time, timeFlag := f.timeFlag } ∧
        (∀ m, m ≠ e.sender → t.su.entries.get m = s.su.entries.get m) ∧
        t.su.effective = formEffective t.su ∧
        (let new := formEffective { s.su with entries := t.su.entries }
         let trip := if f.timeFlag = true ∧ isParticipant s e.sender = true then f.time else e.mark.time
         (ClaimsInv s → clsRank s.su.effective < clsRank new → ClassRises new trip s t) ∧
         (clsRank new < clsRank s.su.effective → ClassFalls new s t) ∧
         (new = s.su.effective →
           ChangesOnly [.lc, .pt, .su] s t ∧ t.lc = s1.lc ∧ t.su = { s.su with entries := t.su.entries })))

/-- SILENCE_EXPIRY of a LIVE entry: it becomes SILENT with its other fields kept; a participant in a mode that
watches its peers raises PEER-SILENT with class HALT or above, which raises a class below HALT with all that a rise
does to axes, rates, drive latch and mode, from the state in which the blocks that act before it leave the node; no
axis in REST, JOG, GOTO or OVERRIDE stays with that console; its bulk transfer ends; and a roll window with that
participant is cancelled, back to ARMED for a record roll and to READY otherwise, with the cause of whichever acts
first: STOPPED when the stop unit's claim raises the class before, PARTICIPANT-ABSENT with the station when the
take controller does, or when the class is HALT or above already (sections 2.2, 3.6, 6.5, 7.4, 11.7 and 11.9). A
recording keeps its mode, and is only asked for its taint with the first trip time: log entry 20, with its T as
published from the start of the roll on: log entry 67. The order is the operand of log entry 17. What becomes of
the jog timer of an axis that is let go is log entry 64. -/
def Obligations.SilentStationLetsGo : Prop :=
  ∀ (s : State) (n : Station) (takeControllerFirst axesFirst : Bool), running s = true →
    (peer s n).liveness = .live → (peer s n).silence ≠ none →
    ∃ t, exec (.silenceExpiry n takeControllerFirst axesFirst) s = .next t ∧
      peer t n = { peer s n with liveness := .silent, silence := none } ∧
      (∀ m, m ≠ n → peer t m = peer s m) ∧
      (watchesPeers s.tc.mode = true → isParticipant s n = true →
        (∃ k ∈ t.su.own, k.cause = .peerSilent n ∧ clsGe k.cls .halt) ∧
        (ClaimsInv s → clsRank s.su.effective < clsRank .halt →
          ∃ u, ClassRises .halt s.pu.t u t ∧ u.su = s.su ∧ u.ts.taintTrip = s.ts.taintTrip ∧
            (∀ a, (axesFirst = false ∨ (axisCh s a).ctrl ≠ .console n) → axisCh u a = axisCh s a) ∧
            ((takeControllerFirst = false ∨ s.tc.mode ≠ .rolling) →
              u.tc = s.tc ∧ u.fd = s.fd ∧ u.pu = s.pu)) ∧
        (ClaimsInv s → clsGe s.su.effective .halt →
          t.su.effective = s.su.effective ∧ t.su.driveLatch = s.su.driveLatch)) ∧
      (¬ (watchesPeers s.tc.mode = true ∧ isParticipant s n = true) → t.su = s.su ∧ t.tc = s.tc ∧ t.fd = s.fd) ∧
      (s.tc.mode = .rolling → isParticipant s n = true →
        t.tc.mode = (if s.tc.roll.mode = some .record then .armed else .ready) ∧ t.tc.ctx = s.tc.ctx ∧
        ∃ cause, t.tc.roll = { s.tc.roll with window := none, result := .cancelled cause } ∧
          (takeControllerFirst = true → cause = .participantAbsent n) ∧
          (takeControllerFirst = false → ClaimsInv s →
            cause = if clsGe s.su.effective .halt then .participantAbsent n else .stopped)) ∧
      (∀ a, (axisCh t a).ctrl = .console n →
        (axisCh t a).state ≠ .rest ∧ (axisCh t a).state ≠ .jog ∧ (axisCh t a).state ≠ .goto ∧
          (axisCh t a).state ≠ .override) ∧
      (∀ slot written, t.ts.bulk ≠ .load slot n written) ∧
      (∀ slot k stop since held, t.ts.bulk ≠ .readOut slot n k stop since held) ∧
      t.gu = s.gu ∧ t.cl = s.cl ∧ t.pending = s.pending

/-! ### Chapter 3: the axis channels -/

/-- An accepted JOG: each named axis takes its demand, saturated to the axis's greatest velocity, with the jog
timer started and the sender as its controller when it had none; REST, where the idle release timer stops, and
GOTO, whose segment is abandoned, become JOG. The setpoint and its velocity stay. Axes not named stay as they
are. The answer is DONE, or DONE-CLAMPED when a demand was saturated; a JOG that fails a check is refused with
the first that fails, in their order, and the first named axis that fails it (sections 3.6 and 3.7). That the
refusals for the class and for the drive latch name no axis is log entry 25. -/
def Obligations.JogSetsTheDemand : Prop :=
  (∀ (s s1 : State) (c : Command) (demands : Table (Option (BitVec 32)) 3),
    Delivered pickJog s c demands s1 → movesAreChecked .jog false c demands s s1) ∧
  ∀ (s s1 : State) (c : Command) (demands : Table (Option (BitVec 32)) 3), Delivered pickJog s c demands s1 →
    moveRefusal false c.sender (namedValues demands) s1 = none →
    ∃ t, exec .jog s = .next t ∧ ChangesOnly [.lc, .ax, .lmu] s t ∧
      t.lc = (answerClamped c
        (decide (∃ a v, demands.get a = some v ∧
          clampInt (-(axisCfg s a).vmax) (axisCfg s a).vmax v.toInt ≠ v.toInt)) s1).lc ∧
      t.ax.punches = s.ax.punches ∧ t.ax.samples = s.ax.samples ∧
      (∀ a, demands.get a = none → axisCh t a = axisCh s a ∧ t.lmu.get a = s.lmu.get a) ∧
      (∀ a v, demands.get a = some v →
        (axisCh t a).demand = clampInt (-(axisCfg s a).vmax) (axisCfg s a).vmax v.toInt ∧
        (axisCh t a).jogTimer = some s.cl.cfg.jogTimeout ∧
        (axisCh t a).ctrl =
          (if (axisCh s a).ctrl = .none then .console c.sender else (axisCh s a).ctrl) ∧
        (axisCh t a).state =
          (if (axisCh s a).state = .rest ∨ (axisCh s a).state = .goto then .jog else (axisCh s a).state) ∧
        (axisCh t a).idleTimer = (if (axisCh s a).state = .rest then none else (axisCh s a).idleTimer) ∧
        (axisCh t a).segment = (if (axisCh s a).state = .goto then none else (axisCh s a).segment) ∧
        (axisCh t a).p8 = (axisCh s a).p8 ∧ (axisCh t a).v8 = (axisCh s a).v8)

/-- An accepted GOTO: each named axis enters GOTO on a segment from its present position to the clamped
target, at rest at both ends, on the move clock, of the shared duration: the greatest of 500 ms, the console's and
the travel time of each named axis, cut at 65,535; the setpoint and its velocity stay. Axes not named stay as they
are. The answer is DONE, or DONE-CLAMPED when a target was clamped. A GOTO that fails a check is refused with the
first that fails, in their order, and the first named axis that fails it (sections 3.7 and 3.8). That the refusals
for the class and for the drive latch name no axis is log entry 25. -/
def Obligations.GotoStartsItsSegments : Prop :=
  (∀ (s s1 : State) (c : Command) (d : BitVec 16) (targets : Table (Option (BitVec 32)) 3),
    Delivered pickGoto s c (d, targets) s1 → movesAreChecked .goto true c targets s s1) ∧
  ∀ (s s1 : State) (c : Command) (d : BitVec 16) (targets : Table (Option (BitVec 32)) 3),
    Delivered pickGoto s c (d, targets) s1 →
    moveRefusal true c.sender (namedValues targets) s1 = none →
    ∃ t dur, exec .goto s = .next t ∧ ChangesOnly [.lc, .ax, .lmu] s t ∧
      SharedDuration s d.toNat (fun a => (targets.get a).map BitVec.toInt) dur ∧
      ((∃ a v, targets.get a = some v ∧ clampsTarget s a v.toInt) →
        t.lc = (answerClamped c true s1).lc) ∧
      ((∀ a v, targets.get a = some v → ¬ clampsTarget s a v.toInt) →
        t.lc = (answerClamped c false s1).lc) ∧
      (∀ a, targets.get a = none → axisCh t a = axisCh s a ∧ t.lmu.get a = s.lmu.get a) ∧
      (∀ a v, targets.get a = some v →
        (axisCh t a).state = .goto ∧
        (axisCh t a).segment = some
          { t0 := s.pu.tm, dur := dur, p0 := presentUnits s a, p1 := clampedTarget s a v.toInt, v0 := 0,
            v1 := 0, zeroStart := true, zeroEnd := true } ∧
        (axisCh t a).ctrl =
          (if (axisCh s a).ctrl = .none then .console c.sender else (axisCh s a).ctrl) ∧
        (axisCh t a).demand = 0 ∧ (axisCh t a).jogTimer = none ∧ (axisCh t a).idleTimer = none ∧
        (axisCh t a).p8 = (axisCh s a).p8 ∧ (axisCh t a).v8 = (axisCh s a).v8)

/-- CONTROL-RELEASE that names an axis of another controller is refused with NOT-CONTROLLER and the number of that
axis, the lowest of several as log entry 39 says. One of axes that no other station holds: the sender holds none of
them afterwards but in BRAKING, SEVERED or FAULT; an axis that the sender did not hold, or did not name, stays as
it is, and the answer is DONE (section 3.6). That an axis in BRAKING, SEVERED or FAULT stays as it is, is read as
log entry 26 says. That the jog timer of an axis in JOG runs on is the model's choice of log entry 64, and that a
DISABLED axis may be named, and stays as it is, that of log entry 66. -/
def Obligations.ControlReleaseFreesAxes : Prop :=
  ∀ (s s1 : State) (c : Command) (set : BitVec 3), Delivered pickControlRelease s c set s1 →
    (∀ a : Axis, Least (fun a : Axis => set.getLsbD a.val = true ∧ (axisCh s a).ctrl ≠ .none ∧
        (axisCh s a).ctrl ≠ .console c.sender) a →
      exec .controlRelease s = .next (refuseWith c .notController { number := some a.val } s1)) ∧
    ((∀ a : Axis, set.getLsbD a.val = true → (axisCh s a).ctrl = .none ∨ (axisCh s a).ctrl = .console c.sender) →
    ∃ t, exec .controlRelease s = .next t ∧ ChangesOnly [.lc, .ax, .lmu, .ts] s t ∧
      t.lc = (answerDone c s1).lc ∧
      (∀ a, (set.getLsbD a.val = false ∨ (axisCh s a).ctrl ≠ .console c.sender) → axisCh t a = axisCh s a) ∧
      (∀ a : Axis, set.getLsbD a.val = true → (axisCh s a).ctrl = .console c.sender →
        ((axisCh s a).state = .rest →
          axisCh t a = { axisCh s a with
            ctrl := .none, idleTimer := none, segmentCopy := none,
            followCount := if s.su.driveLatch then (axisCh s a).followCount else 0 }) ∧
        ((axisCh s a).state = .jog →
          axisCh t a = { axisCh s a with ctrl := .none, demand := 0, segmentCopy := none }) ∧
        ((axisCh s a).state = .goto →
          axisCh t a = { axisCh s a with ctrl := .none, segmentCopy := none }) ∧
        ((axisCh s a).state = .override →
          (axisCh t a).ctrl = .take ∧ ((axisCh t a).state = .follow ∨ (axisCh t a).state = .rejoin)) ∧
        (((axisCh s a).state = .braking ∨ (axisCh s a).state = .severed ∨ (axisCh s a).state = .fault) →
          axisCh t a = axisCh s a)))

/-- FAULT-CLEAR of an axis in FAULT whose encoder gives valid words: the axis tracks its last valid position
with no velocity, both causes and both claims are gone, and it stands as the effective class then has it: in
REST below HALT, in BRAKING at HALT, SEVERED at SEVER (sections 3.3 and 3.9). The answer is DONE, handed over
last, as log entry 44 says. An axis not in FAULT is answered DONE and not changed; one without valid words is
refused with STOPPED, and a DISABLED one with NOT-CONTROLLER (section 3.1), as is a number above 2, by log entry
25. -/
def Obligations.FaultClearReturnsToRest : Prop :=
  ∀ (s s1 : State) (c : Command) (number : Nat), Delivered pickFaultClear s c number s1 →
    ((2 < number ∨ (∃ i : Axis, number = i.val ∧ (axisCh s i).state = .disabled)) →
      exec .faultClear s = .next (refuseWith c .notController { name := .disabled } s1)) ∧
    ∀ i : Axis, number = i.val → (axisCh s i).state ≠ .disabled →
    ((axisCh s i).state ≠ .fault → exec .faultClear s = .next (answerDone c s1)) ∧
    ((axisCh s i).state = .fault → (axisCh s i).lossCount ≠ 0 →
      exec .faultClear s = .next (refuseWith c .stopped { name := .encoder } s1)) ∧
    ((axisCh s i).state = .fault → (axisCh s i).lossCount = 0 →
      ∃ t, exec .faultClear s = .next (answerDone c t) ∧ ChangesOnly [.lc, .pt, .ax, .lmu, .ts, .pu, .su] s t ∧
        (axisCh t i).state =
          (match t.su.effective with | .sever => .severed | .halt => .braking | _ => .rest) ∧
        (axisCh t i).p8 = 256 * clampInt (axisCfg s i).smin (axisCfg s i).smax (axisCh s i).lastValid ∧
        (axisCh t i).v8 = 0 ∧ (axisCh t i).followCount = 0 ∧ (axisCh t i).faultFollow = false ∧
        (axisCh t i).faultEncoder = false ∧
        (∀ k ∈ t.su.own, k.cause ≠ .follow i ∧ k.cause ≠ .encoder i) ∧
        (∀ k ∈ s.su.own, k.cause ≠ .follow i → k.cause ≠ .encoder i → k ∈ t.su.own))

/-- QUIET_TIME_EXPIRY ends the quiet time and asks for a STATE frame, and STATE_PERIOD_EXPIRY hands one over; both
restart the state period timer. The frame shows the node as it stands: role, mode, class, claim summary, detail
flags, take with stamp and signature, ready flag, roll number and result, sequence, pass context and axis summaries
(sections 1.3, 2.3 and 13.5; that a result which names no reason or station shows 0 is log entry 58, that a refusal
reason shows its low three bits log entry 32, that drive-enable asks for a clear open latch too log entry 57, and
that pass levels above the depth show 0 log entry 69). JOG_TIMEOUT makes the demand 0 and IDLE_RELEASE_EXPIRY makes
the controller NONE; each stops its timer and changes nothing else (sections 3.6 and 3.7). PACE_PERIOD_EXPIRY hands
over a PACE frame with the local ceiling as it is and restarts the pace period timer (section 9.2). -/
def Obligations.TimersExpire : Prop :=
  (∀ s : State, StateShows s (stateFields s)) ∧
  (∀ s : State, running s = true → s.lc.link ≠ .fault →
     (s.lc.quiet ≠ none →
       ∃ t, exec .quietTimeExpiry s = .next t ∧ t.lc.quiet = none ∧
         t.lc.txq = (queueFrame (.state (stateFields s)) s.lc.txq).1 ∧
         t.pt = { s.pt with stateTimer := some s.cl.cfg.statePeriod } ∧ ChangesOnly [.lc, .pt] s t) ∧
     (s.pt.stateTimer ≠ none →
       ∃ t, exec .statePeriodExpiry s = .next t ∧ SameLink s t ∧
         t.lc.txq = (queueFrame (.state (stateFields s)) s.lc.txq).1 ∧
         t.pt = { s.pt with stateTimer := some s.cl.cfg.statePeriod } ∧ ChangesOnly [.lc, .pt] s t)) ∧
  (∀ (s : State) (i : Axis),
     ((axisCh s i).jogTimer ≠ none →
       ∃ t, exec (.jogTimeout i) s = .next t ∧ ChangesOnly [.ax] s t ∧ OtherAxes i s t ∧
         t.ax.punches = s.ax.punches ∧ t.ax.samples = s.ax.samples ∧
         axisCh t i = { axisCh s i with demand := 0, jogTimer := none }) ∧
     ((axisCh s i).idleTimer ≠ none →
       ∃ t, exec (.idleReleaseExpiry i) s = .next t ∧ ChangesOnly [.ax] s t ∧ OtherAxes i s t ∧
         t.ax.punches = s.ax.punches ∧ t.ax.samples = s.ax.samples ∧
         axisCh t i = { axisCh s i with ctrl := .none, idleTimer := none })) ∧
  (∀ s : State, pacesIn s.tc.mode = true → s.pu.paceTimer ≠ none →
    ∃ t, exec .pacePeriodExpiry s = .next t ∧ ChangesOnly [.lc, .pu] s t ∧
      t.pu = { s.pu with announced := localCeiling s, paceTimer := some s.cl.cfg.pacePeriod } ∧
      (s.lc.link ≠ .fault →
        t.lc.txq = (queueFrame (.pace { time := s.pu.t, rate := BitVec.ofNat 16 s.pu.r,
                                        ceiling := BitVec.ofNat 16 (localCeiling s) }) s.lc.txq).1))

/-- SERVO_UPDATE of a configured channel: the loss count and the last valid position follow the encoder words, and
the drive setpoint output is the rounded setpoint that the update leaves. The lens-end flag of a lens axis is set
exactly when the forward conversion of the segment that the update evaluates clamped, or the output lies outside
the count span of the active map: the pending one where a fault or a new segment makes it active; the arrival test
converts the end of a complete segment, which is what the update itself converts. Any other channel has no lens-end
flag. Unless a fault is entered, the update touches no other channel, no claim and no take (sections 3.1, 3.2, 3.4,
4.3, 5.4 and 5.6). During START, and for a DISABLED channel, nothing happens (sections 3.1 and 13.1). -/
def Obligations.ServoUpdateWritesItsOutput : Prop :=
  ∀ (s : State) (i : Axis) (words : List (BitVec 40)) (holdFirst : Bool),
    ((running s = false ∨ (axisCh s i).state = .disabled) →
      exec (.servoUpdate i words holdFirst) s = .next s) ∧
    (running s = true → (axisCh s i).state ≠ .disabled →
      ∃ t, exec (.servoUpdate i words holdFirst) s = .next t ∧
        (axisCh t i).output = rndDiv (axisCh t i).p8 256 ∧
        (axisCh t i).lastValid = (latestPosition words).getD (axisCh s i).lastValid ∧
        (axisCh t i).lossCount =
          (if (latestPosition words).isSome then 0
           else min (axisCfg s i).lossLimit ((axisCh s i).lossCount + 1)) ∧
        (isLens s i = false → (axisCh t i).lensEnd = false) ∧
        (isLens s i = true → ∃ m : LensMap,
          (faultsAt s i words ∨ beginsAt s i → m = (s.lmu.get i).pending.getD (s.lmu.get i).active) ∧
          (¬ (faultsAt s i words ∨ beginsAt s i) → m = (s.lmu.get i).active) ∧
          ((axisCh t i).lensEnd = true ↔
            (¬ faultsAt s i words ∧ ∃ g clock, evaluatesAt s i g clock ∧ (forward m (evalSegment g clock)).2 = true) ∨
              offSpan m (axisCh t i).output)) ∧
        t.gu = s.gu ∧ t.cl = s.cl ∧ t.pending = s.pending ∧
        (lossReaches (axisCfg s i) (axisCh s i) (latestPosition words) = false →
          followReaches (axisCfg s i) s.su.driveLatch (axisCh s i) (latestPosition words) = false →
          OtherAxes i s t ∧ t.su = s.su ∧ t.ts = s.ts ∧ t.ax.punches = s.ax.punches ∧
          t.ax.samples = s.ax.samples ∧ (∀ j, j ≠ i → t.lmu.get j = s.lmu.get j)))

/-- How a servo update that enters no fault moves the setpoint, state by state (Table 3-1; sections 3.5, 3.8, 3.9,
4.1, 4.3 to 4.5, 5.6 and 12.3): tracking in SEVERED and FAULT, and with the drive latch clear in REST and in
BRAKING at rest; the jog step in REST, JOG and OVERRIDE; the halt braking step in BRAKING; the limiter toward the
segment's target in GOTO, until the move ends under HOLD, and toward its end once the segment is complete, where an
axis whose encoder lies outside the arrival window stays in GOTO; in REJOIN before its end time and in FOLLOW,
which a REJOIN at its end time enters; toward the held setpoint in FOLLOW without a segment. A new segment takes a
pending lens map first. The clamp flag is formed in BRAKING too, and reported in FOLLOW and GOTO alone, by the
state at the end of the update, as log entry 24 says; what it compares with in BRAKING is the model's choice of log
entry 62. An axis that tracks ends the update with its following counter at 0, also one that begins to (sections
3.3 and 3.5). Which axes track with the latch clear is read as log entry 16 says. What a GOTO does that is still
open 2^31 tu past its start is the model's choice of log entry 60. The clause on the end of a GOTO under HOLD looks
at the present move rate, published or not: the model's choice of log entry 48. -/
def Obligations.ServoUpdateMovesByState : Prop :=
  ∀ (s : State) (i : Axis) (words : List (BitVec 40)) (holdFirst : Bool),
    running s = true → (axisCh s i).state ≠ .disabled →
    lossReaches (axisCfg s i) (axisCh s i) (latestPosition words) = false →
    followReaches (axisCfg s i) s.su.driveLatch (axisCh s i) (latestPosition words) = false →
    ∃ t, exec (.servoUpdate i words holdFirst) s = .next t ∧
      let a := axisCfg s i
      let c := axisCh s i
      let d := axisCh t i
      let moves := fun (w : Int) =>
        d.p8 = (limiter a w c.p8 c.v8).p8 ∧ d.v8 = (limiter a w c.p8 c.v8).v8 ∧
          d.clampFlag = (limiter a w c.p8 c.v8).clamped
      let maps := s.lmu.get i
      let follows := fun (m : LensMap) (g : Segment) (clock : TakeTime) =>
        let p := evalSegment g clock
        moves (256 * clampInt a.smin a.smax (if a.kind.isLens then (forward m p).1 else p) - c.p8)
      let tracks := d.v8 = 0 ∧ d.p8 = (match latestPosition words with
        | some p => 256 * clampInt a.smin a.smax p
        | none => c.p8)
      let rests := d.v8 = 0 ∧ ¬ clsGe s.su.effective .halt
      let endsUnder := s.pu.rm = 0 ∧ clsGe s.su.effective .hold
      let head := s.fd.queue.head?.map fun e => segmentOf e i
      let followStep :=
        d.state = .follow ∧ d.segment = none ∧
        (∀ g, head = some g →
          d.segmentCopy = some g ∧
          (c.segmentCopy = some g → follows maps.active g s.pu.t ∧ t.lmu.get i = maps) ∧
          (c.segmentCopy ≠ some g →
            follows (maps.pending.getD maps.active) g s.pu.t ∧
            t.lmu.get i = { maps with active := maps.pending.getD maps.active, pending := none })) ∧
        (∀ g, head = none → c.segmentCopy = some g → follows maps.active g s.pu.t) ∧
        (head = none → c.segmentCopy = none → moves (256 * rndDiv c.p8 256 - c.p8))
      ((c.state = .severed ∨ c.state = .fault ∨ (c.state = .rest ∧ s.su.driveLatch = false)) →
        tracks ∧ d.state = c.state) ∧
      (c.state = .braking → s.su.driveLatch = false → c.v8 = 0 →
        tracks ∧ d.state = if rests then .rest else .braking) ∧
      (c.state = .rest → s.su.driveLatch = true → moves 0 ∧ d.state = .rest) ∧
      ((c.state = .jog ∨ c.state = .override) →
        moves (rndDiv (c.demand * s.gu.ceiling * s.cl.cfg.servoPeriod * 256) (1024 * 1000))) ∧
      (c.state = .jog → d.state = if d.v8 = 0 ∧ c.demand = 0 then .rest else .jog) ∧
      (c.state = .braking → (s.su.driveLatch = true ∨ c.v8 ≠ 0) →
        d.p8 = (brakingStep a c.p8 c.v8).1 ∧ d.v8 = (brakingStep a c.p8 c.v8).2 ∧
          (d.clampFlag = true ↔ d.v8 ≠ c.v8.sign * max 0 ((c.v8.natAbs : Int) - a.ahalt8)) ∧
          d.state = (if rests then .rest else .braking)) ∧
      (∀ g, c.state = .goto → c.segment = some g →
        follows maps.active g s.pu.tm ∧
        (endsUnder → d.state = .rest ∧ d.segment = none) ∧
        (1 ≤ g.dur → 1024 * (g.dur : Int) ≤ (s.pu.tm - g.t0).toInt →
          moves (256 * clampInt a.smin a.smax (if a.kind.isLens then (forward maps.active g.p1).1 else g.p1) -
            c.p8)) ∧
        (¬ endsUnder → (latestPosition words = none ∨ (s.pu.tm - g.t0).toInt < 1024 * (g.dur : Int) ∨
            ∃ p, latestPosition words = some p ∧ a.arrivalWindow < ((p - targetCount s i g.p1).natAbs : Int)) →
          d.state = .goto ∧ d.segment = some g)) ∧
      (∀ g, c.state = .rejoin → c.segment = some g → (s.pu.t - c.rejoinTime).toInt < 0 →
        follows maps.active g s.pu.t ∧ d.state = .rejoin ∧ d.segment = some g) ∧
      (c.state = .rejoin → 0 ≤ (s.pu.t - c.rejoinTime).toInt → followStep) ∧
      (c.state = .follow → followStep) ∧
      (s.su.driveLatch = false → (d.state = .rest ∨ (d.state = .braking ∧ d.v8 = 0)) → d.followCount = 0) ∧
      t.pu.clampReport =
        (s.pu.clampReport || (decide (d.state = .follow ∨ d.state = .goto) && d.clampFlag))

/-- A GOTO axis arrives at the first update at which its segment is complete and the encoder value lies within the
arrival window of the target count: it enters REST, and reports the arrival when its controller is TAKE; with the
last report of a CUE the station is READY, and with that of a RECOVER it is READY with the recovery mark, the
restart sequence that the RECOVER named, and the restart entry's T0 as its start take time. At any other update
nothing is reported: the axis stays in GOTO on its segment, but that it enters REST where the move ends under HOLD;
and where that end falls at the update of the arrival, and is taken first, nothing is reported either (sections
3.8, 7.3 and 11.10). Which of the two is taken first is the operand of log entry 17; that the present move rate
counts as published is log entry 48; and what becomes of a GOTO still open 2^31 tu past its start is log entry 60.
-/
def Obligations.ArrivalEndsTheMove : Prop :=
  ∀ (s : State) (i : Axis) (words : List (BitVec 40)) (holdFirst : Bool) (g : Segment),
    running s = true → (axisCh s i).state = .goto → (axisCh s i).segment = some g →
    lossReaches (axisCfg s i) (axisCh s i) (latestPosition words) = false →
    followReaches (axisCfg s i) s.su.driveLatch (axisCh s i) (latestPosition words) = false →
    let arrives := 1024 * (g.dur : Int) ≤ (s.pu.tm - g.t0).toInt ∧ ∃ p, latestPosition words = some p ∧
      ((p - targetCount s i g.p1).natAbs : Int) ≤ (axisCfg s i).arrivalWindow
    let endsUnder := s.pu.rm = 0 ∧ clsGe s.su.effective .hold
    ∃ t, exec (.servoUpdate i words holdFirst) s = .next t ∧
      (¬ arrives → t.tc = s.tc ∧
        (¬ endsUnder → (axisCh t i).state = .goto ∧ (axisCh t i).segment = some g) ∧
        (endsUnder → (axisCh t i).state = .rest ∧ (axisCh t i).segment = none)) ∧
      (arrives → (axisCh t i).state = .rest ∧ (axisCh t i).segment = none ∧
        (holdFirst = true → endsUnder → t.tc = s.tc) ∧
        ((axisCh s i).ctrl ≠ .take → t.tc = s.tc) ∧
        ((holdFirst = false ∨ ¬ endsUnder) → (axisCh s i).ctrl = .take →
          t.tc.arrivals.get i = true ∧ (∀ j, j ≠ i → t.tc.arrivals.get j = s.tc.arrivals.get j) ∧
          (s.tc.mode = .cueing → (∀ j, j ≠ i → configured s j = true → s.tc.arrivals.get j = true) →
            t.tc.mode = .ready ∧ t.tc.ctx = s.tc.ctx) ∧
          (∀ e, s.tc.mode = .recovering → s.fd.restart = some e →
            (∀ j, j ≠ i → configured s j = true → s.tc.arrivals.get j = true) →
            t.tc.mode = .ready ∧ t.fd.restart = some e ∧
              t.tc.ctx = s.tc.ctx.map fun x => { x with
                recovery := true, restartSeq := x.pendingRestart, pendingRestart := none, startTime := e.t0 }) ∧
          ((∃ j, j ≠ i ∧ configured s j = true ∧ s.tc.arrivals.get j = false) →
            t.tc.mode = s.tc.mode ∧ t.tc.ctx = s.tc.ctx)))

/-- FOLLOWING_FAULT and ENCODER_FAULT, at an update whose count reaches its limit: the axis is in FAULT with the
cause kept, no velocity, no demand, no timers and no segment, and the claim stands: FOLLOW with class HALT or
above, ENCODER with class SEVER (sections 3.2 and 3.3). Where that raises the class, it does to the other axes, the
rates, the drive latch and the mode what a rise does, and otherwise none of them changes (sections 3.9, 9.3 and
11.6 to 11.8). A recording keeps its mode, and is only asked for its taint with the first trip time: log entry 20,
with its T as published from the start of the roll on: log entry 67. That these rows are the servo update at which
the count is reached, and no event at any other, is log entry 18. -/
def Obligations.FaultsRaiseTheirClaims : Prop :=
  ∀ (s : State) (i : Axis) (words : List (BitVec 40)), running s = true →
    (axisCh s i).state ≠ .disabled →
    let acts := fun (cls : Cls) (t : State) => ClaimsInv s →
      (clsRank s.su.effective < clsRank cls →
        ∃ u, ChangesOnly [.ax, .lmu, .ts] s u ∧ u.ts.taintTrip = s.ts.taintTrip ∧ OtherAxes i s u ∧
          axisCh u i = axisCh t i ∧ ClassRises cls s.pu.t u t) ∧
      (clsRank cls ≤ clsRank s.su.effective → ClassStays s t ∧ OtherAxes i s t)
    (lossReaches (axisCfg s i) (axisCh s i) (latestPosition words) = true →
      ∃ t, exec (.encoderFault i words) s = .next t ∧
        exec (.servoUpdate i words false) s = .next t ∧
        (axisCh t i).state = .fault ∧ (axisCh t i).faultEncoder = true ∧ (axisCh t i).v8 = 0 ∧
        (axisCh t i).demand = 0 ∧ (axisCh t i).jogTimer = none ∧ (axisCh t i).idleTimer = none ∧
        (axisCh t i).segment = none ∧ (∃ k ∈ t.su.own, k.cause = .encoder i ∧ k.cls = .sever) ∧
        acts .sever t) ∧
    (lossReaches (axisCfg s i) (axisCh s i) (latestPosition words) = false →
      exec (.encoderFault i words) s = .next s) ∧
    (lossReaches (axisCfg s i) (axisCh s i) (latestPosition words) = false →
      followReaches (axisCfg s i) s.su.driveLatch (axisCh s i) (latestPosition words) = true →
      ∃ t, exec (.followingFault i words) s = .next t ∧
        exec (.servoUpdate i words false) s = .next t ∧
        (axisCh t i).state = .fault ∧ (axisCh t i).faultFollow = true ∧ (axisCh t i).v8 = 0 ∧
        (axisCh t i).demand = 0 ∧ (axisCh t i).jogTimer = none ∧ (axisCh t i).idleTimer = none ∧
        (axisCh t i).segment = none ∧ (∃ k ∈ t.su.own, k.cause = .follow i ∧ clsGe k.cls .halt) ∧
        acts .halt t) ∧
    (followReaches (axisCfg s i) s.su.driveLatch (axisCh s i) (latestPosition words) = false →
      exec (.followingFault i words) s = .next s)

/-! ### Chapter 4: the arithmetic of the setpoint -/

/-- rnd(n/d) is a nearest integer to n/d, and a tie goes away from zero (chapter "Numbers and rounding"). The
phase of a segment by its three cases, with the signed difference right across the wrap of the clock for every
length a take can have (R51). The blend: the sum Q of the weighted ends and tangents, exactly the start position
at phase 0 and the end position at phase 65,536, with every product and the sum inside 64 bits; so a segment
gives its start position until the clock passes its start, and its end position from its end on (R54). -/
def Obligations.SegmentPhaseAndBlend : Prop :=
  (∀ n d : Int, d ≠ 0 →
     2 * (d * rndDiv n d - n).natAbs ≤ d.natAbs ∧
     (2 * (d * rndDiv n d - n).natAbs = d.natAbs → n.natAbs ≤ (d * rndDiv n d).natAbs) ∧
     rndDiv (-n) d = -rndDiv n d ∧ rndDiv n (-d) = -rndDiv n d) ∧
  (∀ (clock t0 : TakeTime) (dur : Nat), 1 ≤ dur →
     let e := (clock - t0).toInt
     let s := phase clock t0 dur
     (e ≤ 0 → s = 0) ∧ (1024 * (dur : Int) ≤ e → s = 65536) ∧
     (0 < e → e < 1024 * (dur : Int) → dur * s ≤ e * 64 ∧ e * 64 < dur * (s + 1)) ∧
     0 ≤ s ∧ s ≤ 65536 ∧ (e * 64).natAbs < 2 ^ 63) ∧
  (∀ (t0 : TakeTime) (d : Nat), d ≤ 8192 * 250 * 1024 → (t0 + BitVec.ofNat 32 d - t0).toInt = d) ∧
  (∀ p0 p1 m0 m1 s : Int, 0 ≤ s → s ≤ 65536 →
     let s2 := s * s / 65536
     let s3 := s2 * s / 65536
     let h01 := 3 * s2 - 2 * s3
     let h10 := s3 - 2 * s2 + s
     let h11 := s3 - s2
     let q := h01 * (p1 - p0) + h10 * m0 + h11 * m1
     blend p0 p1 m0 m1 s = p0 + rndDiv q 65536 ∧
     (s = 0 → q = 0 ∧ blend p0 p1 m0 m1 s = p0) ∧
     (s = 65536 → q = 65536 * (p1 - p0) ∧ blend p0 p1 m0 m1 s = p1) ∧
     (p0.natAbs ≤ 2 ^ 31 → p1.natAbs ≤ 2 ^ 31 → m0.natAbs ≤ 549747360 → m1.natAbs ≤ 549747360 →
       (h01 * (p1 - p0)).natAbs < 2 ^ 63 ∧ (h10 * m0).natAbs < 2 ^ 63 ∧ (h11 * m1).natAbs < 2 ^ 63 ∧
         q.natAbs < 2 ^ 63 ∧ (blend p0 p1 m0 m1 s).natAbs < 2 ^ 63)) ∧
  (∀ (g : Segment) (clock : TakeTime), 1 ≤ g.dur →
     ((clock - g.t0).toInt ≤ 0 → evalSegment g clock = g.p0) ∧
     (1024 * (g.dur : Int) ≤ (clock - g.t0).toInt → evalSegment g clock = g.p1))

/-- The basis weights of a phase s between 0 and 65,536, with s2 and s3 as the rule forms them, and the blend
that they weigh (R52); and the tangents of a segment, 0 where its forced-zero flag is set, and within
±549,747,360 for the durations and velocities that a segment may hold (R53). -/
def Obligations.BasisWeightsAndTangents : Prop :=
  (∀ p0 p1 m0 m1 s : Int, 0 ≤ s → s ≤ 65536 →
     ∃ s2 s3 h00 h01 h10 h11 : Int,
       65536 * s2 ≤ s * s ∧ s * s < 65536 * (s2 + 1) ∧ 65536 * s3 ≤ s2 * s ∧ s2 * s < 65536 * (s3 + 1) ∧
       0 ≤ s2 ∧ s2 ≤ 65536 ∧ 0 ≤ s3 ∧ s3 ≤ 65536 ∧
       h00 = 65536 - 3 * s2 + 2 * s3 ∧ h01 = 65536 - h00 ∧ h10 = s3 - 2 * s2 + s ∧ h11 = s3 - s2 ∧
       h11 ≤ 0 ∧ 0 ≤ h10 ∧
       (s = 0 → h00 = 65536 ∧ h01 = 0 ∧ h10 = 0 ∧ h11 = 0) ∧
       (s = 65536 → s2 = 65536 ∧ s3 = 65536 ∧ h00 = 0 ∧ h01 = 65536 ∧ h10 = 0 ∧ h11 = 0) ∧
       blend p0 p1 m0 m1 s = p0 + rndDiv (h01 * (p1 - p0) + h10 * m0 + h11 * m1) 65536) ∧
  (∀ (dur : Nat) (v : Int) (zero : Bool),
    tangent dur v zero = (if zero = true then 0 else rndDiv (dur * v) 1000) ∧
    (dur ≤ 65535 → v.natAbs ≤ 8388607 → (tangent dur v zero).natAbs ≤ 549747360)) ∧
  (∀ (g : Segment) (clock : TakeTime), evalSegment g clock =
    blend g.p0 g.p1 (tangent g.dur g.v0 g.zeroStart) (tangent g.dur g.v1 g.zeroEnd)
      (phase clock g.t0 g.dur))

/-- The limiter: the wanted velocity is clamped into the acceleration window and then into the braking bound of
either limit, the lesser of the greatest velocity and the integer square root of R59, which prevails over the
window; then the setpoint is placed on a limit that it would pass (section 4.4). From inside the law of the
setpoint it stays inside it, the new setpoint is the old one plus the new velocity, and the clamp flag says whether
that is the wanted one. The halt braking step: the velocity loses the halt deceleration in magnitude, down to 0,
and the setpoint moves by it, placed on a limit that it would pass with the velocity then what is left of the way.
From inside the law of the setpoint it stays inside it, the velocity never grows in magnitude and never changes
sign, an axis at rest stays at rest, and the setpoint moves by the new velocity (section 4.5). -/
def Obligations.LimiterBoundsTheSetpoint : Prop :=
  (∀ (a : AxisConfig) (w p8 v8 : Int), AxisParams a →
     ∃ qUp qDown : Int,
       let dUp := max 0 (256 * a.smax - p8)
       let dDown := max 0 (p8 - 256 * a.smin)
       let bUp := min a.vmax8 qUp
       let bDown := min a.vmax8 qDown
       let v := max (-bDown) (min bUp (max (v8 - a.amax8) (min (v8 + a.amax8) w)))
       let r := limiter a w p8 v8
       0 ≤ qUp ∧ qUp * qUp ≤ 2 * a.amax8 * dUp ∧ 2 * a.amax8 * dUp < (qUp + 1) * (qUp + 1) ∧
       0 ≤ qDown ∧ qDown * qDown ≤ 2 * a.amax8 * dDown ∧
         2 * a.amax8 * dDown < (qDown + 1) * (qDown + 1) ∧
       (bUp < v8 - a.amax8 → v = bUp) ∧ (v8 + a.amax8 < -bDown → v = -bDown) ∧
       (256 * a.smin ≤ p8 + v → p8 + v ≤ 256 * a.smax → r.p8 = p8 + v ∧ r.v8 = v) ∧
       (256 * a.smax < p8 + v → r.p8 = 256 * a.smax ∧ r.v8 = 256 * a.smax - p8) ∧
       (p8 + v < 256 * a.smin → r.p8 = 256 * a.smin ∧ r.v8 = 256 * a.smin - p8) ∧
       (r.clamped = false ↔ r.v8 = w)) ∧
  (∀ (a : AxisConfig) (c : AxisChannel) (w : Int), AxisParams a → SetpointHolds a c →
     let r := limiter a w c.p8 c.v8
     256 * a.smin ≤ r.p8 ∧ r.p8 ≤ 256 * a.smax ∧ (r.v8.natAbs : Int) ≤ a.vmax8 ∧ r.p8 = c.p8 + r.v8 ∧
       (0 ≤ r.v8 → r.v8 * r.v8 ≤ 2 * a.amax8 * (256 * a.smax - c.p8)) ∧
       (r.v8 ≤ 0 → r.v8 * r.v8 ≤ 2 * a.amax8 * (c.p8 - 256 * a.smin)) ∧
       (c.v8 + a.amax8 < r.v8 → r.v8 ≤ 0) ∧ (r.v8 < c.v8 - a.amax8 → 0 ≤ r.v8)) ∧
  (∀ (a : AxisConfig) (p8 v8 : Int), AxisParams a →
     let v := v8.sign * max 0 ((v8.natAbs : Int) - a.ahalt8)
     let r := brakingStep a p8 v8
     (256 * a.smin ≤ p8 + v → p8 + v ≤ 256 * a.smax → r = (p8 + v, v)) ∧
       (256 * a.smax < p8 + v → r = (256 * a.smax, 256 * a.smax - p8)) ∧
       (p8 + v < 256 * a.smin → r = (256 * a.smin, 256 * a.smin - p8))) ∧
  (∀ (a : AxisConfig) (c : AxisChannel), AxisParams a → SetpointHolds a c →
     let r := brakingStep a c.p8 c.v8
     256 * a.smin ≤ r.1 ∧ r.1 ≤ 256 * a.smax ∧ r.1 = c.p8 + r.2 ∧
       (r.2.natAbs : Int) ≤ max 0 ((c.v8.natAbs : Int) - a.ahalt8) ∧ 0 ≤ r.2 * c.v8 ∧
       (c.v8 = 0 → r = (c.p8, 0)))

/-! ### Chapter 5: lens maps -/

/-- The conversions of a valid map.  Forward: a unit beyond an end gives that end's count and clamps, any other
the count that the lowest interval containing it interpolates, in the count span of the map (section 5.3).  Inverse:
a count beyond an end, by the map's direction, gives that end's unit and uses no interval, any other the unit
that the lowest interval containing it interpolates, in the unit range of the map (R71).  The velocity
conversion uses the same interval, and gives 0 where none is used (section 4.6).  No product of either
conversion leaves 64 bits. -/
def Obligations.LensMapConversions : Prop :=
  ∀ (m : LensMap) (first last : LensPoint), mapValid m = true → m.head? = some first →
    m.getLast? = some last →
    let small := ∀ r ∈ m, 0 ≤ r.unit ∧ r.unit ≤ 65535 ∧ r.count.natAbs ≤ 2 ^ 31
    let between := fun (a b c : Int) => min a b ≤ c ∧ c ≤ max a b
    (∀ u : Int,
      (u < first.unit → forward m u = (first.count, true)) ∧
      (last.unit < u → forward m u = (last.count, true)) ∧
      (∀ (i : Nat) (p q : LensPoint), m[i]? = some p → m[i + 1]? = some q →
        p.unit ≤ u → u ≤ q.unit →
        (∀ (j : Nat) (r t : LensPoint), j < i → m[j]? = some r → m[j + 1]? = some t →
          ¬ (r.unit ≤ u ∧ u ≤ t.unit)) →
        forward m u = (p.count + rndDiv ((u - p.unit) * (q.count - p.count)) (q.unit - p.unit), false) ∧
          (small → ((u - p.unit) * (q.count - p.count)).natAbs < 2 ^ 63)) ∧
      (first.unit ≤ u → u ≤ last.unit → ∃ (i : Nat) (p q : LensPoint), m[i]? = some p ∧
        m[i + 1]? = some q ∧ p.unit ≤ u ∧ u ≤ q.unit) ∧
      between first.count last.count (forward m u).1) ∧
    (∀ c : Int,
      ((first.count < last.count ∧ c < first.count ∨ last.count < first.count ∧ first.count < c) →
        inverseWith m c = (first.unit, none) ∧ ∀ v, lensVelocity m c v = 0) ∧
      ((first.count < last.count ∧ last.count < c ∨ last.count < first.count ∧ c < last.count) →
        inverseWith m c = (last.unit, none) ∧ ∀ v, lensVelocity m c v = 0) ∧
      (∀ (i : Nat) (p q : LensPoint), m[i]? = some p → m[i + 1]? = some q → between p.count q.count c →
        (∀ (j : Nat) (r t : LensPoint), j < i → m[j]? = some r → m[j + 1]? = some t →
          ¬ between r.count t.count c) →
        inverseWith m c =
            (p.unit + rndDiv ((c - p.count) * (q.unit - p.unit)) (q.count - p.count), some (p, q)) ∧
          (∀ v, lensVelocity m c v = satVel (rndDiv (v * (q.unit - p.unit)) (q.count - p.count))) ∧
          (small → ((c - p.count) * (q.unit - p.unit)).natAbs < 2 ^ 63)) ∧
      (between first.count last.count c → ∃ (i : Nat) (p q : LensPoint), m[i]? = some p ∧
        m[i + 1]? = some q ∧ between p.count q.count c) ∧
      inverse m c = (inverseWith m c).1 ∧ first.unit ≤ inverse m c ∧ inverse m c ≤ last.unit)

/-- An accepted LENS-POINT: the slot of the shadow holds the clamped pair, the sender is the writer, a shadow
that another station filled is emptied first, and the active and pending maps stay; the answer says whether
a value was clamped (section 5.5). A LENS-COMMIT of n points that the sender wrote, strictly rising in unit
and strictly running in count: the new map is made of slots 0 to n - 1; it is pending in FOLLOW, OVERRIDE
and REJOIN and active at once in any other state; the shadow stays (section 5.5). It is a valid map. A command
that fails a check is refused with the first that fails, in the order of section 5.5, and the first index that
fails it; that a number above 2 names no axis is log entry 25. -/
def Obligations.LensMapsAreWritten : Prop :=
  (∀ (s s1 : State) (c : Command) (number index unit : Nat) (count : Int),
     Delivered pickLensPoint s c (number, index, unit, count) s1 →
     let refused := fun (r : Reason) (d : Detail) => exec .lensPoint s = .next (refuseWith c r d s1)
     (namedAxis s1 number = none → refused .notController { name := .disabled }) ∧
     (∀ i, namedAxis s1 number = some i →
       ((axisCfg s i).kind.isLens = false → refused .mapInvalid { name := .notLens }) ∧
       ((axisCfg s i).kind.isLens = true → 16 ≤ index → refused .mapInvalid { name := .index }))) ∧
  (∀ (s s1 : State) (c : Command) (number n : Nat), Delivered pickLensCommit s c (number, n) s1 →
     let refused := fun (r : Reason) (d : Detail) => exec .lensCommit s = .next (refuseWith c r d s1)
     let rises := fun (f : LensPoint → Int) (m : LensMap) => (m.map f).Pairwise (· < ·)
     let falls := fun (f : LensPoint → Int) (m : LensMap) => (m.map f).Pairwise (· > ·)
     (namedAxis s1 number = none → refused .notController { name := .disabled }) ∧
     (∀ i, namedAxis s1 number = some i →
       ((axisCfg s i).kind.isLens = false → refused .mapInvalid { name := .notLens }) ∧
       ((axisCfg s i).kind.isLens = true →
         ((s.lmu.get i).writer ≠ some c.sender → refused .mapInvalid { name := .writer }) ∧
         ((s.lmu.get i).writer = some c.sender →
           ((n < 2 ∨ 16 < n) → refused .mapInvalid { name := .count }) ∧
           (2 ≤ n → n ≤ 16 →
             (∀ k : Fin 16, k.val < n → Least (fun j => (s.lmu.get i).shadow.get j = none) k →
               refused .mapInvalid { name := .empty, number := some k.val }) ∧
             (∀ new : LensMap, (s.lmu.get i).shadow.rows.take n = new.map some →
               (∀ j p q, new[j]? = some p → new[j + 1]? = some q → rises LensPoint.unit (new.take (j + 1)) →
                 q.unit ≤ p.unit → refused .mapInvalid { name := .units, number := some (j + 1) }) ∧
               (∀ first second more, rises LensPoint.unit new → new = first :: second :: more →
                 (first.count = second.count → refused .mapInvalid { name := .counts, number := some 1 }) ∧
                 (∀ j p q, new[j]? = some p → new[j + 1]? = some q →
                   (first.count < second.count → rises LensPoint.count (new.take (j + 1)) →
                     q.count ≤ p.count → refused .mapInvalid { name := .counts, number := some (j + 1) }) ∧
                   (second.count < first.count → falls LensPoint.count (new.take (j + 1)) →
                     p.count ≤ q.count →
                       refused .mapInvalid { name := .counts, number := some (j + 1) }))))))))) ∧
  (∀ (s s1 : State) (c : Command) (number index unit : Nat) (count : Int) (i : Axis) (h : index < 16),
     Delivered pickLensPoint s c (number, index, unit, count) s1 → namedAxis s1 number = some i →
     (axisCfg s i).kind.isLens = true →
     let p : LensPoint := { unit := clampUnit (axisCfg s i).kind unit,
                            count := clampInt (axisCfg s i).smin (axisCfg s i).smax count }
     ∃ t, exec .lensPoint s = .next t ∧ ChangesOnly [.lc, .lmu] s t ∧
       t.lc = (answerClamped c (decide (p.unit ≠ unit ∨ p.count ≠ count)) s1).lc ∧
       (∀ j, j ≠ i → t.lmu.get j = s.lmu.get j) ∧
       (t.lmu.get i).active = (s.lmu.get i).active ∧ (t.lmu.get i).pending = (s.lmu.get i).pending ∧
       (t.lmu.get i).writer = some c.sender ∧ (t.lmu.get i).shadow.get ⟨index, h⟩ = some p ∧
       (∀ k, k ≠ ⟨index, h⟩ → (t.lmu.get i).shadow.get k =
         (match (s.lmu.get i).writer with
          | some w => if w = c.sender then (s.lmu.get i).shadow.get k else none
          | none => (s.lmu.get i).shadow.get k))) ∧
  (∀ (s s1 : State) (c : Command) (number n : Nat) (i : Axis) (new : LensMap),
     Delivered pickLensCommit s c (number, n) s1 → namedAxis s1 number = some i →
     (axisCfg s i).kind.isLens = true → (s.lmu.get i).writer = some c.sender →
     2 ≤ n → n ≤ 16 → (s.lmu.get i).shadow.rows.take n = new.map some → mapValid new = true →
     ∃ t, exec .lensCommit s = .next t ∧ ChangesOnly [.lc, .lmu] s t ∧
       (∀ j, j ≠ i → t.lmu.get j = s.lmu.get j) ∧
       ((axisCh s i).state = .follow ∨ (axisCh s i).state = .override ∨ (axisCh s i).state = .rejoin →
         t.lmu.get i = { s.lmu.get i with pending := some new } ∧
         t.lc = (answer c .done { name := .pending } s1).lc) ∧
       ((axisCh s i).state ≠ .follow → (axisCh s i).state ≠ .override → (axisCh s i).state ≠ .rejoin →
         t.lmu.get i = { s.lmu.get i with active := new } ∧
         t.lc = (answer c .done { name := .active } s1).lc))

/-! ### Chapter 6: the take store -/

/-- MARK, UNMARK and CUE-POINTS on a STORED take not in use, with their checks passed: the slot or the list is
written, the edit signature is formed again from the new marks and cue points, the edit count rises by 1, and
nothing else of the take store changes; an UNMARK of an empty slot changes nothing. The answer is DONE (section
6.4). An edit of no STORED take is refused with NO-TAKE, one of a take in use with TAKE-IN-USE, and one that
fails a check of its own with the first that fails, in the order of section 6.4, where a MARK that leaves no
mark inside more than three others, and passes the checks before, is not refused; of several axes, marks or
entries that fail it the first is named, as log entry 39 says, an entry of CUE-POINTS by its position counted
from 0, the model's choice of log entry 63. -/
def Obligations.MarksAndCuePointsAreEdited : Prop :=
  (∀ (s s1 : State) (c : Command) (number : Nat) (i : Instr),
    (i = .mark ∧ (∃ k m, Delivered pickMark s c (number, k, m) s1) ∨
      i = .unmark ∧ (∃ k, Delivered pickUnmark s c (number, k) s1) ∨
      i = .cuePoints ∧ (∃ points, Delivered pickCuePoints s c (number, points) s1)) →
    ((∀ slot, slotOf number = some slot → (entryOf s slot).state ≠ .stored) →
      exec i s = .next (refuse c .noTake s1)) ∧
    (∀ slot, slotOf number = some slot → (entryOf s slot).state = .stored → takeInUse s slot = true →
      exec i s = .next (refuse c .takeInUse s1))) ∧
  ∀ (s s1 : State) (c : Command) (number : Nat) (slot : Slot), slotOf number = some slot →
    (entryOf s slot).state = .stored → takeInUse s slot = false →
    let e := entryOf s slot
    let edited := fun (t : State) (marks : Table (Option Mark) 8) (cues : List Nat) =>
      ChangesOnly [.lc, .ts] s t ∧ t.lc = (answerDone c s1).lc ∧ OtherTakes slot s t ∧
        t.ts = { s.ts with dir := t.ts.dir } ∧
        entryOf t slot = { e with marks := marks, cues := cues, signature := editSignature marks cues,
                                  editCount := e.editCount + 1 }
    (∀ (k : Fin 8) (m : Mark), Delivered pickMark s c (number, k.val, m) s1 → markRefusal s1 slot k.val m = none →
      ∃ t, exec .mark s = .next t ∧ edited t (e.marks.set k (some m)) e.cues) ∧
    (∀ k : Fin 8, Delivered pickUnmark s c (number, k.val) s1 →
      ∃ t, exec .unmark s = .next t ∧
        (e.marks.get k ≠ none → edited t (e.marks.set k none) e.cues) ∧
        (e.marks.get k = none → t = answerDone c s1)) ∧
    (∀ points : List Nat, Delivered pickCuePoints s c (number, points) s1 →
      points.Pairwise (· < ·) → (∀ k ∈ points, 1 ≤ k ∧ k < e.count) →
      ∃ t, exec .cuePoints s = .next t ∧ edited t e.marks points) ∧
    (∀ (k : Nat) (m : Mark), Delivered pickMark s c (number, k, m) s1 →
      let other := fun (P : Mark → Prop) (j : Fin 8) => j.val ≠ k ∧ ∃ o, e.marks.get j = some o ∧ P o
      let refused := fun (r : Reason) (d : Detail) => exec .mark s = .next (refuseWith c r d s1)
      (8 ≤ k → refused .markInvalid { name := .slot }) ∧
      (k < 8 →
        (¬ (m.start < m.stop ∧ m.stop < e.count) → refused .markInvalid { name := .range }) ∧
        (m.start < m.stop → m.stop < e.count →
          (∀ i, Least (opensAt s slot m.start m.stop) i →
            (withoutMap s i → refused .mapAbsent { number := some i.val }) ∧
            (¬ withoutMap s i → refused .markInvalid { name := .closure, number := some i.val })) ∧
          ((∀ i, ¬ opensAt s slot m.start m.stop i) →
            (∀ j, Least (other fun o => o.stop = m.stop) j →
              refused .markInvalid { name := .sharedEnd, number := some j.val }) ∧
            ((∀ j, ¬ other (fun o => o.stop = m.stop) j) →
              (∀ j, Least (other (marksCross m)) j →
                refused .markInvalid { name := .overlap, number := some j.val }) ∧
              ((∀ j, ¬ other (marksCross m) j) →
                (∃ chain : List Mark, chain.length = 5 ∧
                  (∀ a ∈ chain, a = m ∨ ∃ j, other (fun o => o = a) j) ∧
                  chain.Pairwise fun a b => a.start < b.start ∧ b.stop < a.stop) →
                refused .markInvalid { name := .depth }) ∧
              ((∀ j, ¬ other (marksCross m) j) →
                let placed := fun (j : Fin 8) => if j.val = k then some m else e.marks.get j
                (∀ i a, placed i = some a →
                  ((List.finRange 8).filter fun j =>
                    (placed j).any fun b => decide (b.start < a.start ∧ a.stop < b.stop)).length ≤ 3) →
                markRefusal s1 slot k m = none)))))) ∧
    (∀ k : Nat, Delivered pickUnmark s c (number, k) s1 → 8 ≤ k →
      exec .unmark s = .next (refuseWith c .markInvalid { name := .slot } s1)) ∧
    (∀ (before : List Nat) (k : Nat) (after : List Nat),
      Delivered pickCuePoints s c (number, before ++ k :: after) s1 →
      before.Pairwise (· < ·) → (∀ b ∈ before, 1 ≤ b ∧ b < e.count) →
      ((∃ b ∈ before, k ≤ b) ∨ k = 0 ∨ e.count ≤ k) →
      exec .cuePoints s =
        .next (refuseWith c .markInvalid { name := .cuePoints, number := some before.length } s1))

/-- An accepted TRIM to keyframe L: keyframes above L, cue points above L and the blocks that no kept keyframe
lies in go; L takes the end velocity from keyframes L - 1 and L, axis by configured axis, and keeps its velocity
on a channel that is not configured, by the model's choice of log entry 55; every keyframe below L, and every
keyframe of another take, reads as before; the marks stay and the edit is counted (section 6.4). One that fails
a check is refused with the first that fails, in the order of section 6.4: NO-TAKE, TAKE-IN-USE, RANGE, or TRIM
with the slot of a mark that ends beyond L, the lowest as log entry 39 says. -/
def Obligations.TrimCutsTheTake : Prop :=
  (∀ (s s1 : State) (c : Command) (number last : Nat), Delivered pickTrim s c (number, last) s1 →
    ((∀ slot, slotOf number = some slot → (entryOf s slot).state ≠ .stored) →
      exec .trim s = .next (refuse c .noTake s1)) ∧
    (∀ slot, slotOf number = some slot → (entryOf s slot).state = .stored →
      (takeInUse s slot = true → exec .trim s = .next (refuse c .takeInUse s1)) ∧
      (takeInUse s slot = false →
        (¬ (1 ≤ last ∧ last < (entryOf s slot).count) →
          exec .trim s = .next (refuseWith c .markInvalid { name := .range } s1)) ∧
        (1 ≤ last → last < (entryOf s slot).count →
          ∀ k, Least (fun k => ∃ m, (entryOf s slot).marks.get k = some m ∧ last < m.stop) k →
            exec .trim s =
              .next (refuseWith c .markInvalid { name := .trim, number := some k.val } s1))))) ∧
  ∀ (s s1 : State) (c : Command) (number last : Nat) (slot : Slot),
    Delivered pickTrim s c (number, last) s1 → slotOf number = some slot →
    (entryOf s slot).state = .stored → takeInUse s slot = false → 1 ≤ last → last < (entryOf s slot).count →
    (∀ k m, (entryOf s slot).marks.get k = some m → m.stop ≤ last) →
    BlocksInv s.ts → Pool.wf s.ts.pool → (entryOf s slot).count ≤ 128 * (entryOf s slot).blocks.length →
    ∃ t, exec .trim s = .next t ∧ ChangesOnly [.lc, .ts] s t ∧ t.lc = (answerDone c s1).lc ∧
      OtherTakes slot s t ∧
      (let e := entryOf s slot
       let f := entryOf t slot
       f = { e with count := last + 1, cues := e.cues.filter fun k => decide (k ≤ last),
                    blocks := e.blocks.take (last / 128 + 1), signature := editSignature f.marks f.cues,
                    editCount := e.editCount + 1 }) ∧
      (t.ts.free ++ (entryOf t slot).blocks).Perm (s.ts.free ++ (entryOf s slot).blocks) ∧
      (∀ k, k < last → readKeyframe t.ts slot k = readKeyframe s.ts slot k) ∧
      (∀ i, ((readKeyframe t.ts slot last).get i).pos = ((readKeyframe s.ts slot last).get i).pos ∧
        ((readKeyframe t.ts slot last).get i).vel =
          (if configured s i then
            satVel (rndDiv ((((readKeyframe s.ts slot last).get i).pos -
              ((readKeyframe s.ts slot (last - 1)).get i).pos) * 1000) (entryOf s slot).interval)
           else ((readKeyframe s.ts slot last).get i).vel)) ∧
      (∀ other k, other ≠ slot → readKeyframe t.ts other k = readKeyframe s.ts other k)

/-- DELETE returns every block of the take to the free-block list and leaves the EMPTY entry, edit count and
all, after the checks of an edit: a take number of no STORED take is refused with NO-TAKE, a take in use with
TAKE-IN-USE; ARM-RECORD with the overwrite flag deletes the old take in the same way before it takes a block (R94). -/
def Obligations.DeleteReturnsTheBlocks : Prop :=
  (∀ (s s1 : State) (c : Command) (number : Nat), Delivered pickDelete s c number s1 →
    ((∀ slot, slotOf number = some slot → (entryOf s slot).state ≠ .stored) →
      exec .delete s = .next (refuse c .noTake s1)) ∧
    (∀ slot, slotOf number = some slot → (entryOf s slot).state = .stored → takeInUse s slot = true →
      exec .delete s = .next (refuse c .takeInUse s1))) ∧
  ∀ (s s1 : State) (c : Command) (number : Nat) (slot : Slot), slotOf number = some slot →
    (entryOf s slot).state = .stored →
    (Delivered pickDelete s c number s1 → takeInUse s slot = false →
      ∃ t, exec .delete s = .next t ∧ ChangesOnly [.lc, .ts] s t ∧ t.lc = (answerDone c s1).lc ∧
        OtherTakes slot s t ∧ t.ts.pool = s.ts.pool ∧ t.ts.bulk = s.ts.bulk ∧
        entryOf t slot = TakeEntry.empty ∧ (entryOf t slot).editCount = 0 ∧
        t.ts.free.Perm (s.ts.free ++ (entryOf s slot).blocks)) ∧
    (∀ (stamp : BitVec 32) (mask : BitVec 16) (interval : Nat),
      Delivered pickArmRecord s c (number, stamp, mask, interval, true) s1 →
      inMask mask s.cl.station = true → armCheck number true s1 = .ok slot →
      ∃ t, exec .armRecord s = .next t ∧ OtherTakes slot s t ∧
        (t.ts.free ++ (entryOf t slot).blocks).Perm (s.ts.free ++ (entryOf s slot).blocks) ∧
        (entryOf t slot).blocks.length = 1 ∧ (entryOf t slot).editCount = 0)

/-- QUERY of DIRECTORY reports the entry's fields and the free-block count, or is refused with NO-TAKE, and
changes nothing; TAKE-READ of a STORED take in IDLE with no bulk transfer opens the read-out on the range cut
at the last keyframe, answered DONE-CLAMPED when it was cut; in another mode or during a bulk transfer it is
refused with BUSY, and then of no STORED take with NO-TAKE (section 6.5). -/
def Obligations.TakesAreReported : Prop :=
  (∀ (s s1 : State) (c : Command) (low : BitVec 8), Delivered pickQueryDirectory s c low s1 →
    (slotOf low.toNat = none → exec .queryDirectory s = .next (refuse c .noTake s1)) ∧
    (∀ slot, slotOf low.toNat = some slot →
      exec .queryDirectory s = .next (handOver (.directoryEntry
        { tag := c.tag, state := (entryOf s slot).state, stamp := (entryOf s slot).stamp,
          mask := (entryOf s slot).mask, interval := (entryOf s slot).interval,
          count := (entryOf s slot).count, signature := (entryOf s slot).signature,
          editCount := (entryOf s slot).editCount, taint := (entryOf s slot).taint,
          endCause := (entryOf s slot).endCause, marks := usedSlots (entryOf s slot).marks,
          cuePoints := (entryOf s slot).cues.length, freeBlocks := s.ts.free.length }) s1))) ∧
  (∀ (s s1 : State) (c : Command) (number first n : Nat), Delivered pickTakeRead s c (number, first, n) s1 →
    (¬ (s.tc.mode = .idle ∧ s.ts.bulk = .none) → exec .takeRead s = .next (refuse c .busy s1)) ∧
    (s.tc.mode = .idle → s.ts.bulk = .none →
      (∀ slot, slotOf number = some slot → (entryOf s slot).state ≠ .stored) →
      exec .takeRead s = .next (refuse c .noTake s1))) ∧
  (∀ (s s1 : State) (c : Command) (number first n : Nat) (slot : Slot),
    Delivered pickTakeRead s c (number, first, n) s1 → s.tc.mode = .idle → s.ts.bulk = .none →
    slotOf number = some slot → (entryOf s slot).state = .stored →
    ∃ t, exec .takeRead s = .next t ∧ ChangesOnly [.lc, .ts] s t ∧
      t.lc = (answerClamped c (rangeCut (entryOf s slot).count first n) s1).lc ∧
      t.ts = { s.ts with bulk := t.ts.bulk } ∧
      (first < min (first + n) (entryOf s slot).count →
        ∃ since, t.ts.bulk = .readOut slot c.sender first (min (first + n) (entryOf s slot).count) since []) ∧
      (min (first + n) (entryOf s slot).count ≤ first → t.ts.bulk = .none))

/-- READOUT_FETCH at the store port, and READOUT_REOFFER: the next keyframe becomes a KEYFRAME-DATA frame,
handed over when it fits beside the queued ones and no frame is held back, else held back; a held frame goes
first in its turn; with the last frame handed over the read-out is over (sections 1.5 and 6.5). The list of the
frames held back is the model's, of log entry 15. -/
def Obligations.ReadOutSendsItsKeyframes : Prop :=
  ∀ (s : State) (slot : Slot) (console : Station) (next stop since : Nat) (held : List KeyframeFields),
    s.ts.bulk = .readOut slot console next stop since held → running s = true →
    let frame := keyframeFrame slot next (readKeyframe s.ts slot next)
    (next < stop → portFreeForBulk s = true → fetchOldest s since = true →
      ∃ t, exec .readoutFetch s = .next t ∧ ChangesOnly [.lc, .ts] s t ∧
        t.ts = { s.ts with bulk := t.ts.bulk } ∧
        ((held = [] ∧ readoutFits s = true) →
          t.lc = (handOver (.keyframeData frame) s).lc ∧
          (next + 1 < stop → t.ts.bulk = .readOut slot console (next + 1) stop s.lc.nextSerial []) ∧
          (stop ≤ next + 1 → t.ts.bulk = .none)) ∧
        (¬ (held = [] ∧ readoutFits s = true) →
          t.lc = s.lc ∧
          t.ts.bulk = .readOut slot console (next + 1) stop s.lc.nextSerial (held ++ [frame]))) ∧
    (∀ f rest, held = f :: rest → readoutFits s = true →
      ∃ t, exec .readoutReoffer s = .next t ∧ ChangesOnly [.lc, .ts] s t ∧
        t.ts = { s.ts with bulk := t.ts.bulk } ∧
        t.lc = (handOver (.keyframeData f) s).lc ∧
        ((next < stop ∨ rest ≠ []) → t.ts.bulk = .readOut slot console next stop since rest) ∧
        (stop ≤ next → rest = [] → t.ts.bulk = .none))

/-- A load: TAKE-LOAD-BEGIN of an EMPTY slot takes ceil(n/128) blocks and opens the load, answered DONE, or
DONE-CLAMPED when the interval was clamped as log entry 25 says; one that fails a check is refused with the
first that fails: BUSY, NO-TAKE, TAKE-OCCUPIED, MARK-INVALID with RANGE, STORE-FULL; KEYFRAME-DATA from the
loader, for its take and an index below n, writes that keyframe and no other, the position of a lens axis cut
into 0 to 65,535, that of an arm axis into its count range and the velocity at 8,388,607 either way, with zeros
for a channel that is not configured; any other frame is ignored, and so is every frame with no load open;
TAKE-LOAD-END stores the take once no keyframe is missing, and is refused with the lowest missing one before,
and with NO-LOAD where the sender has no load of that take open (section 6.5). -/
def Obligations.TakesAreLoaded : Prop :=
  (∀ (s s1 : State) (c : Command) (number interval n : Nat) (stamp : BitVec 32) (mask : BitVec 16),
    Delivered pickLoadBegin s c (number, stamp, mask, interval, n) s1 →
    let refused := fun (r : Reason) (d : Detail) => exec .takeLoadBegin s = .next (refuseWith c r d s1)
    (¬ (s.tc.mode = .idle ∧ s.ts.bulk = .none) → refused .busy {}) ∧
    (s.tc.mode = .idle → s.ts.bulk = .none →
      (slotOf number = none → refused .noTake {}) ∧
      (∀ slot, slotOf number = some slot →
        ((entryOf s slot).state ≠ .empty → refused .takeOccupied {}) ∧
        ((entryOf s slot).state = .empty →
          ((n < 1 ∨ 8192 < n) → refused .markInvalid { name := .range }) ∧
          (1 ≤ n → n ≤ 8192 → s.ts.free.length < (n + 127) / 128 → refused .storeFull {}))))) ∧
  (∀ (s s1 : State) (c : Command) (number : Nat), Delivered pickLoadEnd s c number s1 →
    (∀ slot written, s.ts.bulk = .load slot c.sender written → number ≠ takeNumber slot) →
    exec .takeLoadEnd s = .next (refuseWith c .busy { name := .noLoad } s1)) ∧
  (∀ (s s1 : State) (c : Command) (number interval n : Nat) (stamp : BitVec 32) (mask : BitVec 16) (slot : Slot),
    Delivered pickLoadBegin s c (number, stamp, mask, interval, n) s1 → s.tc.mode = .idle →
    s.ts.bulk = .none → slotOf number = some slot → (entryOf s slot).state = .empty → 1 ≤ n → n ≤ 8192 →
    (n + 127) / 128 ≤ s.ts.free.length →
    ∃ t, exec .takeLoadBegin s = .next t ∧ ChangesOnly [.lc, .ts] s t ∧ OtherTakes slot s t ∧
      t.lc = (answerClamped c (decide (interval < 10 ∨ 250 < interval)) s1).lc ∧
      t.ts.bulk = .load slot c.sender [] ∧ t.ts.pool = s.ts.pool ∧
      t.ts.free = s.ts.free.drop ((n + 127) / 128) ∧
      entryOf t slot = { TakeEntry.empty with
        state := .recording, stamp := stamp, mask := mask, interval := max 10 (min 250 interval), count := n,
        blocks := s.ts.free.take ((n + 127) / 128) }) ∧
  (∀ (s s1 : State) (e : RxEntry) (f : KeyframeFields), TakenFrame .keyframeData s e s1 →
    e.payload = .keyframeData f → (∀ slot loader written, s.ts.bulk ≠ .load slot loader written) →
    exec .keyframeData s = .next s1) ∧
  (∀ (s s1 : State) (e : RxEntry) (f : KeyframeFields) (slot : Slot) (loader : Station) (written : List Nat),
    TakenFrame .keyframeData s e s1 → e.payload = .keyframeData f → s.ts.bulk = .load slot loader written →
    ((e.sender ≠ loader ∨ f.take.toNat ≠ takeNumber slot ∨ (entryOf s slot).count ≤ f.index.toNat) →
      exec .keyframeData s = .next s1) ∧
    (e.sender = loader → f.take.toNat = takeNumber slot → f.index.toNat < (entryOf s slot).count →
      BlocksInv s.ts → Pool.wf s.ts.pool → (entryOf s slot).count ≤ 128 * (entryOf s slot).blocks.length →
      ∃ t, exec .keyframeData s = .next t ∧ ChangesOnly [.lc, .ts] s t ∧ t.lc = s1.lc ∧
        t.ts.dir = s.ts.dir ∧ t.ts.free = s.ts.free ∧
        (∃ w, t.ts.bulk = .load slot loader w ∧ ∀ k, k ∈ w ↔ k ∈ written ∨ k = f.index.toNat) ∧
        (∀ i, let x := (readKeyframe t.ts slot f.index.toNat).get i
          let pos := (f.axes.get i).pos.toInt
          (configured s i = true → (axisCfg s i).kind.isLens = true → x.pos = max 0 (min 65535 pos)) ∧
          (configured s i = true → (axisCfg s i).kind.isLens = false →
            x.pos = max (-134217728) (min 134217727 pos)) ∧
          (configured s i = true → x.vel = max (-8388607) (min 8388607 (f.axes.get i).vel.toInt)) ∧
          (configured s i = false → x.pos = 0 ∧ x.vel = 0)) ∧
        (∀ other k, (other ≠ slot ∨ k ≠ f.index.toNat) →
          readKeyframe t.ts other k = readKeyframe s.ts other k))) ∧
  (∀ (s s1 : State) (c : Command) (number : Nat) (slot : Slot) (loader : Station) (written : List Nat),
    Delivered pickLoadEnd s c number s1 → s.ts.bulk = .load slot loader written → c.sender = loader →
    number = takeNumber slot →
    (∀ k, k < (entryOf s slot).count → k ∉ written → (∀ j, j < k → j ∈ written) →
      exec .takeLoadEnd s = .next (refuseWith c .busy { name := .missing, number := some k } s1)) ∧
    ((∀ k, k < (entryOf s slot).count → k ∈ written) →
      ∃ t, exec .takeLoadEnd s = .next t ∧ ChangesOnly [.lc, .ts] s t ∧ t.lc = (answerDone c s1).lc ∧
        OtherTakes slot s t ∧ t.ts.bulk = .none ∧ t.ts.pool = s.ts.pool ∧ t.ts.free = s.ts.free ∧
        entryOf t slot = { entryOf s slot with
          state := .stored, endCause := some .load, signature := 0, editCount := 0, taint := none }))

/-- RECORDER_WRITE at the store port writes the oldest waiting sample as its keyframe, with velocity 0, and
gives the keyframe before it, from the second on, its central difference on the configured axes; every other
keyframe reads as before (section 6.2). -/
def Obligations.RecorderWritesItsSamples : Prop :=
  ∀ (s : State) (c : PlayContext) (x : RecorderSample) (rest : List RecorderSample), s.tc.ctx = some c →
    s.ts.waiting = x :: rest → running s = true → feederWants s = false → BlocksInv s.ts → Pool.wf s.ts.pool →
    x.index < 128 * (entryOf s c.take).blocks.length →
    ∃ t, exec .recorderWrite s = .next t ∧ ChangesOnly [.ts] s t ∧ t.ts.dir = s.ts.dir ∧
      t.ts.free = s.ts.free ∧ t.ts.waiting = rest ∧ t.ts.bulk = s.ts.bulk ∧
      (∀ i, (readKeyframe t.ts c.take x.index).get i = { pos := x.pose.get i, vel := 0 }) ∧
      (2 ≤ x.index → ∀ i,
        ((readKeyframe t.ts c.take (x.index - 1)).get i).pos =
          ((readKeyframe s.ts c.take (x.index - 1)).get i).pos ∧
        (configured s i = true → ((readKeyframe t.ts c.take (x.index - 1)).get i).vel =
          satVel (rndDiv ((x.pose.get i - ((readKeyframe s.ts c.take (x.index - 2)).get i).pos) * 1000)
            (2 * (entryOf s c.take).interval)))) ∧
      (∀ slot k, (slot ≠ c.take ∨ (k ≠ x.index ∧ (k + 1 ≠ x.index ∨ x.index < 2))) →
        readKeyframe t.ts slot k = readKeyframe s.ts slot k)

/-- TAINT of a recording at the store port: the take is STORED with end cause TAINT and its trip time; keyframe 0
stays, and of the others those up to the first that is later than the trip time less the taint span; the station is
IDLE, with the axes as at any return to IDLE (sections 3.6, 6.3 and 7.1; log entry 64). Of a recording that stands
as recordings do, the last keyframe that is kept takes the end velocity from the one before it, axis by configured
axis (log entry 55), keyframe 0 alone keeps its velocity 0, every kept keyframe has its recorded position, and
other takes read as before (section 6.2). That the cut is at the first such keyframe where the differences do not
rise is log entry 41, that the taint waits for the store port is log entry 20, and that the samples that wait are
written in the same step log entry 10. -/
def Obligations.TaintCutsTheRecording : Prop :=
  ∀ (s : State) (c : PlayContext) (trip : TakeTime), s.tc.ctx = some c → s.ts.taintTrip = some trip →
    s.tc.mode = .recording → (entryOf s c.take).state = .recording → feederWants s = false →
    1 ≤ (entryOf s c.take).count →
    ∃ t, exec .taint s = .next t ∧ (ClaimsInv s → ReturnsToIdle s t) ∧
      t.tc.mode = .idle ∧ t.tc.ctx = none ∧ t.ts.taintTrip = none ∧
      t.ts.waiting = [] ∧ OtherTakes c.take s t ∧ t.gu = s.gu ∧ t.cl = s.cl ∧ t.pending = s.pending ∧
      (entryOf t c.take).state = .stored ∧ (entryOf t c.take).endCause = some .taint ∧
      (RecordingStands s c.take → RecordingCloses s t c.take) ∧
      (entryOf t c.take).taint = some trip ∧ 1 ≤ (entryOf t c.take).count ∧
      (entryOf t c.take).count ≤ (entryOf s c.take).count ∧
      (t.ts.free ++ (entryOf t c.take).blocks).Perm (s.ts.free ++ (entryOf s c.take).blocks) ∧
      (let late := fun (k : Nat) =>
         0 < (BitVec.ofNat 32 (k * (entryOf s c.take).interval * 1024) -
           (trip - BitVec.ofNat 32 (1024 * s.cl.cfg.taintSpan))).toInt
       (∀ k, 1 ≤ k → k < (entryOf t c.take).count → ¬ late k) ∧
       ((entryOf t c.take).count < (entryOf s c.take).count → late (entryOf t c.take).count))

/-! ### Chapter 7: the take controller and the roll -/

/-- An accepted ARM-RECORD, at a station in the frame's mask: the slot is ARMED with one reserved block, the
interval clamped and everything else fresh; the play context is a recording of it; the mode is ARMED. The axes
keep their states and controllers. The answer is DONE, or DONE-CLAMPED when the interval was clamped; it is
handed over last, as log entry 44 says. A station outside the mask ignores the frame (sections 6.2 and 7.2).
That such a frame meets no other check is log entry 29. A command that fails a check is refused with the first
that fails, in the order of section 7.2 with the check of section 6.2 last. -/
def Obligations.ArmRecordArmsTheSlot : Prop :=
  ∀ (s s1 : State) (c : Command) (number interval : Nat) (stamp : BitVec 32) (mask : BitVec 16) (overwrite : Bool),
    Delivered pickArmRecord s c (number, stamp, mask, interval, overwrite) s1 →
    (inMask mask s.cl.station = false → exec .armRecord s = .next s1) ∧
    (∀ slot, inMask mask s.cl.station = true → armCheck number overwrite s1 = .ok slot →
      ∃ t u, exec .armRecord s = .next t ∧
        t = answerClamped c (decide (interval < 10 ∨ 250 < interval)) u ∧ ChangesOnly [.lc, .pt, .ts, .fd, .tc, .pu] s t ∧
        t.tc = { s.tc with
          mode := .armed,
          ctx := some { take := slot, mode := .record, startKeyframe := 0, mask := mask, stamp := stamp,
                        signature := 0, startTime := 0, roll := none, recovery := false, restartSeq := none,
                        pendingRestart := none, haltSeq := none, wrapPending := false } } ∧
        OtherTakes slot s t ∧ t.ts.pool = s.ts.pool ∧
        (∃ b, entryOf t slot = { TakeEntry.empty with
          state := .armed, stamp := stamp, mask := mask, interval := max 10 (min 250 interval), blocks := [b] }) ∧
        t.pu.r = 0 ∧ t.pu.t = s.pu.t ∧ t.pt.entries = s.pt.entries) ∧
    (inMask mask s.cl.station = true →
      let refused := fun (r : Reason) (d : Detail) => exec .armRecord s = .next (refuseWith c r d s1)
      (¬ (s.tc.mode = .idle ∧ s.ts.bulk = .none) → refused .busy {}) ∧
      (s.tc.mode = .idle → s.ts.bulk = .none →
        (slotOf number = none → refused .noTake {}) ∧
        (∀ slot, slotOf number = some slot →
          let e := entryOf s slot
          let vacant := e.state = .empty ∨ (e.state = .stored ∧ overwrite = true)
          let full := s.ts.free = [] ∧ (e.state = .stored → e.blocks = [])
          (¬ vacant → refused .takeOccupied {}) ∧
          (vacant →
            (∀ i, Least (withoutMap s) i → refused .mapAbsent { number := some i.val }) ∧
            ((∀ i, ¬ withoutMap s i) →
              (full → refused .storeFull {}) ∧ (¬ full → armCheck number overwrite s1 = .ok slot))))))

/-- A CUE meets its checks when it is taken, or, where its keyframe reads have to wait for the store port, when
the port grants them (sections 6.6 and 7.3). That it is taken out of the receive queue at once and held by the
take controller, that a further event of the row, with no CUE to take, is the grant, and that all checks are
made then, is the model's choice of log entry 43. An accepted CUE: the play context names the take with its
start keyframe and start take time, every configured axis has controller TAKE, and every one that is not in
FAULT is on its way to the start pose in GOTO, for the duration that they share and to the clamped target; the
answer is DONE, or DONE-CLAMPED when a target was clamped; the mode is CUEING, or READY at once on a node
without configured axes. A station whose bit is clear in the stored take's mask ignores the frame (sections 3.6
to 3.8 and 7.3). That such a frame meets no other check is log entry 29. A command that fails a check is refused
with the first that fails, in the order of section 7.3; of several axes or marks that fail it the first is
named, as log entry 39 says. The ANSWER is handed over last, as log entry 44 says, and the STATE frame of CUEING
before the axes move, as log entry 61 says. -/
def Obligations.CueBeginsPositioning : Prop :=
  (∀ (s s1 : State) (c : Command) (number duration : Nat) (stamp : BitVec 32) (mode : CueMode)
    (point : Option Nat), Delivered pickCue s c (number, stamp, mode, point, duration) s1 →
    let waits := s.tc.mode = .idle ∧ s.ts.bulk = .none ∧
      (recorderWants s = true ∨ punchWants s = true ∨ (∃ b ∈ s1.lc.rxq, .ts ∈ ownersOf b.payload) ∨
        s.tc.cues ≠ [])
    (ignoresCue s number = true → exec .cue s = .next s1) ∧
    (ignoresCue s number = false → waits →
      exec .cue s = .next (s1.setTc { s.tc with cues := s.tc.cues ++
        [{ sender := c.sender, target := c.target, tag := c.tag, number := number, stamp := stamp,
           mode := mode, point := point, duration := duration, since := s.lc.nextSerial }] })) ∧
    (ignoresCue s number = false → ¬ waits →
      ∃ t, exec .cue s = .next t ∧ cueIsChecked c number stamp mode point duration s1 t)) ∧
  (∀ (s : State) (w : WaitingCue) (rest : List WaitingCue), takeOffer (picksCommand pickCue) s = none →
    s.tc.cues = w :: rest →
    let granted := running s = true ∧ feederWants s = false ∧ recorderWants s = false ∧
      punchWants s = false ∧ (∀ b ∈ s.lc.rxq, .ts ∈ ownersOf b.payload → w.since ≤ b.serial) ∧
      ∀ n, fetchSince s = some n → w.since ≤ n
    (granted → ∃ t, exec .cue s = .next t ∧
      cueIsChecked { sender := w.sender, target := w.target, tag := w.tag, kind := .cue } w.number w.stamp
        w.mode w.point w.duration (s.setTc { s.tc with cues := rest }) t) ∧
    (¬ granted → exec .cue s = .next s))

/-- WRAP is answered DONE in every mode. In IDLE nothing changes; from CUEING, READY, ARMED, RECOVERING, ROLLING
and HALTED, and from PLAYING or HELD at rate 0, the station is IDLE at once with its play context gone, in ROLLING
with the window cancelled for WRAP; in PLAYING or HELD at a rate above 0 it is WRAP-pending, its local ceiling is
0, its axes stay and the punches in OVERRIDE end, and it plays on (sections 7.5 and 12.4). At the return to IDLE
the axes that a take moves, and those in OVERRIDE, rest with controller NONE and their pending lens maps change
over (sections 3.6, 5.6 and 7.1); what becomes of an OVERRIDE axis's demand and timer is log entry 64. A WRAP in
RECORDING samples one final keyframe, stores the take with end cause WRAP, or STORE-FULL when that keyframe finds
no block, and takes the station to IDLE; an accepted sample has the index after the last one. Of a recording that
stands as recordings do, that sample is the pose of the encoders, the keyframe before it takes its central
difference, the last keyframe that the take keeps its end velocity, axis by configured axis (log entry 55), every
other keeps its recorded position, and other takes read as before (section 6.2). WRAP in ROLLING goes to IDLE in
one step, as log entry 23 says; samples that wait are written with the final one, as log entry 10 says; and the
ANSWER is handed over last, as log entry 44 says. -/
def Obligations.WrapEndsTheTake : Prop :=
  (∀ (s s1 : State) (c : Command), Delivered pickWrap s c () s1 →
     ∃ t, exec .wrap s = .next (answerDone c t) ∧ t.gu = s.gu ∧ t.cl = s.cl ∧ t.pending = s.pending ∧
       (s.tc.mode = .idle → t = s1) ∧
       (s.tc.mode = .cueing ∨ s.tc.mode = .ready ∨ s.tc.mode = .armed ∨ s.tc.mode = .recovering ∨
           s.tc.mode = .rolling ∨ s.tc.mode = .halted ∨
           ((s.tc.mode = .playing ∨ s.tc.mode = .held) ∧ s.pu.r = 0 ∧ wrapPending s = false) →
         t.tc.mode = .idle ∧ t.tc.ctx = none ∧ t.tc.roll.window = none ∧ t.fd.queue = [] ∧ t.fd.stack = [] ∧
         t.pu.r = 0 ∧ (∀ k ∈ t.su.own, k.cause ≠ .peerMismatch) ∧ (ClaimsInv s → ReturnsToIdle s t) ∧
         (s.tc.mode ≠ .rolling → t.tc.roll.result = s.tc.roll.result) ∧
         (s.tc.mode = .rolling → t.tc.roll.result = .cancelled .wrap)) ∧
       (∀ x, (s.tc.mode = .playing ∨ s.tc.mode = .held) → s.tc.ctx = some x → x.wrapPending = false →
         s.pu.r ≠ 0 →
         t.tc = { s.tc with ctx := some { x with wrapPending := true } } ∧ t.fd = s.fd ∧
         localCeiling t = 0 ∧ t.pu.r = s.pu.r ∧ t.ax.ch = s.ax.ch ∧
         ∀ i, (axisCh s i).state = .override → ∀ p ∈ t.ax.punches, p.axis = i →
           p.ended = true ∧ p.writing = false)) ∧
  (∀ (s s1 : State) (c : Command) (x : PlayContext), Delivered pickWrap s c () s1 →
     s.tc.mode = .recording → s.tc.ctx = some x → s.ts.taintTrip = none →
     ∃ t, exec .wrap s = .next t ∧ (ClaimsInv s → ReturnsToIdle s t) ∧ t.ts.waiting = [] ∧
       t.tc.mode = .idle ∧ t.tc.ctx = none ∧
       OtherTakes x.take s t ∧ (entryOf t x.take).state = .stored ∧
       (let k := (entryOf s x.take).count
        let full := k % 128 = 0 ∧ k ≠ 0 ∧ (k = 8192 ∨ s.ts.free = [])
        (full → (entryOf t x.take).count = k ∧ (entryOf t x.take).endCause = some .storeFull) ∧
        (¬ full → (entryOf t x.take).count = k + 1 ∧ (entryOf t x.take).endCause = some .wrap) ∧
        (RecordingStands s x.take → RecordingCloses s t x.take ∧
          (¬ full → ∀ i,
            let at' := fun k => (readKeyframe t.ts x.take k).get i
            (at' k).pos = (encoderPose s).get i ∧
            (2 ≤ k → configured s i = true → (at' (k - 1)).vel =
              satVel (rndDiv (((at' k).pos - (at' (k - 2)).pos) * 1000) (2 * (entryOf s x.take).interval)))))) ∧
       (t.ts.free ++ (entryOf t x.take).blocks).Perm (s.ts.free ++ (entryOf s x.take).blocks))

/-- ROLL: a mode code without a meaning is counted malformed. A station that does not take part ignores the
frame; in a busy mode the roll is refused with BUSY and the roll record stays. The four checks are made in
order, and the first that fails refuses the roll with its reason, which the roll record keeps: NOT-READY, by the
mode with its form, the take, the ready flag in the own peer entry and the class; STAMP-DIFFERS;
SIGNATURE-DIFFERS, but for a record roll; PARTICIPANT-ABSENT. Otherwise the station answers ROLL-ACCEPT and is
ROLLING, with an empty set of accepted participants and a window of the configured length from the frame's start
mark (section 7.4), and hands over its first PACE frame (section 9.2). The order in which the frames are handed
over is that of log entry 44, and that both the ready flag and the class are looked at is log entry 45. -/
def Obligations.RollIsAnswered : Prop :=
  ∀ (s s1 : State) (e : RxEntry) (f : RollFields), TakenFrame .roll s e s1 → e.payload = .roll f →
    (rollModeOf f.mode = none → exec .roll s = .next (countMalformed s1)) ∧
    (∀ m, rollModeOf f.mode = some m →
      let part := partOfRoll s f.take.toNat
      let busy := s.tc.mode = .rolling ∨ s.tc.mode = .playing ∨ s.tc.mode = .held ∨ s.tc.mode = .halted ∨
        s.tc.mode = .recording ∨ s.tc.mode = .recovering
      let ready := part ∧ ¬ busy ∧ readyForRoll s m f
      let stamped := ∃ c, s.tc.ctx = some c ∧ c.stamp = f.stamp
      let signed := m = .record ∨ ∃ c, s.tc.ctx = some c ∧ c.signature = f.signature
      let present := ∀ n, isParticipant s n = true → (peer s n).liveness = .live
      let refused := fun (reason : BitVec 8) =>
        ∃ t, exec .roll s = .next t ∧ ChangesOnly [.lc, .tc] s t ∧
          t.lc = (handOver (.rollRefuse f.number reason) s1).lc ∧
          t.tc = { s.tc with roll := { s.tc.roll with
            number := f.number, result := .cancelled (.refused s.cl.station reason) } }
      (¬ part → exec .roll s = .next s1) ∧
      (part → busy → exec .roll s = .next (handOver (.rollRefuse f.number 4) s1)) ∧
      (part → ¬ busy → ¬ readyForRoll s m f → refused 0) ∧
      (ready → ¬ stamped → refused 1) ∧
      (ready → stamped → ¬ signed → refused 2) ∧
      (ready → stamped → signed → ¬ present → refused 3) ∧
      (ready → stamped → signed → present →
        ∃ t, exec .roll s = .next t ∧ ChangesOnly [.lc, .pt, .fd, .tc, .pu] s t ∧
          t.tc = { s.tc with
            mode := .rolling,
            roll := { number := f.number, mode := some m, accepted := 0,
                      window := some (e.mark.instant + 1000 * s.cl.cfg.rollWindow), result := .none,
                      startSeq := f.startSeq } } ∧
          (∀ n, (peer t n).ceiling = 0) ∧ t.pu.paceTimer = some s.cl.cfg.pacePeriod ∧
          t.pu.r = 0 ∧ t.pu.t = s.pu.t ∧ t.pu.announced = localCeiling t ∧
          (s1.lc.link = .fault → t.lc = s1.lc) ∧
          (s1.lc.link ≠ .fault →
            (s1.lc.txq.length < 8 → { payload := .rollAccept f.number, onLine := false } ∈ t.lc.txq) ∧
            (s1.lc.txq.length < 6 →
              { payload := .pace { time := s.pu.t, rate := 0, ceiling := BitVec.ofNat 16 (localCeiling t) },
                onLine := false } ∈ t.lc.txq) ∧
            ∀ g ∈ s1.lc.txq, g.payload.kind ≠ .state → g.payload.kind ≠ .pace → g ∈ t.lc.txq)))

/-- The answers of participants to the open window: ROLL-ACCEPT with its number adds its sender to the accepted
set, ROLL-REFUSE with its number cancels the roll with the sender and its reason, back to ARMED for a record
roll and to READY otherwise; any other answer changes nothing (section 7.4). -/
def Obligations.RollAnswersAreCounted : Prop :=
  ∀ (s s1 : State) (e : RxEntry) (number reason : BitVec 8),
    let answers := s.tc.mode = .rolling ∧ s.tc.roll.window ≠ none ∧ number = s.tc.roll.number ∧
      isParticipant s e.sender = true
    (TakenFrame .rollAccept s e s1 → e.payload = .rollAccept number →
      (answers → ∃ t, exec .rollAccept s = .next t ∧ ChangesOnly [.lc, .tc] s t ∧ t.lc = s1.lc ∧
        t.tc = { s.tc with roll := { s.tc.roll with accepted := t.tc.roll.accepted } } ∧
        ∀ n : Station, inMask t.tc.roll.accepted n = (inMask s.tc.roll.accepted n || n == e.sender)) ∧
      (¬ answers → exec .rollAccept s = .next s1)) ∧
    (TakenFrame .rollRefuse s e s1 → e.payload = .rollRefuse number reason →
      (answers → ∃ t, exec .rollRefuse s = .next t ∧ ChangesOnly [.lc, .pt, .fd, .tc, .pu] s t ∧
        t.tc = { s.tc with
          mode := if s.tc.roll.mode = some .record then .armed else .ready,
          roll := { s.tc.roll with window := none, result := .cancelled (.refused e.sender reason) } }) ∧
      (¬ answers → exec .rollRefuse s = .next s1))

/-- ROLL_WINDOW_EXPIRY with a participant missing cancels the roll for NOT-ACCEPTED and the lowest-numbered one;
with every participant accepted the roll has STARTED, the play context has its number, the strain ceiling is 1024,
the accumulators and the shift are empty and the mismatch grace of twice the state period runs; for PLAY the
station is PLAYING from the start take time at rate 0 with an empty queue, and every configured axis that is not in
FAULT is in FOLLOW; for RESUME-FROM it is PLAYING from the same time with the recovery mark gone and the feeder
rebuilt from the restart entry, which is queued again from rest under the start sequence; for RECORD it is
RECORDING at T = 0 and full rate with one keyframe sampled (sections 3.6, 6.2, 7.4, 8.2, 8.7, 9.5 and 11.10). -/
def Obligations.WindowExpiryStartsTheRoll : Prop :=
  ∀ (s : State) (x : PlayContext), s.tc.mode = .rolling → s.tc.roll.window ≠ none → s.tc.ctx = some x →
    (∀ n : Station, inMask x.mask n = true → inMask s.tc.roll.accepted n = false →
      (∀ m, m < n → inMask x.mask m = true → inMask s.tc.roll.accepted m = true) →
      ∃ t, exec .rollWindowExpiry s = .next t ∧ ChangesOnly [.lc, .pt, .fd, .tc, .pu] s t ∧
        t.tc = { s.tc with
          mode := if s.tc.roll.mode = some .record then .armed else .ready,
          roll := { s.tc.roll with window := none, result := .cancelled (.notAccepted n) } }) ∧
    ((∀ n : Station, inMask x.mask n = true → inMask s.tc.roll.accepted n = true) →
      ∃ t y, exec .rollWindowExpiry s = .next t ∧ t.gu = s.gu ∧ t.su = s.su ∧ t.cl = s.cl ∧
        t.pending = s.pending ∧ t.tc.ctx = some y ∧ y.roll = some s.tc.roll.number ∧ y.take = x.take ∧
        t.tc.roll = { s.tc.roll with window := none, result := .started } ∧
        t.tc.grace = .running (2 * s.cl.cfg.statePeriod) ∧ t.pu.strain = 1024 ∧ t.pu.offsetSum = 0 ∧
        t.pu.offsetCount = 0 ∧ t.pu.slices = [] ∧
        (s.tc.roll.mode = some .play →
          t.tc.mode = .playing ∧ t.pu.t = x.startTime ∧ t.pu.r = 0 ∧
          t.pu.alignTimer = some s.cl.cfg.alignWindow ∧ t.fd.queue = [] ∧ t.fd.stack = [] ∧
          t.fd.nextSeq = s.tc.roll.startSeq ∧ t.fd.cursor.arrival = x.startKeyframe ∧
          t.fd.cursor.t0 = x.startTime ∧ t.fd.cursor.atRest = true ∧
          ∀ i, configured s i = true → (axisCh s i).state ≠ .fault → (axisCh t i).state = .follow) ∧
        (∀ e, s.tc.roll.mode = some .resumeFrom → s.fd.restart = some e →
          t.tc.mode = .playing ∧ y = { x with roll := some s.tc.roll.number, recovery := false, restartSeq := none } ∧
          t.pu.t = x.startTime ∧ t.pu.r = 0 ∧ t.pu.alignTimer = some s.cl.cfg.alignWindow ∧
          (∀ i, configured s i = true → (axisCh s i).state ≠ .fault → (axisCh t i).state = .follow) ∧
          t.fd.retired = none ∧ t.fd.suspended = false ∧ t.fd.startSeq = s.tc.roll.startSeq ∧
          t.fd.nextSeq = s.tc.roll.startSeq + 1 ∧ t.fd.sectionWait = s.fd.sectionWait ∧
          (∃ f, t.fd.queue = [f] ∧ t.fd.finalBuilt = f.final ∧
            f = { e with zeroStart := true, seq := s.tc.roll.startSeq, zeroEnd := f.zeroEnd,
                         sectionEnd := f.sectionEnd, final := f.final } ∧
            (f.final = false → t.fd.cursor.source = e.stop ∧ t.fd.cursor.t0 = endTime e ∧
              t.fd.cursor.atRest = f.zeroEnd)) ∧
          t.fd = enqueueEntry x.mode (entryOf s x.take)
            { e with zeroStart := true, seq := s.tc.roll.startSeq }
            { s.fd with
              queue := [], retired := none, stack := e.stack, loopEnd := e.loopEnd,
              nextSeq := s.tc.roll.startSeq, startSeq := s.tc.roll.startSeq, suspended := false,
              finalBuilt := false, sourceRead := none }) ∧
        (s.tc.roll.mode = some .record → (entryOf s x.take).state = .armed → (entryOf s x.take).count = 0 →
          t.tc.mode = .recording ∧ t.pu.t = 0 ∧ t.pu.r = 1024 ∧ (entryOf t x.take).state = .recording ∧
          (entryOf t x.take).count = 1 ∧ t.ts.waiting = s.ts.waiting ++ [{ index := 0, pose := encoderPose s }] ∧
          t.ax = s.ax))

/-- MISMATCH_GRACE_END ends the grace; while PLAYING or HELD, a participant whose entry shows another roll
number, or a mode outside the roll, raises PEER-MISMATCH with class HOLD or above, which acts as a rise to HOLD
does where the class was NONE, and with none mismatched nothing else changes (sections 7.4 and 11.7). -/
def Obligations.MismatchIsFound : Prop :=
  ∀ (s : State) (x : PlayContext) (length : Nat), s.tc.grace = .running length → s.tc.ctx = some x →
    (s.tc.mode = .playing ∨ s.tc.mode = .held) → ClaimsInv s →
    let astray := fun (n : Station) => inMask x.mask n = true ∧
      (some (peer s n).roll ≠ x.roll ∨
        ((peer s n).mode ≠ .rolling ∧ (peer s n).mode ≠ .playing ∧ (peer s n).mode ≠ .held ∧
          (peer s n).mode ≠ .halted))
    ((∃ n, astray n) →
      ∃ t, exec .mismatchGraceEnd s = .next t ∧ t.gu = s.gu ∧ t.cl = s.cl ∧ t.pending = s.pending ∧
        t.tc.grace = .over ∧ (∃ k ∈ t.su.own, k.cause = .peerMismatch ∧ clsGe k.cls .hold) ∧
        OwnClaimActs .hold (s.setTc { s.tc with grace := .over }) t) ∧
    ((¬ ∃ n, astray n) → exec .mismatchGraceEnd s = .next (s.setTc { s.tc with grace := .over }))

/-! ### Chapter 8: the feeder, and the commands of a playback -/

/-- ADVANCE, BREAK, RESUME and MASTER-RATE. ADVANCE outside a STEP playback is refused, with a slot that is not
EMPTY it is an overrun, and otherwise it ends the section wait, releases the WAITING entry, or waits in the slot
(section 8.5). BREAK marks the top pass, or sets the loop-end flag of a LOOP with an empty stack (section 8.5).
RESUME takes HELD to PLAYING once the class is NONE (section 9.4). MASTER-RATE sets M, cut at 1024, and a local
ceiling that has moved by 32 or more is announced in a PACE frame, handed over at once and before the ANSWER,
which is handed over last in RESUME too, as log entry 44 says (sections 9.2 and 9.6). An entry whose end T has
passed is released too, as log entry 47 says. -/
def Obligations.PlaybackIsCommanded : Prop :=
  (∀ (s s1 : State) (c : Command), Delivered pickAdvance s c () s1 →
    (inPlay s.tc.mode = false → exec .advance s = .next (refuse c .busy s1)) ∧
    (inPlay s.tc.mode = true → s.tc.ctx.map PlayContext.mode ≠ some .step →
      exec .advance s = .next (refuseWith c .busy { name := .notStep } s1)) ∧
    (inPlay s.tc.mode = true → s.tc.ctx.map PlayContext.mode = some .step →
      (s.fd.slot ≠ .empty → exec .advance s = .next (countAdvanceOverrun s1)) ∧
      (s.fd.slot = .empty → s.fd.sectionWait = true →
        exec .advance s = .next (answerDone c (s1.setFd { s.fd with sectionWait := false }))) ∧
      (∀ before e after, s.fd.slot = .empty → s.fd.sectionWait = false →
        s.fd.queue = before ++ e :: after → e.sectionEnd = .waiting →
        (∀ b ∈ before, b.sectionEnd ≠ .waiting) →
        exec .advance s = .next (answerDone c (s1.setFd { s.fd with
          queue := before ++ { e with sectionEnd := .released } :: after, slot := .applied }))) ∧
      (s.fd.slot = .empty → s.fd.sectionWait = false → (∀ e ∈ s.fd.queue, e.sectionEnd ≠ .waiting) →
        exec .advance s = .next (answerDone c (s1.setFd { s.fd with slot := .held }))))) ∧
  (∀ (s s1 : State) (c : Command), Delivered pickBreak s c () s1 →
    (inPlay s.tc.mode = false → exec .brk s = .next (refuse c .busy s1)) ∧
    (inPlay s.tc.mode = true →
      (∀ p rest, s.fd.stack = p :: rest →
        exec .brk s = .next (answerDone c (s1.setFd { s.fd with
          stack := { p with breakRequested := true } :: rest }))) ∧
      (s.fd.stack = [] → s.tc.ctx.map PlayContext.mode = some .loop →
        exec .brk s = .next (answerDone c (s1.setFd { s.fd with loopEnd := true }))) ∧
      (s.fd.stack = [] → s.tc.ctx.map PlayContext.mode ≠ some .loop →
        exec .brk s = .next (answerDone c s1)))) ∧
  (∀ (s s1 : State) (c : Command), Delivered pickResume s c () s1 →
    (s.tc.mode ≠ .held → exec .resume s = .next (refuse c .busy s1)) ∧
    (s.tc.mode = .held → s.su.effective ≠ .none → exec .resume s = .next (refuse c .stopped s1)) ∧
    (s.tc.mode = .held → s.su.effective = .none →
      ∃ t, exec .resume s = .next (answerDone c t) ∧ ChangesOnly [.lc, .pt, .tc] s t ∧
        t.tc = { s.tc with mode := .playing } ∧ t.pt.entries = s.pt.entries)) ∧
  (∀ (s s1 : State) (c : Command) (v : Nat), Delivered pickMasterRate s c v s1 →
    ∃ t, exec .masterRate s = .next (answerClamped c (decide (1024 < v)) t) ∧ ChangesOnly [.lc, .pu] s t ∧
      t.pu = { s.pu with master := min 1024 v, announced := t.pu.announced, paceTimer := t.pu.paceTimer } ∧
      (let announces := pacesIn s.tc.mode = true ∧
         32 ≤ ((localCeiling t : Int) - (s.pu.announced : Int)).natAbs
       (announces →
         t.pu.announced = localCeiling t ∧ t.pu.paceTimer = some s.cl.cfg.pacePeriod ∧
         (s1.lc.link ≠ .fault →
           t.lc.txq = (queueFrame (.pace { time := s.pu.t, rate := BitVec.ofNat 16 s.pu.r,
                                           ceiling := BitVec.ofNat 16 (localCeiling t) }) s1.lc.txq).1)) ∧
       (¬ announces →
         t.pu.announced = s.pu.announced ∧ t.pu.paceTimer = s.pu.paceTimer ∧ t.lc = s1.lc)))

/-- FEEDER_READ_DONE while the feeder builds. Without a source pose the read gives the source keyframe;
otherwise it gives the end keyframe and the entry joins the queue as one event: its number is the next sequence
number, which rises by 1; its records, its pass context with the mark that starts at the arrival keyframe, the
decisions at its end (repeat, pop, onward, wrap or final, where the loop-end flag of a LOOP is cleared) and its
section end follow; the cursor goes beyond it (sections 8.2 to 8.6). That the feeder builds nothing during a
section wait is log entry 13. -/
def Obligations.FeederBuildsTheNextEntry : Prop :=
  ∀ (s : State) (c : PlayContext), s.tc.ctx = some c → feederWants s = true →
    (s.fd.cursor.pose = none → s.fd.sourceRead = none →
      exec .feederReadDone s = .next (s.setFd { s.fd with
        sourceRead := some (readKeyframe s.ts c.take s.fd.cursor.source) })) ∧
    (∀ q, s.fd.cursor.pose.or s.fd.sourceRead = some q →
      ∃ t e, exec .feederReadDone s = .next t ∧ ChangesOnly [.fd] s t ∧
        t.fd.queue = s.fd.queue ++ [e] ∧ e.seq = s.fd.nextSeq ∧ t.fd.nextSeq = s.fd.nextSeq + 1 ∧
        t.fd.sourceRead = none ∧ t.fd.sectionWait = s.fd.sectionWait ∧ t.fd.retired = s.fd.retired ∧
        (let take := entryOf s c.take
         let a := s.fd.cursor.arrival
         let b := a + 1
         let endFrame := readKeyframe s.ts c.take b
         let onward := ∀ p ∈ e.stack.head?, p.stop = b → p.breakRequested = true ∨ p.remaining = 1
         e.t0 = s.fd.cursor.t0 ∧ e.dur = take.interval ∧ e.source = s.fd.cursor.source ∧ e.stop = b ∧
         e.zeroStart = s.fd.cursor.atRest ∧ e.loopEnd = s.fd.loopEnd ∧
         (∀ i, configured s i = true → e.spans.get i =
           { p0 := (q.get i).pos, p1 := (endFrame.get i).pos,
             v0 := (q.get i).vel, v1 := (endFrame.get i).vel }) ∧
         ((∀ k m, take.marks.get k = some m → m.start ≠ a) → e.stack = s.fd.stack) ∧
         (∀ k m, take.marks.get k = some m → m.start = a →
           (∀ j n, take.marks.get j = some n → n.start = a → j = k) →
           ((∃ p ∈ s.fd.stack.head?, p.start = m.start ∧ p.stop = m.stop) → e.stack = s.fd.stack) ∧
           ((¬ ∃ p ∈ s.fd.stack.head?, p.start = m.start ∧ p.stop = m.stop) → e.stack =
             { start := m.start, stop := m.stop, remaining := m.count, breakRequested := false } ::
               s.fd.stack)) ∧
         (∀ p rest, e.stack = p :: rest → p.stop = b → p.breakRequested = false → p.remaining ≠ 1 →
           t.fd.stack = { p with remaining := p.remaining - 1 } :: rest ∧ e.final = false ∧
             t.fd.cursor.arrival = p.start ∧ t.fd.loopEnd = s.fd.loopEnd) ∧
         (∀ p rest, e.stack = p :: rest → p.stop = b → (p.breakRequested = true ∨ p.remaining = 1) →
           t.fd.stack = rest) ∧
         ((∀ p ∈ e.stack.head?, p.stop ≠ b) → t.fd.stack = e.stack) ∧
         (onward → b ≠ take.count - 1 →
           e.final = false ∧ t.fd.cursor.arrival = b ∧ t.fd.loopEnd = s.fd.loopEnd) ∧
         (onward → b = take.count - 1 → c.mode = .loop → s.fd.loopEnd = false →
           e.final = false ∧ t.fd.cursor.arrival = 0 ∧ t.fd.loopEnd = false) ∧
         (onward → b = take.count - 1 → (c.mode ≠ .loop ∨ s.fd.loopEnd = true) →
           e.final = true ∧ e.zeroEnd = true ∧ e.sectionEnd = .none ∧ t.fd.finalBuilt = true ∧
             t.fd.slot = s.fd.slot ∧ t.fd.loopEnd = (if c.mode = .loop then false else s.fd.loopEnd)) ∧
         (e.final = false →
           t.fd.finalBuilt = s.fd.finalBuilt ∧ t.fd.cursor.source = b ∧ t.fd.cursor.t0 = endTime e ∧
           t.fd.cursor.atRest = e.zeroEnd ∧
           (∃ pose, t.fd.cursor.pose = some pose ∧
             ∀ i, configured s i = true → pose.get i = endFrame.get i) ∧
           ((c.mode = .step ∧ b ∈ take.cues) →
             e.zeroEnd = true ∧
             e.sectionEnd = (if s.fd.slot = .held then .released else .waiting) ∧
             t.fd.slot = (if s.fd.slot = .held then .applied else s.fd.slot)) ∧
           (¬ (c.mode = .step ∧ b ∈ take.cues) →
             e.zeroEnd = false ∧ e.sectionEnd = .none ∧ t.fd.slot = s.fd.slot))))

/-! ### Chapters 7 and 9: the pace unit -/

/-- PACE_STEP is a publication, the servo updates that are taken before it is retired, each a whole SERVO_UPDATE
(section 4.1), and the reports. The publication: the strain ceiling falls by 16 on a clamp report and rises by 1
without one; a local ceiling that the cue-level term, or then the strain ceiling, has moved by 32 or more is
announced in a PACE frame, in the order of log entry 51 (section 9.2); the move rate slews toward the move target
and Tm advances by it; in PLAYING the path rate slews toward the target, but not during a section wait; in
RECORDING it is 1024; in any other mode 0. T advances by it and by the slice at hand, stopped at an offered hold
point, where r is 0 and the slices stay (sections 7.5 to 7.7, 8.4, 9.3 to 9.5 and 9.7). The reports: a zero rate
ends a playback with WRAP pending, and takes one under HOLD to HELD. The feeder retires every head whose end the
published T has reached, with a sample for each writing punch; a final one ends a PLAYING take (sections 8.6 and
12.2). The recorder samples a keyframe that is due, or ends the take when it finds no block: the last keyframe of
one that stands as recordings do then takes its end velocity (configured axes: log entry 55), positions and other
takes staying (section 6.2). Each return to IDLE leaves the axes at rest with controller NONE and their pending
lens maps changed over (sections 3.6 and 7.1; log entry 64). The order of the two reports is the operand of log
entry 17, and the early updates are that of log entry 35. Whether a step reaches the hold point is told with the
slice, as log entry 30 says; one that T has passed is reached, as log entry 46 says. The level of the cue input is
the step's, and mode NONE does not look at it (log entry 19); a take that ends here has its samples written at once
(log entry 10); and a step of a RECORDING whose taint waits for the store port samples nothing and changes no
state: the model's choice of log entry 20. -/
def Obligations.PaceStepMovesTheClocks : Prop :=
  ∀ (s : State) (cueLow : Bool) (order : PaceOrder), running s = true → ClaimsInv s →
    ∃ p u t, exec (.paceStep cueLow order) s = .next t ∧
      Runs (order.updates.map fun x => .servoUpdate x.axis x.encoderWords x.holdEndFirst) p u ∧
      ChangesOnly [.lc, .fd, .pu] s p ∧ SameLink s p ∧
      ChangesOnly [.lc, .pt, .ax, .lmu, .ts, .fd, .tc, .pu, .su] u t ∧
      (let cfg := s.cl.cfg
       let k := if s.pu.clampReport = true then max 128 (s.pu.strain - 16) else min 1024 (s.pu.strain + 1)
       let term := if cfg.cueMode = .runLevel ∧ cueLow = false then 0 else 1024
       let slewed := fun (rate target : Nat) =>
         if rate ≤ target then min target (rate + cfg.rise * cfg.servoPeriod)
         else max target (rate - cfg.fall * cfg.servoPeriod)
       let rm := slewed s.pu.rm
         (if clsGe s.su.effective .hold then 0 else min 1024 (min s.pu.master (min s.gu.ceiling k)))
       let ceiling := fun (strain : Nat) => if clsGe (ownClass s.su) .hold ∨ wrapPending s = true then 0
         else min 1024 (min s.pu.master (min s.gu.ceiling (min strain term)))
       let r :=
         if s.tc.mode = .playing ∧ s.fd.sectionWait = false then
           slewed s.pu.r (if clsGe s.su.effective .hold then 0 else min (ceiling k) (ceilingView s))
         else if s.tc.mode = .recording then 1024 else 0
       let adv := r * cfg.servoPeriod
       let reaches := fun (h : TakeTime) (moved : Int) =>
         inPlay s.tc.mode = true ∧ holdPoint s.fd = some h ∧ (h - s.pu.t).toInt ≤ moved
       p.fd = { s.fd with cueLow := if cfg.cueMode = .none then s.fd.cueLow else cueLow } ∧
       p.pu.strain = k ∧ p.pu.clampReport = false ∧ p.pu.cueTerm = term ∧
       (∃ between,
         CeilingFormed s (term ≠ s.pu.cueTerm) (ceiling s.pu.strain)
           (s.pu.announced, s.pu.paceTimer, s.lc.txq) between ∧
         CeilingFormed s (k ≠ s.pu.strain) (ceiling k) between (p.pu.announced, p.pu.paceTimer, p.lc.txq)) ∧
       p.pu.rm = rm ∧ p.pu.tm = s.pu.tm + BitVec.ofNat 32 (rm * cfg.servoPeriod) ∧
       p.pu.master = s.pu.master ∧ p.pu.marker = s.pu.marker ∧ p.pu.offsetCount = s.pu.offsetCount ∧
       (∃ (moved : Int) (left : List Int),
         (r = 0 → moved = 0 ∧ left = s.pu.slices) ∧
         (r ≠ 0 → s.pu.slices = [] → moved = adv ∧ left = []) ∧
         (∀ x rest, r ≠ 0 → s.pu.slices = x :: rest →
           (-(adv : Int) ≤ x → moved = adv + x ∧ left = rest) ∧
           (x < -(adv : Int) → moved = 0 ∧ left = (x + adv) :: rest)) ∧
         (∀ h, reaches h moved → p.pu.t = h ∧ p.pu.r = 0 ∧ p.pu.slices = s.pu.slices) ∧
         ((∀ h, ¬ reaches h moved) →
           p.pu.t = s.pu.t + BitVec.ofInt 32 moved ∧ p.pu.r = r ∧ p.pu.slices = left))) ∧
      (let zero := s.tc.mode = .playing ∧ p.pu.r = 0
       let reached := fun (e : QueueEntry) => 1024 * (e.dur : Int) ≤ (u.pu.t - e.t0).toInt
       let sampled := fun (e : QueueEntry) => allAxes.filterMap fun i =>
         ((activePunch u i).filter PunchRecord.writing).map fun x =>
           ({ ident := x.ident, keyframe := e.stop, pos := toUnits u i (axisCh u i).lastValid } : PunchSample)
       t.pu.t = u.pu.t ∧ t.pu.tm = u.pu.tm ∧
       (ClaimsInv u → u.tc.mode ≠ .idle → t.tc.mode = .idle → ReturnsToIdle u t) ∧
       (inPlay u.tc.mode = true → u.fd.suspended = false → inPlay t.tc.mode = true →
         ∃ gone, u.fd.queue = gone ++ t.fd.queue ∧ (∀ e ∈ gone, reached e ∧ e.final = false) ∧
           (∀ e ∈ t.fd.queue.head?, reached e → e.final = true ∧ t.tc.mode = .held) ∧
           t.fd = { u.fd with
             queue := t.fd.queue, retired := gone.getLast?.or u.fd.retired, slot := t.fd.slot,
             sectionWait := t.fd.sectionWait } ∧
           t.fd.slot = (if u.fd.slot = .applied ∧ ∃ e ∈ gone, e.sectionEnd = .released then .empty
             else u.fd.slot) ∧
           (t.fd.sectionWait = true ↔ u.fd.sectionWait = true ∨ ∃ e ∈ gone, e.sectionEnd = .waiting) ∧
           t.ax.samples = u.ax.samples ++ gone.flatMap sampled ∧ t.ax.punches = u.ax.punches) ∧
       (∀ gone e rest, u.tc.mode = .playing → u.fd.suspended = false → u.fd.queue = gone ++ e :: rest →
         (∀ b ∈ gone, reached b ∧ b.final = false) → reached e → e.final = true →
         (order.reportFirst = false ∨ ¬ zero ∨ u.su.effective ≠ .hold) →
         t.tc.mode = .idle ∧ t.tc.ctx = none ∧
           (order.reportFirst = false ∨ ¬ zero →
             t.ax.samples = u.ax.samples ++ (gone ++ [e]).flatMap sampled)) ∧
       (zero → u.tc.mode = .playing → wrapPending u = true → t.tc.mode = .idle ∧ t.tc.ctx = none) ∧
       (zero → u.tc.mode = .playing → wrapPending u = false → u.su.effective = .hold →
         (order.reportFirst = true ∨ ∀ e ∈ u.fd.queue, e.final = false) → t.tc.mode = .held) ∧
       (u.tc.mode = .playing → (∀ e ∈ u.fd.queue, e.final = false) →
         (¬ zero ∨ (wrapPending u = false ∧ u.su.effective ≠ .hold)) → t.tc = u.tc) ∧
       (∀ c, u.tc.mode = .recording → u.tc.ctx = some c → u.ts.taintTrip = none →
         (entryOf u c.take).state = .recording →
         let e := entryOf u c.take
         let due := 0 ≤ (u.pu.t - BitVec.ofNat 32 (e.count * e.interval * 1024)).toInt
         let opens := e.count % 128 = 0 ∧ e.count ≠ 0
         let full := opens ∧ (e.count = 8192 ∨ u.ts.free = [])
         (¬ due → t.tc.mode = .recording ∧ t.ts = u.ts) ∧
         (due → ¬ full →
           t.tc.mode = .recording ∧ OtherTakes c.take u t ∧ t.ts.pool = u.ts.pool ∧
           t.ts.waiting = u.ts.waiting ++ [{ index := e.count, pose := encoderPose u }] ∧
           (¬ opens → t.ts.free = u.ts.free ∧ entryOf t c.take = { e with count := e.count + 1 }) ∧
           (∀ b free, opens → u.ts.free = b :: free →
             t.ts.free = free ∧ entryOf t c.take = { e with count := e.count + 1, blocks := e.blocks ++ [b] })) ∧
         (due → full →
           t.tc.mode = .idle ∧ t.tc.ctx = none ∧ t.ts.waiting = [] ∧ OtherTakes c.take u t ∧
           entryOf t c.take = { e with state := .stored, endCause := some .storeFull } ∧
           (RecordingStands u c.take → RecordingCloses u t c.take))) ∧
       (u.tc.mode = .recording → u.ts.taintTrip ≠ none → t = u) ∧
       (u.tc.mode ≠ .playing → u.tc.mode ≠ .held → u.tc.mode ≠ .recording → t = u) ∧
       (t.tc.mode = u.tc.mode →
         t.lc = u.lc ∧ t.tc = u.tc ∧ t.pu = u.pu ∧ t.su = u.su ∧ t.ax.ch = u.ax.ch ∧ t.lmu = u.lmu ∧
           t.pt = u.pt ∧ (u.tc.mode ≠ .recording → t.ts = u.ts)))

/-- ALIGNMENT_WINDOW_END empties the accumulators and restarts the window.  With offsets while a shift is
pending one alignment skip is counted; with offsets and none pending the shift is the rounded half of their
mean, cut at 2048 either way; below 16 nothing comes of it, and otherwise it is pending as 64 slices, the
remainder spread over the last ones: they sum to the shift and none exceeds 32 (section 7.7). -/
def Obligations.ShiftIsSliced : Prop :=
  ∀ s : State, inPlay s.tc.mode = true → s.pu.alignTimer ≠ none →
    ∃ t, exec .alignmentWindowEnd s = .next t ∧ ChangesOnly [.lc, .pu] s t ∧
      t.pu = { s.pu with offsetSum := 0, offsetCount := 0, alignTimer := some s.cl.cfg.alignWindow,
                         slices := t.pu.slices } ∧
      (s.pu.offsetCount = 0 → t.lc = s.lc ∧ t.pu.slices = s.pu.slices) ∧
      (s.pu.offsetCount ≠ 0 → s.pu.slices ≠ [] →
        t.lc = { s.lc with counters :=
          { s.lc.counters with alignSkips := min 65535 (s.lc.counters.alignSkips + 1) } } ∧
        t.pu.slices = s.pu.slices) ∧
      (s.pu.offsetCount ≠ 0 → s.pu.slices = [] →
        t.lc = s.lc ∧
        (let shift := max (-2048) (min 2048 (rndDiv s.pu.offsetSum (2 * (s.pu.offsetCount : Int))))
         (shift.natAbs < 16 → t.pu.slices = []) ∧
         (16 ≤ shift.natAbs →
           t.pu.slices.length = 64 ∧ t.pu.slices.sum = shift ∧ (∀ x ∈ t.pu.slices, x.natAbs ≤ 32) ∧
           (let rem := shift - 64 * shift.tdiv 64
            ∀ i, i < 64 → t.pu.slices[i]? =
              some (if 64 - rem.natAbs ≤ i then shift.tdiv 64 + rem.sign else shift.tdiv 64)))))

/-! ### Chapters 8 and 10: the pins -/

/-- The edges at the pins. MARKER_EDGE in RECORDING or PLAYING fills an empty marker record with T and the sequence
number in play, 0 in RECORDING, and in PLAYING without a segment the roll's start sequence, as log entry 49 says
(the T of a record roll counts as published from its start on, by log entry 67), and sets the overrun flag of a
full one (section 7.8). CUE_EDGE in ADVANCE-EDGE mode, in a STEP playback, hands over an ADVANCE for ALL with tag 0
(section 8.5). EDGE_LATCH latches an EDGE input, for every zone that is armed (section 10.1; the field of log entry
36). STOP_LINE_OPENS drops drive-enable at once (section 11.6). The levels that the edges leave are those of log
entry 19. -/
def Obligations.PinEdgesAreTaken : Prop :=
  ∀ s : State, running s = true →
    (∃ t, exec .markerEdge s = .next t ∧ ChangesOnly [.pu] s t ∧
      ((s.tc.mode ≠ .recording ∧ s.tc.mode ≠ .playing) → t.pu = { s.pu with markLow := true }) ∧
      ((s.tc.mode = .recording ∨ s.tc.mode = .playing) →
        (s.pu.marker = none → t.pu = { s.pu with
          markLow := true,
          marker := some { time := s.pu.t,
                           seq := if s.tc.mode = .recording then 0 else seqInPlay s.fd } }) ∧
        (s.pu.marker ≠ none → t.pu = { s.pu with markLow := true, markerOverrun := true }))) ∧
    ((s.cl.cfg.cueMode = .none → exec .cueEdge s = .next s) ∧
     (s.cl.cfg.cueMode = .advanceEdge → inPlay s.tc.mode = true →
       s.tc.ctx.map PlayContext.mode = some .step →
       exec .cueEdge s = .next (handOver (.command 0xFF 0 .advance) (s.setFd { s.fd with cueLow := true }))) ∧
     (s.cl.cfg.cueMode ≠ .none →
       ¬ (s.cl.cfg.cueMode = .advanceEdge ∧ inPlay s.tc.mode = true ∧
          s.tc.ctx.map PlayContext.mode = some .step) →
       exec .cueEdge s = .next (s.setFd { s.fd with cueLow := true }))) ∧
    (∀ i : Input,
      ((s.tc.mode = .unconfigured ∨ (s.cl.cfg.inputs.get i).mode = .level) →
        exec (.edgeLatch i) s = .next s) ∧
      (s.tc.mode ≠ .unconfigured → (s.cl.cfg.inputs.get i).mode = .edge →
        ∃ t, exec (.edgeLatch i) s = .next t ∧ ChangesOnly [.gu] s t ∧
          t.gu = { s.gu with inputs := t.gu.inputs } ∧
          t.gu.inputs.get i = { s.gu.inputs.get i with latch := true, armedSince := 0 } ∧
          ∀ j, j ≠ i → t.gu.inputs.get j = s.gu.inputs.get j)) ∧
    (∃ t, exec .stopLineOpens s = .next t ∧ ChangesOnly [.su] s t ∧ driveEnable t = false ∧
      t.su = { s.su with loopClosed := false, openLatch := true })

/-! ### Chapter 10: the guard -/

/-- GUARD_SAMPLE. A LEVEL input changes at the F-th sample that differs; an EDGE input follows its sample and its
latch is cleared; an edge is kept by every armed zone that holds its input, but for an edge latched before the zone
was armed, in the field of log entry 36. Each armed zone moves by Table R152 with the inputs as they then stand,
captures its trip on entering OCCUPIED, with T, the active inputs, and the mode and sequence number of that moment:
those before the sample, or, where a unit or a zone before it has raised the class, those after it; raises its
claim from CLEAR, and releases it on entering CLEAR; a disarmed zone stays. G is the least ceiling of the armed
SCALE zones that are not CLEAR (sections 10.1 to 10.4). The stop line opens at an open sample and closes at the
tenth closed one, with the STOP-LINE claim (section 11.6). Where nothing is released, what it raises the class to
acts on axes, rates, drive latch and mode as one rise, and otherwise none of them changes (sections 3.9, 9.3, 11.1
and 11.7); a recording keeps its mode, and is only asked for its taint with the first trip time: log entry 20, with
its T as published from the start of the roll on: log entry 67; a local ceiling that G alone has moved by 32 or
more is announced in a PACE frame (section 9.2). LEVEL_FILTER_CHANGE and STOP_LINE_CLOSED are the samples at which
those changes happen (log entry 18), whichever unit samples first (log entry 17). -/
def Obligations.GuardSampleIsTaken : Prop :=
  ∀ (s : State) (levels : BitVec 8) (closed stopLineFirst : Bool), running s = true →
    ∃ t, exec (.guardSample levels closed stopLineFirst) s = .next t ∧ t.cl = s.cl ∧ t.pending = s.pending ∧
      t.pu.t = s.pu.t ∧
      (ClaimsInv s → t.su.effective = formEffective t.su ∧
        ((∀ z, (zoneOf s z).armed = true → (zoneOf s z).state = .occupied → (zoneOf t z).state ≠ .clear) →
          (s.su.lineOpen = true → t.su.lineOpen = true) →
          OwnClaimActs t.su.effective s t ∧ clsRank s.su.effective ≤ clsRank t.su.effective)) ∧
      ((∀ z, (zoneCfg s z).action ≠ .scale → (zoneOf t z).state = (zoneOf s z).state) →
        (∀ z, (zoneCfg s z).action = .scale → ∀ k ∈ s.su.own, k.cause ≠ .zone z) →
        t.su.lineOpen = s.su.lineOpen →
        t.su.own = s.su.own ∧ t.tc = s.tc ∧
          t.pu = { s.pu with announced := t.pu.announced, paceTimer := t.pu.paceTimer } ∧
          t.lc = { s.lc with txq := t.lc.txq, counters := t.lc.counters } ∧
          CeilingFormed s (t.gu.ceiling ≠ s.gu.ceiling) (localCeiling t)
            (s.pu.announced, s.pu.paceTimer, s.lc.txq) (t.pu.announced, t.pu.paceTimer, t.lc.txq)) ∧
      (filterChanges s levels = true → exec (.levelFilterChange levels closed stopLineFirst) s = .next t) ∧
      (filterChanges s levels = false → exec (.levelFilterChange levels closed stopLineFirst) s = .next s) ∧
      (closed = true → s.su.lineOpen = true → s.su.openLatch = false → 9 ≤ s.su.closedRun →
        exec (.stopLineClosed levels stopLineFirst) s = .next t) ∧
      ((s.su.lineOpen = false ∨ s.su.openLatch = true ∨ s.su.closedRun < 9) →
        exec (.stopLineClosed levels stopLineFirst) s = .next s) ∧
      (s.tc.mode = .unconfigured → t.gu = s.gu) ∧
      (s.tc.mode ≠ .unconfigured →
        (∀ i : Input,
          let cfg := s.cl.cfg.inputs.get i
          let active := levels.getLsbD i.val == cfg.activeHigh
          let g := s.gu.inputs.get i
          (cfg.mode = .level → active = g.filtered → t.gu.inputs.get i = { g with run := 0 }) ∧
          (cfg.mode = .level → active ≠ g.filtered → g.run + 1 < cfg.filterLength →
            t.gu.inputs.get i = { g with run := g.run + 1 }) ∧
          (cfg.mode = .level → active ≠ g.filtered → cfg.filterLength ≤ g.run + 1 →
            t.gu.inputs.get i = { g with filtered := active, run := 0 }) ∧
          (cfg.mode = .edge → t.gu.inputs.get i = { g with level := active, latch := false, armedSince := 0 })) ∧
        (∀ z : Zone, (zoneOf s z).armed = false → zoneOf t z = zoneOf s z) ∧
        (∀ z : Zone, (zoneOf s z).armed = true →
          (zoneOf t z).armed = true ∧
          (∀ i : Input, (zoneOf t z).edges.getLsbD i.val = true ↔
            (zoneOf s z).edges.getLsbD i.val = true ∨
              ((zoneCfg s z).mask.getLsbD i.val = true ∧ (s.cl.cfg.inputs.get i).mode = .edge ∧
                (((s.gu.inputs.get i).latch = true ∧ (s.gu.inputs.get i).armedSince.getLsbD z.val = false) ∨
                  (levels.getLsbD i.val = (s.cl.cfg.inputs.get i).activeHigh ∧
                    (s.gu.inputs.get i).level = false)))) ∧
          ((∃ i, inputActiveFor t z i) → (zoneOf t z).state = .occupied) ∧
          ((¬ ∃ i, inputActiveFor t z i) → (zoneOf t z).state =
            (if (zoneOf s z).state = .occupied then (if (zoneCfg s z).ackLatch then .vacated else .clear)
             else (zoneOf s z).state)) ∧
          (((∃ i, inputActiveFor t z i) ∧ (zoneOf s z).state ≠ .occupied) →
            ((zoneOf s z).trip = none →
              (zoneOf t z).overrun = (zoneOf s z).overrun ∧
              ∃ trip, (zoneOf t z).trip = some trip ∧ trip.time = s.pu.t ∧
                (∀ i : Input, trip.causes.getLsbD i.val = true ↔ inputActiveFor t z i) ∧
                (TripShows s trip ∨ TripShows t trip) ∧
                ((stopLineFirst = false ∨ s.su.lineOpen = true ∨ (closed = true ∧ s.su.openLatch = false)) →
                  (∀ y, y < z → (zoneCfg s y).action = .scale ∨
                    ¬ ((zoneOf s y).state = .clear ∧ (zoneOf t y).state = .occupied)) →
                  TripShows s trip)) ∧
            ((zoneOf s z).trip ≠ none →
              (zoneOf t z).trip = (zoneOf s z).trip ∧ (zoneOf t z).overrun = true) ∧
            (∀ cls, (zoneOf s z).state = .clear → actionClass (zoneCfg s z).action = some cls →
              ∃ k ∈ t.su.own, k.cause = .zone z ∧ clsGe k.cls cls)) ∧
          (¬ ((∃ i, inputActiveFor t z i) ∧ (zoneOf s z).state ≠ .occupied) →
            (zoneOf t z).trip = (zoneOf s z).trip ∧ (zoneOf t z).overrun = (zoneOf s z).overrun) ∧
          ((zoneOf s z).state = .occupied → (zoneOf t z).state = .clear →
            ∀ k ∈ t.su.own, k.cause ≠ .zone z)) ∧
        CeilingIsLeast t) ∧
      t.su.loopClosed = closed ∧ t.su.openLatch = false ∧
      (let opened := closed = false ∨ s.su.openLatch = true
       (s.su.lineOpen = false → ¬ opened → t.su.lineOpen = false ∧ t.su.closedRun = s.su.closedRun) ∧
       (opened → t.su.lineOpen = true ∧ t.su.closedRun = 0) ∧
       (s.su.lineOpen = false → opened → ∃ k ∈ t.su.own, k.cause = .stopLine ∧ k.cls = .sever) ∧
       (s.su.lineOpen = true → ¬ opened → s.su.closedRun < 9 →
         t.su.lineOpen = true ∧ t.su.closedRun = s.su.closedRun + 1) ∧
       (s.su.lineOpen = true → ¬ opened → 9 ≤ s.su.closedRun →
         t.su.lineOpen = false ∧ t.su.closedRun = 0 ∧ ∀ k ∈ t.su.own, k.cause ≠ .stopLine))

/-- ZONE-ARM, ZONE-DISARM and ZONE-ACK, answered DONE: zones outside the set and the inputs stay as they are, but
that an edge latched so far is not carried into a zone that ZONE-ARM arms, in the field of log entry 36; and G is
formed again. An armed CLEAR zone takes the active levels of its EDGE inputs as edges and trips at once when it is
occupied, with T, the active inputs, and the mode and sequence number of that moment: those before the command, or,
where a zone before it has raised the class, those after it; what it raises the class to acts as one rise (sections
3.9, 9.3 and 11.7), but that a recording keeps its mode and is only asked for its taint with the first trip time:
log entry 20, with its T as published from the start of the roll on: log entry 67; a disarmed one is CLEAR without
edges, its claim released and its trip record kept; an acknowledged one has an empty trip record, and is CLEAR with
its claim released unless it is still occupied (sections 10.3 and 10.4). The ANSWER is handed over last, as log
entry 44 says. -/
def Obligations.ZonesAreCommanded : Prop :=
  ∀ (s s1 : State) (c : Command) (set : BitVec 8),
    let rest := fun (t : State) =>
      t.cl = s.cl ∧ t.pending = s.pending ∧ CeilingIsLeast t ∧
        (∀ i, t.gu.inputs.get i =
          { s.gu.inputs.get i with armedSince := (t.gu.inputs.get i).armedSince }) ∧
        ∀ z : Zone, set.getLsbD z.val = false → zoneOf t z = zoneOf s z
    (Delivered pickZoneArm s c set s1 →
      ∃ t, exec .zoneArm s = .next (answerDone c t) ∧ rest t ∧ OwnClaimActs t.su.effective s t ∧
        (∀ (i : Input) (z : Zone), (t.gu.inputs.get i).armedSince.getLsbD z.val = true ↔
          (s.gu.inputs.get i).armedSince.getLsbD z.val = true ∨
            ((s.gu.inputs.get i).latch = true ∧ set.getLsbD z.val = true ∧ (zoneOf s z).armed = false)) ∧
        ∀ z : Zone, set.getLsbD z.val = true →
          ((zoneOf s z).armed = true → zoneOf t z = zoneOf s z) ∧
          ((zoneOf s z).armed = false → (zoneOf s z).state = .clear →
            (zoneOf t z).armed = true ∧
            (∀ i : Input, (zoneOf t z).edges.getLsbD i.val = true ↔
              (zoneCfg s z).mask.getLsbD i.val = true ∧ (s.cl.cfg.inputs.get i).mode = .edge ∧
                (s.gu.inputs.get i).level = true) ∧
            ((¬ ∃ i, inputActiveFor t z i) →
              (zoneOf t z).state = .clear ∧ (zoneOf t z).trip = (zoneOf s z).trip ∧
                (zoneOf t z).overrun = (zoneOf s z).overrun) ∧
            ((∃ i, inputActiveFor t z i) →
              (zoneOf t z).state = .occupied ∧
              ((zoneOf s z).trip = none → ∃ trip, (zoneOf t z).trip = some trip ∧ trip.time = s.pu.t ∧
                (∀ i : Input, trip.causes.getLsbD i.val = true ↔ inputActiveFor t z i) ∧
                (TripShows s trip ∨ TripShows t trip) ∧
                ((∀ y, y < z → set.getLsbD y.val = true → (zoneCfg s y).action = .scale ∨
                    ¬ ((zoneOf s y).armed = false ∧ (zoneOf t y).state = .occupied)) →
                  TripShows s trip)) ∧
              ((zoneOf s z).trip ≠ none →
                (zoneOf t z).trip = (zoneOf s z).trip ∧ (zoneOf t z).overrun = true) ∧
              ∀ cls, actionClass (zoneCfg s z).action = some cls →
                ∃ k ∈ t.su.own, k.cause = .zone z ∧ clsGe k.cls cls))) ∧
    (Delivered pickZoneDisarm s c set s1 →
      ∃ t, exec .zoneDisarm s = .next (answerDone c t) ∧ rest t ∧ t.gu.inputs = s.gu.inputs ∧
        ∀ z : Zone, set.getLsbD z.val = true →
          ((zoneOf s z).armed = false → zoneOf t z = zoneOf s z) ∧
          ((zoneOf s z).armed = true →
            zoneOf t z = { zoneOf s z with armed := false, edges := 0, state := .clear } ∧
            ∀ k ∈ t.su.own, k.cause ≠ .zone z)) ∧
    (Delivered pickZoneAck s c set s1 →
      ∃ t, exec .zoneAck s = .next (answerDone c t) ∧ rest t ∧ t.gu.inputs = s.gu.inputs ∧
        ∀ z : Zone, set.getLsbD z.val = true →
          (zoneOf t z).armed = (zoneOf s z).armed ∧ (zoneOf t z).trip = none ∧
          (zoneOf t z).overrun = false ∧
          ((zoneOf s z).state ≠ .occupied →
            (zoneOf t z).state = .clear ∧ (zoneOf t z).edges = (zoneOf s z).edges) ∧
          ((zoneOf s z).state = .occupied →
            (zoneOf t z).edges = 0 ∧
            ((∃ i, inputActiveFor t z i) → (zoneOf t z).state = .occupied) ∧
            ((¬ ∃ i, inputActiveFor t z i) → (zoneOf t z).state = .clear)) ∧
          ((zoneOf s z).state ≠ .clear → (zoneOf t z).state = .clear → ∀ k ∈ t.su.own, k.cause ≠ .zone z))

/-! ### Chapter 11: clearing a stop, rearming, recovering -/

/-- STOP-CLEAR of a SILENT station empties its stop-table entry and releases its PEER-SILENT claim, and forms
the class again; of the node's own number and of a LIVE station it is refused, of an UNKNOWN one it changes
nothing, and a number above 15 is counted malformed (section 11.5). REARM sets the drive latch below SEVER and
is refused at SEVER (section 11.6); that it does so while the class is below SEVER with the safety loop open but
not yet sampled is the model's choice of log entry 56. That a number above 15 meets no other check is log entry
29, the order of the entry and the claim log entry 33, and the ANSWER behind the other frames log entry 44. -/
def Obligations.StopsAreCleared : Prop :=
  (∀ (s s1 : State) (e : RxEntry) (c : Command) (n : Nat),
    takeOffer (picksCommand pickStopClear) s = some (e, s1) → commandOf pickStopClear e = some (c, n) →
    16 ≤ n → exec .stopClear s = .next (countMalformed s1)) ∧
  (∀ (s s1 : State) (c : Command) (n : Station), Delivered pickStopClear s c n.val s1 →
    (n = s.cl.station →
      exec .stopClear s = .next (refuseWith c .originatorLive { name := .own } s1)) ∧
    (n ≠ s.cl.station → (peer s n).liveness = .live →
      exec .stopClear s = .next (refuse c .originatorLive s1)) ∧
    (n ≠ s.cl.station → (peer s n).liveness = .unknown → exec .stopClear s = .next (answerDone c s1)) ∧
    (n ≠ s.cl.station → (peer s n).liveness = .silent → ClaimsInv s →
      ∃ t, exec .stopClear s = .next (answerDone c t) ∧
        t.su.entries.get n = StopEntry.empty ∧
        (∀ m, m ≠ n → t.su.entries.get m = s.su.entries.get m) ∧
        (∀ k ∈ t.su.own, k.cause ≠ .peerSilent n) ∧
        (∀ k ∈ s.su.own, k.cause ≠ .peerSilent n → k ∈ t.su.own) ∧
        t.su.effective = formEffective t.su ∧ t.tc = s.tc ∧ t.fd = s.fd ∧ t.gu = s.gu ∧ t.cl = s.cl ∧
        t.pending = s.pending ∧ t.pt.entries = s.pt.entries)) ∧
  (∀ (s s1 : State) (c : Command), Delivered pickRearm s c () s1 →
    (s.su.effective = .sever → exec .rearm s = .next (refuse c .stopped s1)) ∧
    (s.su.effective ≠ .sever →
      exec .rearm s = .next (answerDone c (s1.setSu { s.su with driveLatch := true }))))

/-- RECOVER: the five checks in their order, each with its refusal; accepted, the entry with the target sequence
number is the restart entry, the queue and the retired record are gone, the pending restart sequence is kept,
every configured axis has controller TAKE, and every one not in FAULT is on its way to the restart entry's start
pose in GOTO, for the duration that they share and to the clamped target. The answer is DONE, or DONE-CLAMPED
when a target was clamped. The mode is RECOVERING, or, on a node without configured axes, READY with the
recovery mark (sections 8.7, 11.10, 3.7 and 3.8). The ANSWER is handed over last, as log entry 44 says. -/
def Obligations.RecoverBeginsPositioning : Prop :=
  ∀ (s s1 : State) (c : Command) (n : BitVec 16), Delivered pickRecover s c n s1 →
    let halt := (s.tc.ctx.bind PlayContext.haltSeq).getD 0
    let clear := s.tc.mode = .halted ∧ s.su.effective = .none
    (s.tc.mode ≠ .halted → exec .recover s = .next (refuse c .busy s1)) ∧
    (s.tc.mode = .halted → s.su.effective ≠ .none → exec .recover s = .next (refuse c .stopped s1)) ∧
    (clear → s.su.driveLatch = false →
      exec .recover s = .next (refuseWith c .stopped { name := .driveOff } s1)) ∧
    (clear → s.su.driveLatch = true → n ≠ halt → n ≠ halt - 1 →
      exec .recover s = .next (refuseWith c .gap { number := some halt.toNat } s1)) ∧
    (clear → s.su.driveLatch = true → (n = halt ∨ n = halt - 1) →
      (∀ e ∈ s.fd.queue ++ s.fd.retired.toList, e.seq ≠ n) →
      exec .recover s = .next (refuseWith c .gap { name := .unavailable } s1)) ∧
    (∀ (x : PlayContext) (before after : List QueueEntry) (e : QueueEntry), clear →
      s.su.driveLatch = true → (n = halt ∨ n = halt - 1) → s.tc.ctx = some x →
      s.fd.queue ++ s.fd.retired.toList = before ++ e :: after → e.seq = n → (∀ b ∈ before, b.seq ≠ n) →
      let pose := fun i => (e.spans.get i).p0
      ∃ t u, exec .recover s = .next t ∧ ChangesOnly [.lc, .pt, .ax, .lmu, .fd, .tc, .pu] s t ∧
        ((∃ i v, poseTargets s pose i = some v ∧ clampsTarget s i v) → t = answerClamped c true u) ∧
        ((∀ i v, poseTargets s pose i = some v → ¬ clampsTarget s i v) → t = answerClamped c false u) ∧
        t.fd.restart = some e ∧ t.fd.queue = [] ∧ t.fd.retired = none ∧
        t.pu.t = s.pu.t ∧ t.pu.r = 0 ∧ t.ax.punches = s.ax.punches ∧
        ((∃ i, configured s i = true) →
          t.tc.mode = .recovering ∧ t.tc.ctx = some { x with pendingRestart := some n }) ∧
        ((∀ i, configured s i = false) →
          t.tc.mode = .ready ∧ t.tc.ctx = some { x with
            recovery := true, restartSeq := some n, pendingRestart := none, startTime := e.t0 }) ∧
        (∀ i, configured s i = false → axisCh t i = axisCh s i) ∧
        (∀ i, configured s i = true → (axisCh t i).ctrl = .take ∧ t.tc.arrivals.get i = false ∧
          (axisCh t i).p8 = (axisCh s i).p8 ∧ (axisCh t i).v8 = (axisCh s i).v8) ∧
        (∀ i, configured s i = true → (axisCh s i).state = .fault → (axisCh t i).state = .fault) ∧
        (∀ i, configured s i = true → (axisCh s i).state ≠ .fault → (axisCh t i).state = .goto ∧
          ∃ g, (axisCh t i).segment = some g ∧ g.t0 = s.pu.tm ∧ g.zeroStart = true ∧ g.zeroEnd = true ∧
            SharedDuration s 0 (poseTargets s pose) g.dur ∧
            ((s.lmu.get i).pending = none → g.p1 = clampedTarget s i (pose i))))

/-! ### Chapter 12: punching -/

/-- PUNCH-IN: the five checks in their order, each with its refusal; accepted, the axis is in OVERRIDE under the
sender with no demand and no segment copy, and has a punch record that writes when the record flag is set and
the take is not tainted (section 12.1). PUNCH-OUT of the sender's own OVERRIDE axis ends the punch: the axis is
in REJOIN on a segment from where it stands to the target entry's end, or in FOLLOW when no time is left to it
(section 12.3); its demand is 0 and its jog timer stopped, by the model's choice of log entry 64. PUNCH_WRITE at
the store port writes the oldest sample into its keyframe for that axis alone, gives the keyframe before it its
central difference, and counts the punch once (section 12.2). Samples of a punch that has ended are written too;
after the last of them, or at once when none waits, as log entry 42 says, the last keyframe that the punch wrote
takes its central difference, or its end velocity as the last keyframe, and the record is gone (section 12.2).
The punch-out without time to rejoin is read as log entry 26 says, and a sample is written, and a punch fixed
up, while the slot is STORED and holds the keyframe, whatever take stands there by then, by the model's choice
of log entry 14; but never into a tainted take, where the sample leaves and nothing is written (section 6.3). A
channel that is DISABLED is no axis to punch (section 3.1), which a PUNCH-OUT meets as log entry 25 says, and
one in HALTED as log entry 37 says. -/
def Obligations.PunchesAreWritten : Prop :=
  (∀ (s s1 : State) (c : Command) (number : Nat) (record : Bool), Delivered pickPunchIn s c (number, record) s1 →
    (s.tc.mode ≠ .playing → exec .punchIn s = .next (refuse c .busy s1)) ∧
    (s.tc.mode = .playing → namedAxis s1 number = none →
      exec .punchIn s = .next (refuseWith c .notController { name := .disabled } s1)) ∧
    (∀ i, s.tc.mode = .playing → namedAxis s1 number = some i →
      ((axisCh s i).state ≠ .follow →
        exec .punchIn s =
          .next (refuseWith c .notController { name := .axisState (axisCh s i).state } s1)) ∧
      ((axisCh s i).state = .follow → s.su.effective ≠ .none →
        exec .punchIn s = .next (refuse c .stopped s1)) ∧
      ((axisCh s i).state = .follow → s.su.effective = .none → s.su.driveLatch = false →
        exec .punchIn s = .next (refuseWith c .stopped { name := .driveOff } s1)) ∧
      (∀ x, (axisCh s i).state = .follow → s.su.effective = .none → s.su.driveLatch = true →
        s.tc.ctx = some x →
        ∃ t p, exec .punchIn s = .next t ∧ ChangesOnly [.lc, .ax] s t ∧ OtherAxes i s t ∧
          (let noRecord := record && (entryOf s x.take).taint.isSome
           t.lc = (answer c .done { name := if noRecord then .noRecord else .none } s1).lc) ∧
          axisCh t i = { axisCh s i with
            state := .override, ctrl := .console c.sender, demand := 0, jogTimer := none,
            segmentCopy := none } ∧
          t.ax.samples = s.ax.samples ∧ t.ax.punches = s.ax.punches ++ [p] ∧ p.axis = i ∧
          p.console = c.sender ∧ p.take = x.take ∧ p.lastWritten = none ∧ p.counted = false ∧
          p.ended = false ∧ p.writing = (record && (entryOf s x.take).taint.isNone)))) ∧
  (∀ (s s1 : State) (c : Command) (number : Nat), Delivered pickPunchOut s c number s1 →
    let open' := inPlay s.tc.mode = true ∨ s.tc.mode = .halted
    (¬ open' → exec .punchOut s = .next (refuse c .busy s1)) ∧
    (open' → namedAxis s1 number = none →
      exec .punchOut s = .next (refuseWith c .notController { name := .disabled } s1)) ∧
    (∀ i, open' → namedAxis s1 number = some i →
      (s.tc.mode = .halted ∨ (axisCh s i).state ≠ .override ∨ (axisCh s i).ctrl ≠ .console c.sender) →
      exec .punchOut s = .next (refuse c .notController s1)) ∧
    (∀ i, inPlay s.tc.mode = true → namedAxis s1 number = some i → (axisCh s i).state = .override →
      (axisCh s i).ctrl = .console c.sender →
      ∃ t, exec .punchOut s = .next t ∧ ChangesOnly [.lc, .ax, .lmu, .ts] s t ∧
        t.lc = (answerDone c s1).lc ∧ OtherAxes i s t ∧
        (∀ p ∈ t.ax.punches, p.axis = i → p.ended = true ∧ p.writing = false) ∧
        (axisCh t i).ctrl = .take ∧ (axisCh t i).demand = 0 ∧ (axisCh t i).jogTimer = none ∧
        (axisCh t i).p8 = (axisCh s i).p8 ∧ (axisCh t i).v8 = (axisCh s i).v8 ∧
        (∀ before p after, s.ax.punches = before ++ p :: after → p.axis = i →
          (∀ q ∈ before ++ after, q.axis ≠ i ∧ q.ended = false) →
          ((∃ x ∈ s.ax.samples, x.ident = p.ident) ∨
            (∀ b, p.lastWritten = some b → ¬ punchTakes s p.take b) → t.ts = s.ts) ∧
          ((∀ x ∈ s.ax.samples, x.ident ≠ p.ident) →
            t.ax.punches = before ++ after ∧
            ∀ b, p.lastWritten = some b → 1 ≤ b → punchTakes s p.take b → BlocksInv s.ts →
              Pool.wf s.ts.pool →
              (entryOf s p.take).count ≤ 128 * (entryOf s p.take).blocks.length →
              t.ts.dir = s.ts.dir ∧ t.ts.free = s.ts.free ∧
              (readKeyframe t.ts p.take b).get i =
                { (readKeyframe s.ts p.take b).get i with
                  vel := endedVelocity s p.take i b ((readKeyframe s.ts p.take b).get i).pos } ∧
              ∀ slot k j, (slot ≠ p.take ∨ k ≠ b ∨ j ≠ i) →
                (readKeyframe t.ts slot k).get j = (readKeyframe s.ts slot k).get j)) ∧
        (∀ e, rejoinTarget s = some e → 0 < (endTime e - s.pu.t).toInt →
          (axisCh t i).state = .rejoin ∧ (axisCh t i).rejoinTime = endTime e ∧
          ∃ g, (axisCh t i).segment = some g ∧ g.t0 = s.pu.t ∧ g.zeroStart = false ∧
            g.zeroEnd = e.zeroEnd ∧ g.p1 = (e.spans.get i).p1 ∧ g.v1 = (e.spans.get i).v1 ∧
            g.p0 = presentUnits t i ∧ g.v0 = presentVelocity t i ∧ 1 ≤ g.dur ∧ g.dur ≤ 65535 ∧
            (g.dur < 65535 → (endTime e - s.pu.t).toInt ≤ 1024 * g.dur ∧
              1024 * (g.dur : Int) < (endTime e - s.pu.t).toInt + 1024)) ∧
        ((∀ e, rejoinTarget s = some e → (endTime e - s.pu.t).toInt ≤ 0) →
          (axisCh t i).state = .follow ∧ (axisCh t i).segment = none))) ∧
  (∀ s : State,
    let left := fun (e : QueueEntry) => (endTime e - s.pu.t).toInt
    (∀ before e after, s.fd.queue = before ++ e :: after →
      (∀ b ∈ before, left b < 1024 * (s.cl.cfg.rejoinTime : Int)) →
      1024 * (s.cl.cfg.rejoinTime : Int) ≤ left e → rejoinTarget s = some e) ∧
    ((∀ b ∈ s.fd.queue, left b < 1024 * (s.cl.cfg.rejoinTime : Int)) →
      rejoinTarget s = s.fd.queue.getLast?.or s.fd.retired)) ∧
  (∀ (s : State) (x : PunchSample) (rest : List PunchSample) (p : PunchRecord), s.ax.samples = x :: rest →
    running s = true → feederWants s = false → recorderWants s = false →
    s.ax.punches.find? (fun q => q.ident == x.ident) = some p →
    (∀ q ∈ s.ax.punches, q.ended = true → ∃ y ∈ rest, y.ident = q.ident) →
    punchTakes s p.take x.keyframe →
    BlocksInv s.ts → Pool.wf s.ts.pool → (entryOf s p.take).count ≤ 128 * (entryOf s p.take).blocks.length →
    ∃ t, exec .punchWrite s = .next t ∧ ChangesOnly [.ax, .ts] s t ∧ t.ax.ch = s.ax.ch ∧
      t.ax.samples = rest ∧ OtherTakes p.take s t ∧
      t.ax.punches = s.ax.punches.map (fun q =>
        if q.ident = x.ident then { q with lastWritten := some x.keyframe, counted := true } else q) ∧
      entryOf t p.take = { entryOf s p.take with
        editCount := (entryOf s p.take).editCount + (if p.counted then 0 else 1) } ∧
      (let b := x.keyframe
       (readKeyframe t.ts p.take b).get p.axis =
         { (readKeyframe s.ts p.take b).get p.axis with pos := x.pos } ∧
       (∀ j, j ≠ p.axis → (readKeyframe t.ts p.take b).get j = (readKeyframe s.ts p.take b).get j) ∧
       (2 ≤ b → (readKeyframe t.ts p.take (b - 1)).get p.axis =
         { (readKeyframe s.ts p.take (b - 1)).get p.axis with
           vel := satVel (rndDiv ((x.pos - ((readKeyframe s.ts p.take (b - 2)).get p.axis).pos) * 1000)
             (2 * (entryOf s p.take).interval)) }) ∧
       (∀ j, 2 ≤ b → j ≠ p.axis →
         (readKeyframe t.ts p.take (b - 1)).get j = (readKeyframe s.ts p.take (b - 1)).get j) ∧
       (∀ slot k, (slot ≠ p.take ∨ (k ≠ b ∧ (k + 1 ≠ b ∨ b < 2))) →
         readKeyframe t.ts slot k = readKeyframe s.ts slot k))) ∧
  (∀ (s : State) (x : PunchSample) (rest : List PunchSample) (before after : List PunchRecord) (p : PunchRecord),
    s.ax.samples = x :: rest → s.ax.punches = before ++ p :: after → p.ident = x.ident → p.ended = true →
    running s = true → feederWants s = false → recorderWants s = false → (∀ y ∈ rest, y.ident ≠ x.ident) →
    (∀ q ∈ before ++ after, q.ident ≠ x.ident ∧ (q.ended = true → ∃ y ∈ rest, y.ident = q.ident)) →
    1 ≤ x.keyframe → punchTakes s p.take x.keyframe →
    BlocksInv s.ts → Pool.wf s.ts.pool → (entryOf s p.take).count ≤ 128 * (entryOf s p.take).blocks.length →
    ∃ t, exec .punchWrite s = .next t ∧ ChangesOnly [.ax, .ts] s t ∧ t.ax.ch = s.ax.ch ∧
      t.ax.samples = rest ∧ t.ax.punches = before ++ after ∧ OtherTakes p.take s t ∧
      entryOf t p.take = { entryOf s p.take with
        editCount := (entryOf s p.take).editCount + (if p.counted then 0 else 1) } ∧
      (let b := x.keyframe
       (readKeyframe t.ts p.take b).get p.axis =
         { pos := x.pos, vel := endedVelocity s p.take p.axis b x.pos } ∧
       (2 ≤ b → (readKeyframe t.ts p.take (b - 1)).get p.axis =
         { (readKeyframe s.ts p.take (b - 1)).get p.axis with
           vel := satVel (rndDiv ((x.pos - ((readKeyframe s.ts p.take (b - 2)).get p.axis).pos) * 1000)
             (2 * (entryOf s p.take).interval)) }) ∧
       (∀ slot k j, (slot ≠ p.take ∨ j ≠ p.axis ∨ (k ≠ b ∧ (k + 1 ≠ b ∨ b < 2))) →
         (readKeyframe t.ts slot k).get j = (readKeyframe s.ts slot k).get j))) ∧
  (∀ (s : State) (x : PunchSample) (rest : List PunchSample) (before after : List PunchRecord) (p : PunchRecord),
    s.ax.samples = x :: rest → s.ax.punches = before ++ p :: after → p.ident = x.ident →
    running s = true → feederWants s = false → recorderWants s = false →
    (∀ q ∈ before ++ after, q.ident ≠ x.ident ∧ (q.ended = true → ∃ y ∈ rest, y.ident = q.ident)) →
    ¬ punchTakes s p.take x.keyframe →
    ((p.ended = false ∨ ∃ y ∈ rest, y.ident = x.ident) →
      exec .punchWrite s = .next (s.setAx { s.ax with samples := rest })) ∧
    (p.ended = true → (∀ y ∈ rest, y.ident ≠ x.ident) →
      (∀ b, p.lastWritten = some b → ¬ punchTakes s p.take b) →
      exec .punchWrite s = .next (s.setAx { s.ax with punches := before ++ after, samples := rest })))

/-! ### Chapter 13: resets and the end of START -/

/-- The resets and the end of START. POWER_ON_RESET gives the reset state, but for the reset pin and the model's
queue; STATION_RESET and the RESET frame give it too, but keep every STORED take with the keyframe pool and
rebuild the free-block list, and make a pending lens map the active one (sections 13.1, 6.7 and 5.8).
RESET_PIN_RELEASE lets START go on. END_OF_START settles configuration and station number from the image, or
from the strap pins without one, takes every field of the image cut into its range, 32-bit fields signed or not
as log entry 7 says (section 13.6), configures the channels in REST and the zones as the image has them, whose
input masks are read as log entry 65 says, and hands over the first STATE frame in IDLE or UNCONFIGURED
(sections 13.2, 3.10 and 10.6), with the pin levels of log entry 19. END_OF_START in any other state changes
nothing, as log entry 2 says, and a byte beyond the end of a short image is read as log entry 34 says. What
becomes of the pin, the queue and the pending map in the reset itself is read as log entry 28 says, and the
values that stand until END_OF_START are those of log entry 3. -/
def Obligations.ResetsAndTheEndOfStart : Prop :=
  (∀ s : State, exec .powerOnReset s =
    .next { State.reset with cl := { State.reset.cl with pinLow := s.cl.pinLow }, pending := s.pending }) ∧
  (∀ s : State,
    let kept := fun (t : State) =>
      t.lc = State.reset.lc ∧ t.pt = State.reset.pt ∧ t.ax = State.reset.ax ∧ t.fd = State.reset.fd ∧
      t.tc = State.reset.tc ∧ t.pu = State.reset.pu ∧ t.gu = State.reset.gu ∧ t.su = State.reset.su ∧
      t.pending = s.pending ∧
      t.ts = { State.reset.ts with dir := t.ts.dir, pool := s.ts.pool, free := t.ts.free } ∧
      (∀ slot, entryOf t slot =
        if (entryOf s slot).state = .stored then entryOf s slot else TakeEntry.empty) ∧
      t.ts.free.Pairwise (· < ·) ∧
      (∀ b, b ∈ t.ts.free ↔ b < 64 ∧ ∀ slot, (entryOf s slot).state = .stored →
        b ∉ (entryOf s slot).blocks) ∧
      ∀ i, t.lmu.get i = { State.reset.lmu.get i with
        active := (s.lmu.get i).pending.getD (s.lmu.get i).active, heldKind := (s.lmu.get i).heldKind }
    (∃ t, exec .stationReset s = .next t ∧ kept t ∧ t.cl = { State.reset.cl with pinLow := true }) ∧
    (∀ c s1, Delivered pickReset s c () s1 →
      ∃ t, exec .reset s = .next t ∧ kept t ∧ t.cl = { State.reset.cl with pinLow := s.cl.pinLow }) ∧
    exec .resetPinRelease s = .next (s.setCl { s.cl with pinLow := false })) ∧
  (∀ (s : State) (image : List (BitVec 8)) (pins : StartPins),
    (¬ (s.tc.mode = .start ∧ s.cl.pinLow = false) → exec (.endOfStart image pins) s = .next s) ∧
    (s.tc.mode = .start → s.cl.pinLow = false → s.lc.link ≠ .fault → s.lc.txq = [] →
      ∃ t, exec (.endOfStart image pins) s = .next t ∧ t.ts = s.ts ∧ t.pending = s.pending ∧
        t.cl.cfg = loadConfig image ∧ t.cl.pinLow = false ∧
        t.fd.cueLow = pins.cueLow ∧ t.pu.markLow = pins.markLow ∧
        t.pu.cueTerm = (if t.cl.cfg.cueMode = .runLevel ∧ pins.cueLow = false then 0 else 1024) ∧
        (image.head? ≠ some 0x5C → t.cl.cfg = NodeConfig.unconfigured ∧ t.cl.station = pins.straps.toFin ∧
          t.tc.mode = .unconfigured) ∧
        (image.head? = some 0x5C → ImageLoaded image t.cl.cfg ∧ t.tc.mode = .idle ∧
          t.cl.station.val = min 15 (image.getD 1 0xFF).toNat) ∧
        (∀ i, configured t i = false → axisCh t i = AxisChannel.disabled) ∧
        (∀ i, configured t i = true → axisCh t i = { AxisChannel.disabled with
          state := .rest, p8 := 256 * clampInt (axisCfg t i).smin (axisCfg t i).smax 0 }) ∧
        (∀ i, configured t i = true → (axisCfg t i).kind.isLens = true →
          (t.lmu.get i).pending = none ∧ (t.lmu.get i).writer = none ∧
          (t.lmu.get i).active =
            (if (s.lmu.get i).heldKind = some (axisCfg t i).kind then (s.lmu.get i).active
             else (axisCfg t i).defaultMap)) ∧
        (∀ z, zoneOf t z =
          { armed := (zoneCfg t z).armedAtReset, state := .clear, edges := 0, trip := none,
            overrun := false }) ∧
        t.su = { s.su with loopClosed := pins.loopClosed } ∧
        t.lc = { s.lc with txq := [{ payload := .state (stateFields t), onLine := false }] } ∧
        t.pt = { s.pt with stateTimer := some t.cl.cfg.statePeriod }))

/-- Right after a power-on reset the node is in START with its queues empty, its counters 0, every peer UNKNOWN,
every channel DISABLED, every take EMPTY with the 64 blocks free, M, K and G at 1024, T and Tm 0, no claim and a
clear drive latch (the reset rule of each chapter); and what every step keeps holds. The fields to which the
rules give their values from the end of START on hold them from the reset on, by log entry 3. -/
def Obligations.ResetStateIsSound : Prop :=
  State.reset.tc.mode = .start ∧ State.reset.lc.txq = [] ∧ State.reset.lc.rxq = [] ∧
    State.reset.lc.counters = Counters.zero ∧ State.reset.lc.quiet = none ∧ State.reset.lc.failRun = 0 ∧
    (∀ n, (peer State.reset n).liveness = .unknown) ∧
    (∀ i, (axisCh State.reset i).state = .disabled ∧ (axisCh State.reset i).output = 0) ∧
    (∀ slot, entryOf State.reset slot = TakeEntry.empty) ∧ State.reset.ts.free = List.range 64 ∧
    State.reset.pu.master = 1024 ∧ State.reset.pu.strain = 1024 ∧ State.reset.gu.ceiling = 1024 ∧
    State.reset.pu.t = 0 ∧ State.reset.pu.tm = 0 ∧ State.reset.pu.r = 0 ∧ State.reset.pu.rm = 0 ∧
    State.reset.su.own = [] ∧ State.reset.su.driveLatch = false ∧ driveEnable State.reset = false ∧
    State.reset.tc.ctx = none ∧ State.reset.fd.queue = [] ∧ State.reset.fd.stack = [] ∧
    QueuesInv State.reset ∧ RatesInv State.reset ∧ ContextInv State.reset ∧ ClaimsInv State.reset ∧
    LatchInv State.reset ∧ BlocksInv State.reset.ts ∧ Pool.wf State.reset.ts.pool ∧ SetpointInv State.reset

/-! ### Frames as words, and what every step keeps -/

/-- Every payload whose layout the spec gives is read back from its words, whatever fields come with the frame;
the bits that a sender drives for it, with its header, its CRC and its stuff bits, pass every check of an
arriving frame, and its sender is read back; and no two kinds share a class and a kind code (sections 13.3 to
13.5). A stuffed line has no run of six equal bits and is read back; a line is read as a violation at the first
such run, by its level (section 1.1). The level of a bit, and what a line reads as that ends behind five equal
bits, are log entry 54, and which bit of an axis set names which axis is log entry 65. -/
def Obligations.EncodedPayloadDecodes : Prop :=
  (∀ (p : Payload) (ws : List Word16) (fields : Payload) (n : Station), encodePayload p = some ws →
    decodePayload p.kind ws fields = some p ∧
    (let header := frameHeader n p.kind ws.length
     checkFrame { line := sentLine header ws, fields := fields } = .valid p.kind ∧ headerSender header = n)) ∧
  (∀ k j : Kind, (kindRow k).cls = (kindRow j).cls → (kindRow k).code = (kindRow j).code → k = j) ∧
  (∀ bits : List Bool, unstuff (stuff bits) = .bits bits ∧ ∀ level, ¬ sixInRow level (stuff bits)) ∧
  (∀ (line : List Bool) (level : Bool), unstuff line = .violation level ↔
    ∃ before after, line = before ++ List.replicate 6 level ++ after ∧
      ∀ l, ¬ sixInRow l (before ++ List.replicate 5 level))

/-- Every step keeps the three queues within their lengths and the transmit queue in the order of its
classes (sections 1.4, 1.5 and 8.1). -/
def Obligations.StepsKeepTheQueues : Prop :=
  ∀ s t : State, QueuesInv s → step s = .next t → QueuesInv t

/-- Every step keeps the path rate r, the move rate rm, the master rate M, the strain ceiling K and the guard
ceiling G in their ranges, with r at 1024 in RECORDING and at 0 outside PLAYING and RECORDING (sections 9.3 to
9.7); and every step keeps the play context where it belongs:
in every mode but START, UNCONFIGURED and IDLE (section 7.1). -/
def Obligations.StepsKeepTheRatesAndTheContext : Prop :=
  ∀ s t : State, step s = .next t → (RatesInv s → RatesInv t) ∧ (ContextInv s → ContextInv t)

/-- Every step keeps the own claim set one claim to a key, each with a class and PEER-MISMATCH with HOLD, the
STOP-LINE claim with the open stop line, and the effective class the greatest of the claims, the stop table and
the stop line; and every step keeps the drive latch clear while the class is SEVER (sections 7.4, 11.1, 11.2 and
11.6). -/
def Obligations.StepsKeepTheClaims : Prop :=
  ∀ s t : State, step s = .next t → (ClaimsInv s → ClaimsInv t) ∧ (LatchInv s → LatchInv t)

/-- Every step keeps each of the 64 blocks either free or in one take's block list, the free-block list in
ascending order, and EMPTY takes without blocks; and it keeps the keyframe pool in its canonical form, which
is the model's (section 6.1; log entry 6). -/
def Obligations.StepsKeepTheStore : Prop :=
  ∀ s t : State, step s = .next t →
    (BlocksInv s.ts → BlocksInv t.ts) ∧ (Pool.wf s.ts.pool → Pool.wf t.ts.pool)

/-- Every step keeps the channels DISABLED exactly where no axis is configured, and every configured axis's
setpoint between its travel limits with its velocity under the greatest (sections 3.1, 4.4 and 4.5). -/
def Obligations.StepsKeepTheSetpoint : Prop :=
  ∀ s t : State, SetpointInv s → step s = .next t → SetpointInv t
end

