-- ==== Sys2Proof/Laws/State.lean ====
section
/-! SUPPORT. One lemma for each field of the state and each block update, true by rfl, and the laws of
tables. -/

namespace Sys2Proof

/-! ### Tables -/

@[simp] theorem Table.get_set_self {α : Type} {n : Nat} (t : Table α n) (i : Fin n) (a : α) :
    (t.set i a).get i = a := by simp [Table.get, Table.set]

theorem Table.get_set {α : Type} {n : Nat} (t : Table α n) (i j : Fin n) (a : α) :
    (t.set i a).get j = if i = j then a else t.get j := by
  simp only [Table.get, Table.set, List.getElem_set, Fin.ext_iff]

theorem Table.get_set_ne {α : Type} {n : Nat} (t : Table α n) {i j : Fin n} (h : i ≠ j) (a : α) :
    (t.set i a).get j = t.get j := by simp [Table.get_set, h]

@[simp] theorem Table.get_ofFn {α : Type} {n : Nat} (f : Fin n → α) (i : Fin n) :
    (Table.ofFn f).get i = f i := by simp [Table.get, Table.ofFn]

@[simp] theorem Table.get_fill {α : Type} {n : Nat} (a : α) (i : Fin n) :
    (Table.fill n a).get i = a := by simp [Table.get, Table.fill]

@[simp] theorem Table.get_map {α β : Type} {n : Nat} (f : α → β) (t : Table α n) (i : Fin n) :
    (t.map f).get i = f (t.get i) := by simp [Table.get, Table.map]

theorem Table.ext_get {α : Type} {n : Nat} {t u : Table α n} (h : ∀ i, t.get i = u.get i) : t = u := by
  obtain ⟨xs, hx⟩ := t
  obtain ⟨ys, hy⟩ := u
  have : xs = ys := by
    apply List.ext_getElem (by omega)
    intro i h1 h2
    simpa [Table.get] using h ⟨i, by omega⟩
  subst this
  rfl

namespace Machine

/-! ### Block updates -/

@[simp] theorem setLc_lc (s : State) (x : LineController) : (s.setLc x).lc = x := rfl
@[simp] theorem setLc_pt (s : State) (x : LineController) : (s.setLc x).pt = s.pt := rfl
@[simp] theorem setLc_ax (s : State) (x : LineController) : (s.setLc x).ax = s.ax := rfl
@[simp] theorem setLc_lmu (s : State) (x : LineController) : (s.setLc x).lmu = s.lmu := rfl
@[simp] theorem setLc_ts (s : State) (x : LineController) : (s.setLc x).ts = s.ts := rfl
@[simp] theorem setLc_fd (s : State) (x : LineController) : (s.setLc x).fd = s.fd := rfl
@[simp] theorem setLc_tc (s : State) (x : LineController) : (s.setLc x).tc = s.tc := rfl
@[simp] theorem setLc_pu (s : State) (x : LineController) : (s.setLc x).pu = s.pu := rfl
@[simp] theorem setLc_gu (s : State) (x : LineController) : (s.setLc x).gu = s.gu := rfl
@[simp] theorem setLc_su (s : State) (x : LineController) : (s.setLc x).su = s.su := rfl
@[simp] theorem setLc_cl (s : State) (x : LineController) : (s.setLc x).cl = s.cl := rfl
@[simp] theorem setLc_pending (s : State) (x : LineController) : (s.setLc x).pending = s.pending := rfl

@[simp] theorem setPt_lc (s : State) (x : PeerTable) : (s.setPt x).lc = s.lc := rfl
@[simp] theorem setPt_pt (s : State) (x : PeerTable) : (s.setPt x).pt = x := rfl
@[simp] theorem setPt_ax (s : State) (x : PeerTable) : (s.setPt x).ax = s.ax := rfl
@[simp] theorem setPt_lmu (s : State) (x : PeerTable) : (s.setPt x).lmu = s.lmu := rfl
@[simp] theorem setPt_ts (s : State) (x : PeerTable) : (s.setPt x).ts = s.ts := rfl
@[simp] theorem setPt_fd (s : State) (x : PeerTable) : (s.setPt x).fd = s.fd := rfl
@[simp] theorem setPt_tc (s : State) (x : PeerTable) : (s.setPt x).tc = s.tc := rfl
@[simp] theorem setPt_pu (s : State) (x : PeerTable) : (s.setPt x).pu = s.pu := rfl
@[simp] theorem setPt_gu (s : State) (x : PeerTable) : (s.setPt x).gu = s.gu := rfl
@[simp] theorem setPt_su (s : State) (x : PeerTable) : (s.setPt x).su = s.su := rfl
@[simp] theorem setPt_cl (s : State) (x : PeerTable) : (s.setPt x).cl = s.cl := rfl
@[simp] theorem setPt_pending (s : State) (x : PeerTable) : (s.setPt x).pending = s.pending := rfl

@[simp] theorem setAx_lc (s : State) (x : AxisBlock) : (s.setAx x).lc = s.lc := rfl
@[simp] theorem setAx_pt (s : State) (x : AxisBlock) : (s.setAx x).pt = s.pt := rfl
@[simp] theorem setAx_ax (s : State) (x : AxisBlock) : (s.setAx x).ax = x := rfl
@[simp] theorem setAx_lmu (s : State) (x : AxisBlock) : (s.setAx x).lmu = s.lmu := rfl
@[simp] theorem setAx_ts (s : State) (x : AxisBlock) : (s.setAx x).ts = s.ts := rfl
@[simp] theorem setAx_fd (s : State) (x : AxisBlock) : (s.setAx x).fd = s.fd := rfl
@[simp] theorem setAx_tc (s : State) (x : AxisBlock) : (s.setAx x).tc = s.tc := rfl
@[simp] theorem setAx_pu (s : State) (x : AxisBlock) : (s.setAx x).pu = s.pu := rfl
@[simp] theorem setAx_gu (s : State) (x : AxisBlock) : (s.setAx x).gu = s.gu := rfl
@[simp] theorem setAx_su (s : State) (x : AxisBlock) : (s.setAx x).su = s.su := rfl
@[simp] theorem setAx_cl (s : State) (x : AxisBlock) : (s.setAx x).cl = s.cl := rfl
@[simp] theorem setAx_pending (s : State) (x : AxisBlock) : (s.setAx x).pending = s.pending := rfl

@[simp] theorem setLmu_lc (s : State) (x : Table LensChannel 3) : (s.setLmu x).lc = s.lc := rfl
@[simp] theorem setLmu_pt (s : State) (x : Table LensChannel 3) : (s.setLmu x).pt = s.pt := rfl
@[simp] theorem setLmu_ax (s : State) (x : Table LensChannel 3) : (s.setLmu x).ax = s.ax := rfl
@[simp] theorem setLmu_lmu (s : State) (x : Table LensChannel 3) : (s.setLmu x).lmu = x := rfl
@[simp] theorem setLmu_ts (s : State) (x : Table LensChannel 3) : (s.setLmu x).ts = s.ts := rfl
@[simp] theorem setLmu_fd (s : State) (x : Table LensChannel 3) : (s.setLmu x).fd = s.fd := rfl
@[simp] theorem setLmu_tc (s : State) (x : Table LensChannel 3) : (s.setLmu x).tc = s.tc := rfl
@[simp] theorem setLmu_pu (s : State) (x : Table LensChannel 3) : (s.setLmu x).pu = s.pu := rfl
@[simp] theorem setLmu_gu (s : State) (x : Table LensChannel 3) : (s.setLmu x).gu = s.gu := rfl
@[simp] theorem setLmu_su (s : State) (x : Table LensChannel 3) : (s.setLmu x).su = s.su := rfl
@[simp] theorem setLmu_cl (s : State) (x : Table LensChannel 3) : (s.setLmu x).cl = s.cl := rfl
@[simp] theorem setLmu_pending (s : State) (x : Table LensChannel 3) : (s.setLmu x).pending = s.pending := rfl

@[simp] theorem setTs_lc (s : State) (x : TakeStore) : (s.setTs x).lc = s.lc := rfl
@[simp] theorem setTs_pt (s : State) (x : TakeStore) : (s.setTs x).pt = s.pt := rfl
@[simp] theorem setTs_ax (s : State) (x : TakeStore) : (s.setTs x).ax = s.ax := rfl
@[simp] theorem setTs_lmu (s : State) (x : TakeStore) : (s.setTs x).lmu = s.lmu := rfl
@[simp] theorem setTs_ts (s : State) (x : TakeStore) : (s.setTs x).ts = x := rfl
@[simp] theorem setTs_fd (s : State) (x : TakeStore) : (s.setTs x).fd = s.fd := rfl
@[simp] theorem setTs_tc (s : State) (x : TakeStore) : (s.setTs x).tc = s.tc := rfl
@[simp] theorem setTs_pu (s : State) (x : TakeStore) : (s.setTs x).pu = s.pu := rfl
@[simp] theorem setTs_gu (s : State) (x : TakeStore) : (s.setTs x).gu = s.gu := rfl
@[simp] theorem setTs_su (s : State) (x : TakeStore) : (s.setTs x).su = s.su := rfl
@[simp] theorem setTs_cl (s : State) (x : TakeStore) : (s.setTs x).cl = s.cl := rfl
@[simp] theorem setTs_pending (s : State) (x : TakeStore) : (s.setTs x).pending = s.pending := rfl

@[simp] theorem setFd_lc (s : State) (x : Feeder) : (s.setFd x).lc = s.lc := rfl
@[simp] theorem setFd_pt (s : State) (x : Feeder) : (s.setFd x).pt = s.pt := rfl
@[simp] theorem setFd_ax (s : State) (x : Feeder) : (s.setFd x).ax = s.ax := rfl
@[simp] theorem setFd_lmu (s : State) (x : Feeder) : (s.setFd x).lmu = s.lmu := rfl
@[simp] theorem setFd_ts (s : State) (x : Feeder) : (s.setFd x).ts = s.ts := rfl
@[simp] theorem setFd_fd (s : State) (x : Feeder) : (s.setFd x).fd = x := rfl
@[simp] theorem setFd_tc (s : State) (x : Feeder) : (s.setFd x).tc = s.tc := rfl
@[simp] theorem setFd_pu (s : State) (x : Feeder) : (s.setFd x).pu = s.pu := rfl
@[simp] theorem setFd_gu (s : State) (x : Feeder) : (s.setFd x).gu = s.gu := rfl
@[simp] theorem setFd_su (s : State) (x : Feeder) : (s.setFd x).su = s.su := rfl
@[simp] theorem setFd_cl (s : State) (x : Feeder) : (s.setFd x).cl = s.cl := rfl
@[simp] theorem setFd_pending (s : State) (x : Feeder) : (s.setFd x).pending = s.pending := rfl

@[simp] theorem setTc_lc (s : State) (x : TakeController) : (s.setTc x).lc = s.lc := rfl
@[simp] theorem setTc_pt (s : State) (x : TakeController) : (s.setTc x).pt = s.pt := rfl
@[simp] theorem setTc_ax (s : State) (x : TakeController) : (s.setTc x).ax = s.ax := rfl
@[simp] theorem setTc_lmu (s : State) (x : TakeController) : (s.setTc x).lmu = s.lmu := rfl
@[simp] theorem setTc_ts (s : State) (x : TakeController) : (s.setTc x).ts = s.ts := rfl
@[simp] theorem setTc_fd (s : State) (x : TakeController) : (s.setTc x).fd = s.fd := rfl
@[simp] theorem setTc_tc (s : State) (x : TakeController) : (s.setTc x).tc = x := rfl
@[simp] theorem setTc_pu (s : State) (x : TakeController) : (s.setTc x).pu = s.pu := rfl
@[simp] theorem setTc_gu (s : State) (x : TakeController) : (s.setTc x).gu = s.gu := rfl
@[simp] theorem setTc_su (s : State) (x : TakeController) : (s.setTc x).su = s.su := rfl
@[simp] theorem setTc_cl (s : State) (x : TakeController) : (s.setTc x).cl = s.cl := rfl
@[simp] theorem setTc_pending (s : State) (x : TakeController) : (s.setTc x).pending = s.pending := rfl

@[simp] theorem setPu_lc (s : State) (x : PaceUnit) : (s.setPu x).lc = s.lc := rfl
@[simp] theorem setPu_pt (s : State) (x : PaceUnit) : (s.setPu x).pt = s.pt := rfl
@[simp] theorem setPu_ax (s : State) (x : PaceUnit) : (s.setPu x).ax = s.ax := rfl
@[simp] theorem setPu_lmu (s : State) (x : PaceUnit) : (s.setPu x).lmu = s.lmu := rfl
@[simp] theorem setPu_ts (s : State) (x : PaceUnit) : (s.setPu x).ts = s.ts := rfl
@[simp] theorem setPu_fd (s : State) (x : PaceUnit) : (s.setPu x).fd = s.fd := rfl
@[simp] theorem setPu_tc (s : State) (x : PaceUnit) : (s.setPu x).tc = s.tc := rfl
@[simp] theorem setPu_pu (s : State) (x : PaceUnit) : (s.setPu x).pu = x := rfl
@[simp] theorem setPu_gu (s : State) (x : PaceUnit) : (s.setPu x).gu = s.gu := rfl
@[simp] theorem setPu_su (s : State) (x : PaceUnit) : (s.setPu x).su = s.su := rfl
@[simp] theorem setPu_cl (s : State) (x : PaceUnit) : (s.setPu x).cl = s.cl := rfl
@[simp] theorem setPu_pending (s : State) (x : PaceUnit) : (s.setPu x).pending = s.pending := rfl

@[simp] theorem setGu_lc (s : State) (x : GuardUnit) : (s.setGu x).lc = s.lc := rfl
@[simp] theorem setGu_pt (s : State) (x : GuardUnit) : (s.setGu x).pt = s.pt := rfl
@[simp] theorem setGu_ax (s : State) (x : GuardUnit) : (s.setGu x).ax = s.ax := rfl
@[simp] theorem setGu_lmu (s : State) (x : GuardUnit) : (s.setGu x).lmu = s.lmu := rfl
@[simp] theorem setGu_ts (s : State) (x : GuardUnit) : (s.setGu x).ts = s.ts := rfl
@[simp] theorem setGu_fd (s : State) (x : GuardUnit) : (s.setGu x).fd = s.fd := rfl
@[simp] theorem setGu_tc (s : State) (x : GuardUnit) : (s.setGu x).tc = s.tc := rfl
@[simp] theorem setGu_pu (s : State) (x : GuardUnit) : (s.setGu x).pu = s.pu := rfl
@[simp] theorem setGu_gu (s : State) (x : GuardUnit) : (s.setGu x).gu = x := rfl
@[simp] theorem setGu_su (s : State) (x : GuardUnit) : (s.setGu x).su = s.su := rfl
@[simp] theorem setGu_cl (s : State) (x : GuardUnit) : (s.setGu x).cl = s.cl := rfl
@[simp] theorem setGu_pending (s : State) (x : GuardUnit) : (s.setGu x).pending = s.pending := rfl

@[simp] theorem setSu_lc (s : State) (x : StopUnit) : (s.setSu x).lc = s.lc := rfl
@[simp] theorem setSu_pt (s : State) (x : StopUnit) : (s.setSu x).pt = s.pt := rfl
@[simp] theorem setSu_ax (s : State) (x : StopUnit) : (s.setSu x).ax = s.ax := rfl
@[simp] theorem setSu_lmu (s : State) (x : StopUnit) : (s.setSu x).lmu = s.lmu := rfl
@[simp] theorem setSu_ts (s : State) (x : StopUnit) : (s.setSu x).ts = s.ts := rfl
@[simp] theorem setSu_fd (s : State) (x : StopUnit) : (s.setSu x).fd = s.fd := rfl
@[simp] theorem setSu_tc (s : State) (x : StopUnit) : (s.setSu x).tc = s.tc := rfl
@[simp] theorem setSu_pu (s : State) (x : StopUnit) : (s.setSu x).pu = s.pu := rfl
@[simp] theorem setSu_gu (s : State) (x : StopUnit) : (s.setSu x).gu = s.gu := rfl
@[simp] theorem setSu_su (s : State) (x : StopUnit) : (s.setSu x).su = x := rfl
@[simp] theorem setSu_cl (s : State) (x : StopUnit) : (s.setSu x).cl = s.cl := rfl
@[simp] theorem setSu_pending (s : State) (x : StopUnit) : (s.setSu x).pending = s.pending := rfl

@[simp] theorem setCl_lc (s : State) (x : Loader) : (s.setCl x).lc = s.lc := rfl
@[simp] theorem setCl_pt (s : State) (x : Loader) : (s.setCl x).pt = s.pt := rfl
@[simp] theorem setCl_ax (s : State) (x : Loader) : (s.setCl x).ax = s.ax := rfl
@[simp] theorem setCl_lmu (s : State) (x : Loader) : (s.setCl x).lmu = s.lmu := rfl
@[simp] theorem setCl_ts (s : State) (x : Loader) : (s.setCl x).ts = s.ts := rfl
@[simp] theorem setCl_fd (s : State) (x : Loader) : (s.setCl x).fd = s.fd := rfl
@[simp] theorem setCl_tc (s : State) (x : Loader) : (s.setCl x).tc = s.tc := rfl
@[simp] theorem setCl_pu (s : State) (x : Loader) : (s.setCl x).pu = s.pu := rfl
@[simp] theorem setCl_gu (s : State) (x : Loader) : (s.setCl x).gu = s.gu := rfl
@[simp] theorem setCl_su (s : State) (x : Loader) : (s.setCl x).su = s.su := rfl
@[simp] theorem setCl_cl (s : State) (x : Loader) : (s.setCl x).cl = x := rfl
@[simp] theorem setCl_pending (s : State) (x : Loader) : (s.setCl x).pending = s.pending := rfl

end Machine

end Sys2Proof
end

