-- ==== Sys2Proof/Laws/Frames.lean ====
section
/-! SUPPORT. What each shared operation of Machine/Ops.lean leaves alone, block by block: one lemma for each
operation and each block that it does not touch. -/

namespace Sys2Proof.Machine

/-- The three axis channels, written out. -/
@[simp] theorem allAxes_eq : allAxes = [0, 1, 2] := by decide
@[simp] theorem setCounters_pt (s : State) (c : Counters) :
    (setCounters s c).pt = s.pt := by
  simp [setCounters]
@[simp] theorem setCounters_ax (s : State) (c : Counters) :
    (setCounters s c).ax = s.ax := by
  simp [setCounters]
@[simp] theorem setCounters_lmu (s : State) (c : Counters) :
    (setCounters s c).lmu = s.lmu := by
  simp [setCounters]
@[simp] theorem setCounters_ts (s : State) (c : Counters) :
    (setCounters s c).ts = s.ts := by
  simp [setCounters]
@[simp] theorem setCounters_fd (s : State) (c : Counters) :
    (setCounters s c).fd = s.fd := by
  simp [setCounters]
@[simp] theorem setCounters_tc (s : State) (c : Counters) :
    (setCounters s c).tc = s.tc := by
  simp [setCounters]
@[simp] theorem setCounters_pu (s : State) (c : Counters) :
    (setCounters s c).pu = s.pu := by
  simp [setCounters]
@[simp] theorem setCounters_gu (s : State) (c : Counters) :
    (setCounters s c).gu = s.gu := by
  simp [setCounters]
@[simp] theorem setCounters_su (s : State) (c : Counters) :
    (setCounters s c).su = s.su := by
  simp [setCounters]
@[simp] theorem setCounters_cl (s : State) (c : Counters) :
    (setCounters s c).cl = s.cl := by
  simp [setCounters]
@[simp] theorem setCounters_pending (s : State) (c : Counters) :
    (setCounters s c).pending = s.pending := by
  simp [setCounters]
@[simp] theorem countCrcError_pt (s : State) :
    (countCrcError s).pt = s.pt := by
  simp [countCrcError]
@[simp] theorem countCrcError_ax (s : State) :
    (countCrcError s).ax = s.ax := by
  simp [countCrcError]
@[simp] theorem countCrcError_lmu (s : State) :
    (countCrcError s).lmu = s.lmu := by
  simp [countCrcError]
@[simp] theorem countCrcError_ts (s : State) :
    (countCrcError s).ts = s.ts := by
  simp [countCrcError]
@[simp] theorem countCrcError_fd (s : State) :
    (countCrcError s).fd = s.fd := by
  simp [countCrcError]
@[simp] theorem countCrcError_tc (s : State) :
    (countCrcError s).tc = s.tc := by
  simp [countCrcError]
@[simp] theorem countCrcError_pu (s : State) :
    (countCrcError s).pu = s.pu := by
  simp [countCrcError]
@[simp] theorem countCrcError_gu (s : State) :
    (countCrcError s).gu = s.gu := by
  simp [countCrcError]
@[simp] theorem countCrcError_su (s : State) :
    (countCrcError s).su = s.su := by
  simp [countCrcError]
@[simp] theorem countCrcError_cl (s : State) :
    (countCrcError s).cl = s.cl := by
  simp [countCrcError]
@[simp] theorem countCrcError_pending (s : State) :
    (countCrcError s).pending = s.pending := by
  simp [countCrcError]
@[simp] theorem countMalformed_pt (s : State) :
    (countMalformed s).pt = s.pt := by
  simp [countMalformed]
@[simp] theorem countMalformed_ax (s : State) :
    (countMalformed s).ax = s.ax := by
  simp [countMalformed]
@[simp] theorem countMalformed_lmu (s : State) :
    (countMalformed s).lmu = s.lmu := by
  simp [countMalformed]
@[simp] theorem countMalformed_ts (s : State) :
    (countMalformed s).ts = s.ts := by
  simp [countMalformed]
@[simp] theorem countMalformed_fd (s : State) :
    (countMalformed s).fd = s.fd := by
  simp [countMalformed]
@[simp] theorem countMalformed_tc (s : State) :
    (countMalformed s).tc = s.tc := by
  simp [countMalformed]
@[simp] theorem countMalformed_pu (s : State) :
    (countMalformed s).pu = s.pu := by
  simp [countMalformed]
@[simp] theorem countMalformed_gu (s : State) :
    (countMalformed s).gu = s.gu := by
  simp [countMalformed]
@[simp] theorem countMalformed_su (s : State) :
    (countMalformed s).su = s.su := by
  simp [countMalformed]
@[simp] theorem countMalformed_cl (s : State) :
    (countMalformed s).cl = s.cl := by
  simp [countMalformed]
@[simp] theorem countMalformed_pending (s : State) :
    (countMalformed s).pending = s.pending := by
  simp [countMalformed]
@[simp] theorem countTxFailure_pt (s : State) :
    (countTxFailure s).pt = s.pt := by
  simp [countTxFailure]
@[simp] theorem countTxFailure_ax (s : State) :
    (countTxFailure s).ax = s.ax := by
  simp [countTxFailure]
@[simp] theorem countTxFailure_lmu (s : State) :
    (countTxFailure s).lmu = s.lmu := by
  simp [countTxFailure]
@[simp] theorem countTxFailure_ts (s : State) :
    (countTxFailure s).ts = s.ts := by
  simp [countTxFailure]
@[simp] theorem countTxFailure_fd (s : State) :
    (countTxFailure s).fd = s.fd := by
  simp [countTxFailure]
@[simp] theorem countTxFailure_tc (s : State) :
    (countTxFailure s).tc = s.tc := by
  simp [countTxFailure]
@[simp] theorem countTxFailure_pu (s : State) :
    (countTxFailure s).pu = s.pu := by
  simp [countTxFailure]
@[simp] theorem countTxFailure_gu (s : State) :
    (countTxFailure s).gu = s.gu := by
  simp [countTxFailure]
@[simp] theorem countTxFailure_su (s : State) :
    (countTxFailure s).su = s.su := by
  simp [countTxFailure]
@[simp] theorem countTxFailure_cl (s : State) :
    (countTxFailure s).cl = s.cl := by
  simp [countTxFailure]
@[simp] theorem countTxFailure_pending (s : State) :
    (countTxFailure s).pending = s.pending := by
  simp [countTxFailure]
@[simp] theorem countTxDrop_pt (s : State) :
    (countTxDrop s).pt = s.pt := by
  simp [countTxDrop]
@[simp] theorem countTxDrop_ax (s : State) :
    (countTxDrop s).ax = s.ax := by
  simp [countTxDrop]
@[simp] theorem countTxDrop_lmu (s : State) :
    (countTxDrop s).lmu = s.lmu := by
  simp [countTxDrop]
@[simp] theorem countTxDrop_ts (s : State) :
    (countTxDrop s).ts = s.ts := by
  simp [countTxDrop]
@[simp] theorem countTxDrop_fd (s : State) :
    (countTxDrop s).fd = s.fd := by
  simp [countTxDrop]
@[simp] theorem countTxDrop_tc (s : State) :
    (countTxDrop s).tc = s.tc := by
  simp [countTxDrop]
@[simp] theorem countTxDrop_pu (s : State) :
    (countTxDrop s).pu = s.pu := by
  simp [countTxDrop]
@[simp] theorem countTxDrop_gu (s : State) :
    (countTxDrop s).gu = s.gu := by
  simp [countTxDrop]
@[simp] theorem countTxDrop_su (s : State) :
    (countTxDrop s).su = s.su := by
  simp [countTxDrop]
@[simp] theorem countTxDrop_cl (s : State) :
    (countTxDrop s).cl = s.cl := by
  simp [countTxDrop]
@[simp] theorem countTxDrop_pending (s : State) :
    (countTxDrop s).pending = s.pending := by
  simp [countTxDrop]
@[simp] theorem countRxDrop_pt (s : State) :
    (countRxDrop s).pt = s.pt := by
  simp [countRxDrop]
@[simp] theorem countRxDrop_ax (s : State) :
    (countRxDrop s).ax = s.ax := by
  simp [countRxDrop]
@[simp] theorem countRxDrop_lmu (s : State) :
    (countRxDrop s).lmu = s.lmu := by
  simp [countRxDrop]
@[simp] theorem countRxDrop_ts (s : State) :
    (countRxDrop s).ts = s.ts := by
  simp [countRxDrop]
@[simp] theorem countRxDrop_fd (s : State) :
    (countRxDrop s).fd = s.fd := by
  simp [countRxDrop]
@[simp] theorem countRxDrop_tc (s : State) :
    (countRxDrop s).tc = s.tc := by
  simp [countRxDrop]
@[simp] theorem countRxDrop_pu (s : State) :
    (countRxDrop s).pu = s.pu := by
  simp [countRxDrop]
@[simp] theorem countRxDrop_gu (s : State) :
    (countRxDrop s).gu = s.gu := by
  simp [countRxDrop]
@[simp] theorem countRxDrop_su (s : State) :
    (countRxDrop s).su = s.su := by
  simp [countRxDrop]
@[simp] theorem countRxDrop_cl (s : State) :
    (countRxDrop s).cl = s.cl := by
  simp [countRxDrop]
@[simp] theorem countRxDrop_pending (s : State) :
    (countRxDrop s).pending = s.pending := by
  simp [countRxDrop]
@[simp] theorem countAlignSkip_pt (s : State) :
    (countAlignSkip s).pt = s.pt := by
  simp [countAlignSkip]
@[simp] theorem countAlignSkip_ax (s : State) :
    (countAlignSkip s).ax = s.ax := by
  simp [countAlignSkip]
@[simp] theorem countAlignSkip_lmu (s : State) :
    (countAlignSkip s).lmu = s.lmu := by
  simp [countAlignSkip]
@[simp] theorem countAlignSkip_ts (s : State) :
    (countAlignSkip s).ts = s.ts := by
  simp [countAlignSkip]
@[simp] theorem countAlignSkip_fd (s : State) :
    (countAlignSkip s).fd = s.fd := by
  simp [countAlignSkip]
@[simp] theorem countAlignSkip_tc (s : State) :
    (countAlignSkip s).tc = s.tc := by
  simp [countAlignSkip]
@[simp] theorem countAlignSkip_pu (s : State) :
    (countAlignSkip s).pu = s.pu := by
  simp [countAlignSkip]
@[simp] theorem countAlignSkip_gu (s : State) :
    (countAlignSkip s).gu = s.gu := by
  simp [countAlignSkip]
@[simp] theorem countAlignSkip_su (s : State) :
    (countAlignSkip s).su = s.su := by
  simp [countAlignSkip]
@[simp] theorem countAlignSkip_cl (s : State) :
    (countAlignSkip s).cl = s.cl := by
  simp [countAlignSkip]
@[simp] theorem countAlignSkip_pending (s : State) :
    (countAlignSkip s).pending = s.pending := by
  simp [countAlignSkip]
@[simp] theorem countAdvanceOverrun_pt (s : State) :
    (countAdvanceOverrun s).pt = s.pt := by
  simp [countAdvanceOverrun]
@[simp] theorem countAdvanceOverrun_ax (s : State) :
    (countAdvanceOverrun s).ax = s.ax := by
  simp [countAdvanceOverrun]
@[simp] theorem countAdvanceOverrun_lmu (s : State) :
    (countAdvanceOverrun s).lmu = s.lmu := by
  simp [countAdvanceOverrun]
@[simp] theorem countAdvanceOverrun_ts (s : State) :
    (countAdvanceOverrun s).ts = s.ts := by
  simp [countAdvanceOverrun]
@[simp] theorem countAdvanceOverrun_fd (s : State) :
    (countAdvanceOverrun s).fd = s.fd := by
  simp [countAdvanceOverrun]
@[simp] theorem countAdvanceOverrun_tc (s : State) :
    (countAdvanceOverrun s).tc = s.tc := by
  simp [countAdvanceOverrun]
@[simp] theorem countAdvanceOverrun_pu (s : State) :
    (countAdvanceOverrun s).pu = s.pu := by
  simp [countAdvanceOverrun]
@[simp] theorem countAdvanceOverrun_gu (s : State) :
    (countAdvanceOverrun s).gu = s.gu := by
  simp [countAdvanceOverrun]
@[simp] theorem countAdvanceOverrun_su (s : State) :
    (countAdvanceOverrun s).su = s.su := by
  simp [countAdvanceOverrun]
@[simp] theorem countAdvanceOverrun_cl (s : State) :
    (countAdvanceOverrun s).cl = s.cl := by
  simp [countAdvanceOverrun]
@[simp] theorem countAdvanceOverrun_pending (s : State) :
    (countAdvanceOverrun s).pending = s.pending := by
  simp [countAdvanceOverrun]
@[simp] theorem handOver_pt (p : Payload) (s : State) :
    (handOver p s).pt = s.pt := by
  simp only [handOver]; split <;> (try split) <;> simp
@[simp] theorem handOver_ax (p : Payload) (s : State) :
    (handOver p s).ax = s.ax := by
  simp only [handOver]; split <;> (try split) <;> simp
@[simp] theorem handOver_lmu (p : Payload) (s : State) :
    (handOver p s).lmu = s.lmu := by
  simp only [handOver]; split <;> (try split) <;> simp
@[simp] theorem handOver_ts (p : Payload) (s : State) :
    (handOver p s).ts = s.ts := by
  simp only [handOver]; split <;> (try split) <;> simp
@[simp] theorem handOver_fd (p : Payload) (s : State) :
    (handOver p s).fd = s.fd := by
  simp only [handOver]; split <;> (try split) <;> simp
@[simp] theorem handOver_tc (p : Payload) (s : State) :
    (handOver p s).tc = s.tc := by
  simp only [handOver]; split <;> (try split) <;> simp
@[simp] theorem handOver_pu (p : Payload) (s : State) :
    (handOver p s).pu = s.pu := by
  simp only [handOver]; split <;> (try split) <;> simp
@[simp] theorem handOver_gu (p : Payload) (s : State) :
    (handOver p s).gu = s.gu := by
  simp only [handOver]; split <;> (try split) <;> simp
@[simp] theorem handOver_su (p : Payload) (s : State) :
    (handOver p s).su = s.su := by
  simp only [handOver]; split <;> (try split) <;> simp
@[simp] theorem handOver_cl (p : Payload) (s : State) :
    (handOver p s).cl = s.cl := by
  simp only [handOver]; split <;> (try split) <;> simp
@[simp] theorem handOver_pending (p : Payload) (s : State) :
    (handOver p s).pending = s.pending := by
  simp only [handOver]; split <;> (try split) <;> simp
@[simp] theorem handState_ax (s : State) :
    (handState s).ax = s.ax := by
  unfold handState; split <;> simp
@[simp] theorem handState_lmu (s : State) :
    (handState s).lmu = s.lmu := by
  unfold handState; split <;> simp
@[simp] theorem handState_ts (s : State) :
    (handState s).ts = s.ts := by
  unfold handState; split <;> simp
@[simp] theorem handState_fd (s : State) :
    (handState s).fd = s.fd := by
  unfold handState; split <;> simp
@[simp] theorem handState_tc (s : State) :
    (handState s).tc = s.tc := by
  unfold handState; split <;> simp
@[simp] theorem handState_pu (s : State) :
    (handState s).pu = s.pu := by
  unfold handState; split <;> simp
@[simp] theorem handState_gu (s : State) :
    (handState s).gu = s.gu := by
  unfold handState; split <;> simp
@[simp] theorem handState_su (s : State) :
    (handState s).su = s.su := by
  unfold handState; split <;> simp
@[simp] theorem handState_cl (s : State) :
    (handState s).cl = s.cl := by
  unfold handState; split <;> simp
@[simp] theorem handState_pending (s : State) :
    (handState s).pending = s.pending := by
  unfold handState; split <;> simp
@[simp] theorem handPace_pt (s : State) :
    (handPace s).pt = s.pt := by
  simp [handPace]
@[simp] theorem handPace_ax (s : State) :
    (handPace s).ax = s.ax := by
  simp [handPace]
@[simp] theorem handPace_lmu (s : State) :
    (handPace s).lmu = s.lmu := by
  simp [handPace]
@[simp] theorem handPace_ts (s : State) :
    (handPace s).ts = s.ts := by
  simp [handPace]
@[simp] theorem handPace_fd (s : State) :
    (handPace s).fd = s.fd := by
  simp [handPace]
@[simp] theorem handPace_tc (s : State) :
    (handPace s).tc = s.tc := by
  simp [handPace]
@[simp] theorem handPace_gu (s : State) :
    (handPace s).gu = s.gu := by
  simp [handPace]
@[simp] theorem handPace_su (s : State) :
    (handPace s).su = s.su := by
  simp [handPace]
@[simp] theorem handPace_cl (s : State) :
    (handPace s).cl = s.cl := by
  simp [handPace]
@[simp] theorem handPace_pending (s : State) :
    (handPace s).pending = s.pending := by
  simp [handPace]
@[simp] theorem announce_pt (s : State) :
    (announce s).pt = s.pt := by
  unfold announce; split <;> simp
@[simp] theorem announce_ax (s : State) :
    (announce s).ax = s.ax := by
  unfold announce; split <;> simp
@[simp] theorem announce_lmu (s : State) :
    (announce s).lmu = s.lmu := by
  unfold announce; split <;> simp
@[simp] theorem announce_ts (s : State) :
    (announce s).ts = s.ts := by
  unfold announce; split <;> simp
@[simp] theorem announce_fd (s : State) :
    (announce s).fd = s.fd := by
  unfold announce; split <;> simp
@[simp] theorem announce_tc (s : State) :
    (announce s).tc = s.tc := by
  unfold announce; split <;> simp
@[simp] theorem announce_gu (s : State) :
    (announce s).gu = s.gu := by
  unfold announce; split <;> simp
@[simp] theorem announce_su (s : State) :
    (announce s).su = s.su := by
  unfold announce; split <;> simp
@[simp] theorem announce_cl (s : State) :
    (announce s).cl = s.cl := by
  unfold announce; split <;> simp
@[simp] theorem announce_pending (s : State) :
    (announce s).pending = s.pending := by
  unfold announce; split <;> simp
@[simp] theorem handStop_pt (raised : Bool) (c : Cause) (s : State) :
    (handStop raised c s).pt = s.pt := by
  simp [handStop]
@[simp] theorem handStop_ax (raised : Bool) (c : Cause) (s : State) :
    (handStop raised c s).ax = s.ax := by
  simp [handStop]
@[simp] theorem handStop_lmu (raised : Bool) (c : Cause) (s : State) :
    (handStop raised c s).lmu = s.lmu := by
  simp [handStop]
@[simp] theorem handStop_ts (raised : Bool) (c : Cause) (s : State) :
    (handStop raised c s).ts = s.ts := by
  simp [handStop]
@[simp] theorem handStop_fd (raised : Bool) (c : Cause) (s : State) :
    (handStop raised c s).fd = s.fd := by
  simp [handStop]
@[simp] theorem handStop_tc (raised : Bool) (c : Cause) (s : State) :
    (handStop raised c s).tc = s.tc := by
  simp [handStop]
@[simp] theorem handStop_pu (raised : Bool) (c : Cause) (s : State) :
    (handStop raised c s).pu = s.pu := by
  simp [handStop]
@[simp] theorem handStop_gu (raised : Bool) (c : Cause) (s : State) :
    (handStop raised c s).gu = s.gu := by
  simp [handStop]
@[simp] theorem handStop_cl (raised : Bool) (c : Cause) (s : State) :
    (handStop raised c s).cl = s.cl := by
  simp [handStop]
@[simp] theorem handStop_pending (raised : Bool) (c : Cause) (s : State) :
    (handStop raised c s).pending = s.pending := by
  simp [handStop]
@[simp] theorem abandonBulk_lc (s : State) :
    (abandonBulk s).lc = s.lc := by
  unfold abandonBulk; split <;> simp
@[simp] theorem abandonBulk_pt (s : State) :
    (abandonBulk s).pt = s.pt := by
  unfold abandonBulk; split <;> simp
@[simp] theorem abandonBulk_ax (s : State) :
    (abandonBulk s).ax = s.ax := by
  unfold abandonBulk; split <;> simp
@[simp] theorem abandonBulk_lmu (s : State) :
    (abandonBulk s).lmu = s.lmu := by
  unfold abandonBulk; split <;> simp
@[simp] theorem abandonBulk_fd (s : State) :
    (abandonBulk s).fd = s.fd := by
  unfold abandonBulk; split <;> simp
@[simp] theorem abandonBulk_tc (s : State) :
    (abandonBulk s).tc = s.tc := by
  unfold abandonBulk; split <;> simp
@[simp] theorem abandonBulk_pu (s : State) :
    (abandonBulk s).pu = s.pu := by
  unfold abandonBulk; split <;> simp
@[simp] theorem abandonBulk_gu (s : State) :
    (abandonBulk s).gu = s.gu := by
  unfold abandonBulk; split <;> simp
@[simp] theorem abandonBulk_su (s : State) :
    (abandonBulk s).su = s.su := by
  unfold abandonBulk; split <;> simp
@[simp] theorem abandonBulk_cl (s : State) :
    (abandonBulk s).cl = s.cl := by
  unfold abandonBulk; split <;> simp
@[simp] theorem abandonBulk_pending (s : State) :
    (abandonBulk s).pending = s.pending := by
  unfold abandonBulk; split <;> simp
@[simp] theorem clearCeilings_lc (s : State) :
    (clearCeilings s).lc = s.lc := by
  simp [clearCeilings]
@[simp] theorem clearCeilings_ax (s : State) :
    (clearCeilings s).ax = s.ax := by
  simp [clearCeilings]
@[simp] theorem clearCeilings_lmu (s : State) :
    (clearCeilings s).lmu = s.lmu := by
  simp [clearCeilings]
@[simp] theorem clearCeilings_ts (s : State) :
    (clearCeilings s).ts = s.ts := by
  simp [clearCeilings]
@[simp] theorem clearCeilings_fd (s : State) :
    (clearCeilings s).fd = s.fd := by
  simp [clearCeilings]
@[simp] theorem clearCeilings_tc (s : State) :
    (clearCeilings s).tc = s.tc := by
  simp [clearCeilings]
@[simp] theorem clearCeilings_pu (s : State) :
    (clearCeilings s).pu = s.pu := by
  simp [clearCeilings]
@[simp] theorem clearCeilings_gu (s : State) :
    (clearCeilings s).gu = s.gu := by
  simp [clearCeilings]
@[simp] theorem clearCeilings_su (s : State) :
    (clearCeilings s).su = s.su := by
  simp [clearCeilings]
@[simp] theorem clearCeilings_cl (s : State) :
    (clearCeilings s).cl = s.cl := by
  simp [clearCeilings]
@[simp] theorem clearCeilings_pending (s : State) :
    (clearCeilings s).pending = s.pending := by
  simp [clearCeilings]
@[simp] theorem modeEffects_lc (old m : Mode) (s : State) :
    (modeEffects old m s).lc = s.lc := by
  simp only [modeEffects]; split <;> (try split) <;> (try split) <;> simp
@[simp] theorem modeEffects_ax (old m : Mode) (s : State) :
    (modeEffects old m s).ax = s.ax := by
  simp only [modeEffects]; split <;> (try split) <;> (try split) <;> simp
@[simp] theorem modeEffects_lmu (old m : Mode) (s : State) :
    (modeEffects old m s).lmu = s.lmu := by
  simp only [modeEffects]; split <;> (try split) <;> (try split) <;> simp
@[simp] theorem modeEffects_tc (old m : Mode) (s : State) :
    (modeEffects old m s).tc = s.tc := by
  simp only [modeEffects]; split <;> (try split) <;> (try split) <;> simp
@[simp] theorem modeEffects_gu (old m : Mode) (s : State) :
    (modeEffects old m s).gu = s.gu := by
  simp only [modeEffects]; split <;> (try split) <;> (try split) <;> simp
@[simp] theorem modeEffects_su (old m : Mode) (s : State) :
    (modeEffects old m s).su = s.su := by
  simp only [modeEffects]; split <;> (try split) <;> (try split) <;> simp
@[simp] theorem modeEffects_cl (old m : Mode) (s : State) :
    (modeEffects old m s).cl = s.cl := by
  simp only [modeEffects]; split <;> (try split) <;> (try split) <;> simp
@[simp] theorem modeEffects_pending (old m : Mode) (s : State) :
    (modeEffects old m s).pending = s.pending := by
  simp only [modeEffects]; split <;> (try split) <;> (try split) <;> simp
@[simp] theorem setMode_ax (m : Mode) (s : State) :
    (setMode m s).ax = s.ax := by
  simp only [setMode]; split <;> (try split) <;> simp
@[simp] theorem setMode_lmu (m : Mode) (s : State) :
    (setMode m s).lmu = s.lmu := by
  simp only [setMode]; split <;> (try split) <;> simp
@[simp] theorem setMode_gu (m : Mode) (s : State) :
    (setMode m s).gu = s.gu := by
  simp only [setMode]; split <;> (try split) <;> simp
@[simp] theorem setMode_su (m : Mode) (s : State) :
    (setMode m s).su = s.su := by
  simp only [setMode]; split <;> (try split) <;> simp
@[simp] theorem setMode_cl (m : Mode) (s : State) :
    (setMode m s).cl = s.cl := by
  simp only [setMode]; split <;> (try split) <;> simp
@[simp] theorem setMode_pending (m : Mode) (s : State) :
    (setMode m s).pending = s.pending := by
  simp only [setMode]; split <;> (try split) <;> simp
@[simp] theorem changeover_lc (i : Axis) (s : State) :
    (changeover i s).lc = s.lc := by
  simp only [changeover]; split <;> simp
@[simp] theorem changeover_pt (i : Axis) (s : State) :
    (changeover i s).pt = s.pt := by
  simp only [changeover]; split <;> simp
@[simp] theorem changeover_ax (i : Axis) (s : State) :
    (changeover i s).ax = s.ax := by
  simp only [changeover]; split <;> simp
@[simp] theorem changeover_ts (i : Axis) (s : State) :
    (changeover i s).ts = s.ts := by
  simp only [changeover]; split <;> simp
@[simp] theorem changeover_fd (i : Axis) (s : State) :
    (changeover i s).fd = s.fd := by
  simp only [changeover]; split <;> simp
@[simp] theorem changeover_tc (i : Axis) (s : State) :
    (changeover i s).tc = s.tc := by
  simp only [changeover]; split <;> simp
@[simp] theorem changeover_pu (i : Axis) (s : State) :
    (changeover i s).pu = s.pu := by
  simp only [changeover]; split <;> simp
@[simp] theorem changeover_gu (i : Axis) (s : State) :
    (changeover i s).gu = s.gu := by
  simp only [changeover]; split <;> simp
@[simp] theorem changeover_su (i : Axis) (s : State) :
    (changeover i s).su = s.su := by
  simp only [changeover]; split <;> simp
@[simp] theorem changeover_cl (i : Axis) (s : State) :
    (changeover i s).cl = s.cl := by
  simp only [changeover]; split <;> simp
@[simp] theorem changeover_pending (i : Axis) (s : State) :
    (changeover i s).pending = s.pending := by
  simp only [changeover]; split <;> simp
@[simp] theorem setChannel_lc (i : Axis) (c : AxisChannel) (s : State) :
    (setChannel i c s).lc = s.lc := by
  simp only [setChannel]; split <;> simp
@[simp] theorem setChannel_pt (i : Axis) (c : AxisChannel) (s : State) :
    (setChannel i c s).pt = s.pt := by
  simp only [setChannel]; split <;> simp
@[simp] theorem setChannel_ts (i : Axis) (c : AxisChannel) (s : State) :
    (setChannel i c s).ts = s.ts := by
  simp only [setChannel]; split <;> simp
@[simp] theorem setChannel_fd (i : Axis) (c : AxisChannel) (s : State) :
    (setChannel i c s).fd = s.fd := by
  simp only [setChannel]; split <;> simp
@[simp] theorem setChannel_tc (i : Axis) (c : AxisChannel) (s : State) :
    (setChannel i c s).tc = s.tc := by
  simp only [setChannel]; split <;> simp
@[simp] theorem setChannel_pu (i : Axis) (c : AxisChannel) (s : State) :
    (setChannel i c s).pu = s.pu := by
  simp only [setChannel]; split <;> simp
@[simp] theorem setChannel_gu (i : Axis) (c : AxisChannel) (s : State) :
    (setChannel i c s).gu = s.gu := by
  simp only [setChannel]; split <;> simp
@[simp] theorem setChannel_su (i : Axis) (c : AxisChannel) (s : State) :
    (setChannel i c s).su = s.su := by
  simp only [setChannel]; split <;> simp
@[simp] theorem setChannel_cl (i : Axis) (c : AxisChannel) (s : State) :
    (setChannel i c s).cl = s.cl := by
  simp only [setChannel]; split <;> simp
@[simp] theorem setChannel_pending (i : Axis) (c : AxisChannel) (s : State) :
    (setChannel i c s).pending = s.pending := by
  simp only [setChannel]; split <;> simp
@[simp] theorem settlePunches_lc (s : State) :
    (settlePunches s).lc = s.lc := by
  simp [settlePunches]
@[simp] theorem settlePunches_pt (s : State) :
    (settlePunches s).pt = s.pt := by
  simp [settlePunches]
@[simp] theorem settlePunches_lmu (s : State) :
    (settlePunches s).lmu = s.lmu := by
  simp [settlePunches]
@[simp] theorem settlePunches_fd (s : State) :
    (settlePunches s).fd = s.fd := by
  simp [settlePunches]
@[simp] theorem settlePunches_tc (s : State) :
    (settlePunches s).tc = s.tc := by
  simp [settlePunches]
@[simp] theorem settlePunches_pu (s : State) :
    (settlePunches s).pu = s.pu := by
  simp [settlePunches]
@[simp] theorem settlePunches_gu (s : State) :
    (settlePunches s).gu = s.gu := by
  simp [settlePunches]
@[simp] theorem settlePunches_su (s : State) :
    (settlePunches s).su = s.su := by
  simp [settlePunches]
@[simp] theorem settlePunches_cl (s : State) :
    (settlePunches s).cl = s.cl := by
  simp [settlePunches]
@[simp] theorem settlePunches_pending (s : State) :
    (settlePunches s).pending = s.pending := by
  simp [settlePunches]
@[simp] theorem endPunch_lc (i : Axis) (s : State) :
    (endPunch i s).lc = s.lc := by
  simp [endPunch]
@[simp] theorem endPunch_pt (i : Axis) (s : State) :
    (endPunch i s).pt = s.pt := by
  simp [endPunch]
@[simp] theorem endPunch_lmu (i : Axis) (s : State) :
    (endPunch i s).lmu = s.lmu := by
  simp [endPunch]
@[simp] theorem endPunch_fd (i : Axis) (s : State) :
    (endPunch i s).fd = s.fd := by
  simp [endPunch]
@[simp] theorem endPunch_tc (i : Axis) (s : State) :
    (endPunch i s).tc = s.tc := by
  simp [endPunch]
@[simp] theorem endPunch_pu (i : Axis) (s : State) :
    (endPunch i s).pu = s.pu := by
  simp [endPunch]
@[simp] theorem endPunch_gu (i : Axis) (s : State) :
    (endPunch i s).gu = s.gu := by
  simp [endPunch]
@[simp] theorem endPunch_su (i : Axis) (s : State) :
    (endPunch i s).su = s.su := by
  simp [endPunch]
@[simp] theorem endPunch_cl (i : Axis) (s : State) :
    (endPunch i s).cl = s.cl := by
  simp [endPunch]
@[simp] theorem endPunch_pending (i : Axis) (s : State) :
    (endPunch i s).pending = s.pending := by
  simp [endPunch]
@[simp] theorem takeClassAt_lc (old : Cls) (s : State) (i : Axis) :
    (takeClassAt old s i).lc = s.lc := by
  simp only [takeClassAt]; split <;> simp
@[simp] theorem takeClassAt_pt (old : Cls) (s : State) (i : Axis) :
    (takeClassAt old s i).pt = s.pt := by
  simp only [takeClassAt]; split <;> simp
@[simp] theorem takeClassAt_fd (old : Cls) (s : State) (i : Axis) :
    (takeClassAt old s i).fd = s.fd := by
  simp only [takeClassAt]; split <;> simp
@[simp] theorem takeClassAt_tc (old : Cls) (s : State) (i : Axis) :
    (takeClassAt old s i).tc = s.tc := by
  simp only [takeClassAt]; split <;> simp
@[simp] theorem takeClassAt_pu (old : Cls) (s : State) (i : Axis) :
    (takeClassAt old s i).pu = s.pu := by
  simp only [takeClassAt]; split <;> simp
@[simp] theorem takeClassAt_gu (old : Cls) (s : State) (i : Axis) :
    (takeClassAt old s i).gu = s.gu := by
  simp only [takeClassAt]; split <;> simp
@[simp] theorem takeClassAt_su (old : Cls) (s : State) (i : Axis) :
    (takeClassAt old s i).su = s.su := by
  simp only [takeClassAt]; split <;> simp
@[simp] theorem takeClassAt_cl (old : Cls) (s : State) (i : Axis) :
    (takeClassAt old s i).cl = s.cl := by
  simp only [takeClassAt]; split <;> simp
@[simp] theorem takeClassAt_pending (old : Cls) (s : State) (i : Axis) :
    (takeClassAt old s i).pending = s.pending := by
  simp only [takeClassAt]; split <;> simp
@[simp] theorem dropRates_lc (old : Cls) (s : State) :
    (dropRates old s).lc = s.lc := by
  unfold dropRates; split <;> simp
@[simp] theorem dropRates_pt (old : Cls) (s : State) :
    (dropRates old s).pt = s.pt := by
  unfold dropRates; split <;> simp
@[simp] theorem dropRates_ax (old : Cls) (s : State) :
    (dropRates old s).ax = s.ax := by
  unfold dropRates; split <;> simp
@[simp] theorem dropRates_lmu (old : Cls) (s : State) :
    (dropRates old s).lmu = s.lmu := by
  unfold dropRates; split <;> simp
@[simp] theorem dropRates_ts (old : Cls) (s : State) :
    (dropRates old s).ts = s.ts := by
  unfold dropRates; split <;> simp
@[simp] theorem dropRates_fd (old : Cls) (s : State) :
    (dropRates old s).fd = s.fd := by
  unfold dropRates; split <;> simp
@[simp] theorem dropRates_tc (old : Cls) (s : State) :
    (dropRates old s).tc = s.tc := by
  unfold dropRates; split <;> simp
@[simp] theorem dropRates_gu (old : Cls) (s : State) :
    (dropRates old s).gu = s.gu := by
  unfold dropRates; split <;> simp
@[simp] theorem dropRates_su (old : Cls) (s : State) :
    (dropRates old s).su = s.su := by
  unfold dropRates; split <;> simp
@[simp] theorem dropRates_cl (old : Cls) (s : State) :
    (dropRates old s).cl = s.cl := by
  unfold dropRates; split <;> simp
@[simp] theorem dropRates_pending (old : Cls) (s : State) :
    (dropRates old s).pending = s.pending := by
  unfold dropRates; split <;> simp
@[simp] theorem dropLatch_lc (s : State) :
    (dropLatch s).lc = s.lc := by
  unfold dropLatch; split <;> simp
@[simp] theorem dropLatch_pt (s : State) :
    (dropLatch s).pt = s.pt := by
  unfold dropLatch; split <;> simp
@[simp] theorem dropLatch_ax (s : State) :
    (dropLatch s).ax = s.ax := by
  unfold dropLatch; split <;> simp
@[simp] theorem dropLatch_lmu (s : State) :
    (dropLatch s).lmu = s.lmu := by
  unfold dropLatch; split <;> simp
@[simp] theorem dropLatch_ts (s : State) :
    (dropLatch s).ts = s.ts := by
  unfold dropLatch; split <;> simp
@[simp] theorem dropLatch_fd (s : State) :
    (dropLatch s).fd = s.fd := by
  unfold dropLatch; split <;> simp
@[simp] theorem dropLatch_tc (s : State) :
    (dropLatch s).tc = s.tc := by
  unfold dropLatch; split <;> simp
@[simp] theorem dropLatch_pu (s : State) :
    (dropLatch s).pu = s.pu := by
  unfold dropLatch; split <;> simp
@[simp] theorem dropLatch_gu (s : State) :
    (dropLatch s).gu = s.gu := by
  unfold dropLatch; split <;> simp
@[simp] theorem dropLatch_cl (s : State) :
    (dropLatch s).cl = s.cl := by
  unfold dropLatch; split <;> simp
@[simp] theorem dropLatch_pending (s : State) :
    (dropLatch s).pending = s.pending := by
  unfold dropLatch; split <;> simp
@[simp] theorem requestTaint_lc (old : Cls) (trip : TakeTime) (s : State) :
    (requestTaint old trip s).lc = s.lc := by
  unfold requestTaint; split <;> simp
@[simp] theorem requestTaint_pt (old : Cls) (trip : TakeTime) (s : State) :
    (requestTaint old trip s).pt = s.pt := by
  unfold requestTaint; split <;> simp
@[simp] theorem requestTaint_ax (old : Cls) (trip : TakeTime) (s : State) :
    (requestTaint old trip s).ax = s.ax := by
  unfold requestTaint; split <;> simp
@[simp] theorem requestTaint_lmu (old : Cls) (trip : TakeTime) (s : State) :
    (requestTaint old trip s).lmu = s.lmu := by
  unfold requestTaint; split <;> simp
@[simp] theorem requestTaint_fd (old : Cls) (trip : TakeTime) (s : State) :
    (requestTaint old trip s).fd = s.fd := by
  unfold requestTaint; split <;> simp
@[simp] theorem requestTaint_tc (old : Cls) (trip : TakeTime) (s : State) :
    (requestTaint old trip s).tc = s.tc := by
  unfold requestTaint; split <;> simp
@[simp] theorem requestTaint_pu (old : Cls) (trip : TakeTime) (s : State) :
    (requestTaint old trip s).pu = s.pu := by
  unfold requestTaint; split <;> simp
@[simp] theorem requestTaint_gu (old : Cls) (trip : TakeTime) (s : State) :
    (requestTaint old trip s).gu = s.gu := by
  unfold requestTaint; split <;> simp
@[simp] theorem requestTaint_su (old : Cls) (trip : TakeTime) (s : State) :
    (requestTaint old trip s).su = s.su := by
  unfold requestTaint; split <;> simp
@[simp] theorem requestTaint_cl (old : Cls) (trip : TakeTime) (s : State) :
    (requestTaint old trip s).cl = s.cl := by
  unfold requestTaint; split <;> simp
@[simp] theorem requestTaint_pending (old : Cls) (trip : TakeTime) (s : State) :
    (requestTaint old trip s).pending = s.pending := by
  unfold requestTaint; split <;> simp
@[simp] theorem reportClass_ax (old : Cls) (s : State) :
    (reportClass old s).ax = s.ax := by
  simp only [reportClass]; split <;> simp
@[simp] theorem reportClass_lmu (old : Cls) (s : State) :
    (reportClass old s).lmu = s.lmu := by
  simp only [reportClass]; split <;> simp
@[simp] theorem reportClass_ts (old : Cls) (s : State) :
    (reportClass old s).ts = s.ts := by
  simp only [reportClass]; split <;> simp
@[simp] theorem reportClass_fd (old : Cls) (s : State) :
    (reportClass old s).fd = s.fd := by
  simp only [reportClass]; split <;> simp
@[simp] theorem reportClass_tc (old : Cls) (s : State) :
    (reportClass old s).tc = s.tc := by
  simp only [reportClass]; split <;> simp
@[simp] theorem reportClass_pu (old : Cls) (s : State) :
    (reportClass old s).pu = s.pu := by
  simp only [reportClass]; split <;> simp
@[simp] theorem reportClass_gu (old : Cls) (s : State) :
    (reportClass old s).gu = s.gu := by
  simp only [reportClass]; split <;> simp
@[simp] theorem reportClass_su (old : Cls) (s : State) :
    (reportClass old s).su = s.su := by
  simp only [reportClass]; split <;> simp
@[simp] theorem reportClass_cl (old : Cls) (s : State) :
    (reportClass old s).cl = s.cl := by
  simp only [reportClass]; split <;> simp
@[simp] theorem reportClass_pending (old : Cls) (s : State) :
    (reportClass old s).pending = s.pending := by
  simp only [reportClass]; split <;> simp
@[simp] theorem takeClass_fd (old : Cls) (trip : TakeTime) (s : State) :
    (takeClass old trip s).fd = s.fd := by
  simp [takeClass]
@[simp] theorem takeClass_tc (old : Cls) (trip : TakeTime) (s : State) :
    (takeClass old trip s).tc = s.tc := by
  simp [takeClass]
@[simp] theorem takeClass_gu (old : Cls) (trip : TakeTime) (s : State) :
    (takeClass old trip s).gu = s.gu := by
  simp [takeClass]
@[simp] theorem takeClass_cl (old : Cls) (trip : TakeTime) (s : State) :
    (takeClass old trip s).cl = s.cl := by
  simp [takeClass]
@[simp] theorem takeClass_pending (old : Cls) (trip : TakeTime) (s : State) :
    (takeClass old trip s).pending = s.pending := by
  simp [takeClass]
@[simp] theorem formClass_lc (s : State) :
    (formClass s).lc = s.lc := by
  simp [formClass]
@[simp] theorem formClass_pt (s : State) :
    (formClass s).pt = s.pt := by
  simp [formClass]
@[simp] theorem formClass_ax (s : State) :
    (formClass s).ax = s.ax := by
  simp [formClass]
@[simp] theorem formClass_lmu (s : State) :
    (formClass s).lmu = s.lmu := by
  simp [formClass]
@[simp] theorem formClass_ts (s : State) :
    (formClass s).ts = s.ts := by
  simp [formClass]
@[simp] theorem formClass_fd (s : State) :
    (formClass s).fd = s.fd := by
  simp [formClass]
@[simp] theorem formClass_tc (s : State) :
    (formClass s).tc = s.tc := by
  simp [formClass]
@[simp] theorem formClass_pu (s : State) :
    (formClass s).pu = s.pu := by
  simp [formClass]
@[simp] theorem formClass_gu (s : State) :
    (formClass s).gu = s.gu := by
  simp [formClass]
@[simp] theorem formClass_cl (s : State) :
    (formClass s).cl = s.cl := by
  simp [formClass]
@[simp] theorem formClass_pending (s : State) :
    (formClass s).pending = s.pending := by
  simp [formClass]
@[simp] theorem changeOwn_pt (raised : Bool) (c : Cause) (own : List Claim) (s : State) :
    (changeOwn raised c own s).pt = s.pt := by
  simp [changeOwn]
@[simp] theorem changeOwn_ax (raised : Bool) (c : Cause) (own : List Claim) (s : State) :
    (changeOwn raised c own s).ax = s.ax := by
  simp [changeOwn]
@[simp] theorem changeOwn_lmu (raised : Bool) (c : Cause) (own : List Claim) (s : State) :
    (changeOwn raised c own s).lmu = s.lmu := by
  simp [changeOwn]
@[simp] theorem changeOwn_ts (raised : Bool) (c : Cause) (own : List Claim) (s : State) :
    (changeOwn raised c own s).ts = s.ts := by
  simp [changeOwn]
@[simp] theorem changeOwn_fd (raised : Bool) (c : Cause) (own : List Claim) (s : State) :
    (changeOwn raised c own s).fd = s.fd := by
  simp [changeOwn]
@[simp] theorem changeOwn_tc (raised : Bool) (c : Cause) (own : List Claim) (s : State) :
    (changeOwn raised c own s).tc = s.tc := by
  simp [changeOwn]
@[simp] theorem changeOwn_pu (raised : Bool) (c : Cause) (own : List Claim) (s : State) :
    (changeOwn raised c own s).pu = s.pu := by
  simp [changeOwn]
@[simp] theorem changeOwn_gu (raised : Bool) (c : Cause) (own : List Claim) (s : State) :
    (changeOwn raised c own s).gu = s.gu := by
  simp [changeOwn]
@[simp] theorem changeOwn_cl (raised : Bool) (c : Cause) (own : List Claim) (s : State) :
    (changeOwn raised c own s).cl = s.cl := by
  simp [changeOwn]
@[simp] theorem changeOwn_pending (raised : Bool) (c : Cause) (own : List Claim) (s : State) :
    (changeOwn raised c own s).pending = s.pending := by
  simp [changeOwn]
@[simp] theorem releaseKey_fd (c : Cause) (s : State) :
    (releaseKey c s).fd = s.fd := by
  simp only [releaseKey]; split <;> (try split) <;> simp
@[simp] theorem releaseKey_tc (c : Cause) (s : State) :
    (releaseKey c s).tc = s.tc := by
  simp only [releaseKey]; split <;> (try split) <;> simp
@[simp] theorem releaseKey_gu (c : Cause) (s : State) :
    (releaseKey c s).gu = s.gu := by
  simp only [releaseKey]; split <;> (try split) <;> simp
@[simp] theorem releaseKey_cl (c : Cause) (s : State) :
    (releaseKey c s).cl = s.cl := by
  simp only [releaseKey]; split <;> (try split) <;> simp
@[simp] theorem releaseKey_pending (c : Cause) (s : State) :
    (releaseKey c s).pending = s.pending := by
  simp only [releaseKey]; split <;> (try split) <;> simp
@[simp] theorem idleAt_lc (s : State) (i : Axis) :
    (idleAt s i).lc = s.lc := by
  simp only [idleAt]; split <;> (try split) <;> (try split) <;> simp
@[simp] theorem idleAt_pt (s : State) (i : Axis) :
    (idleAt s i).pt = s.pt := by
  simp only [idleAt]; split <;> (try split) <;> (try split) <;> simp
@[simp] theorem idleAt_fd (s : State) (i : Axis) :
    (idleAt s i).fd = s.fd := by
  simp only [idleAt]; split <;> (try split) <;> (try split) <;> simp
@[simp] theorem idleAt_tc (s : State) (i : Axis) :
    (idleAt s i).tc = s.tc := by
  simp only [idleAt]; split <;> (try split) <;> (try split) <;> simp
@[simp] theorem idleAt_pu (s : State) (i : Axis) :
    (idleAt s i).pu = s.pu := by
  simp only [idleAt]; split <;> (try split) <;> (try split) <;> simp
@[simp] theorem idleAt_gu (s : State) (i : Axis) :
    (idleAt s i).gu = s.gu := by
  simp only [idleAt]; split <;> (try split) <;> (try split) <;> simp
@[simp] theorem idleAt_su (s : State) (i : Axis) :
    (idleAt s i).su = s.su := by
  simp only [idleAt]; split <;> (try split) <;> (try split) <;> simp
@[simp] theorem idleAt_cl (s : State) (i : Axis) :
    (idleAt s i).cl = s.cl := by
  simp only [idleAt]; split <;> (try split) <;> (try split) <;> simp
@[simp] theorem idleAt_pending (s : State) (i : Axis) :
    (idleAt s i).pending = s.pending := by
  simp only [idleAt]; split <;> (try split) <;> (try split) <;> simp
@[simp] theorem clearFeeder_lc (s : State) :
    (clearFeeder s).lc = s.lc := by
  simp [clearFeeder]
@[simp] theorem clearFeeder_pt (s : State) :
    (clearFeeder s).pt = s.pt := by
  simp [clearFeeder]
@[simp] theorem clearFeeder_ax (s : State) :
    (clearFeeder s).ax = s.ax := by
  simp [clearFeeder]
@[simp] theorem clearFeeder_lmu (s : State) :
    (clearFeeder s).lmu = s.lmu := by
  simp [clearFeeder]
@[simp] theorem clearFeeder_ts (s : State) :
    (clearFeeder s).ts = s.ts := by
  simp [clearFeeder]
@[simp] theorem clearFeeder_tc (s : State) :
    (clearFeeder s).tc = s.tc := by
  simp [clearFeeder]
@[simp] theorem clearFeeder_pu (s : State) :
    (clearFeeder s).pu = s.pu := by
  simp [clearFeeder]
@[simp] theorem clearFeeder_gu (s : State) :
    (clearFeeder s).gu = s.gu := by
  simp [clearFeeder]
@[simp] theorem clearFeeder_su (s : State) :
    (clearFeeder s).su = s.su := by
  simp [clearFeeder]
@[simp] theorem clearFeeder_cl (s : State) :
    (clearFeeder s).cl = s.cl := by
  simp [clearFeeder]
@[simp] theorem clearFeeder_pending (s : State) :
    (clearFeeder s).pending = s.pending := by
  simp [clearFeeder]
@[simp] theorem disarm_lc (s : State) :
    (disarm s).lc = s.lc := by
  simp only [disarm]; split <;> (try split) <;> simp
@[simp] theorem disarm_pt (s : State) :
    (disarm s).pt = s.pt := by
  simp only [disarm]; split <;> (try split) <;> simp
@[simp] theorem disarm_ax (s : State) :
    (disarm s).ax = s.ax := by
  simp only [disarm]; split <;> (try split) <;> simp
@[simp] theorem disarm_lmu (s : State) :
    (disarm s).lmu = s.lmu := by
  simp only [disarm]; split <;> (try split) <;> simp
@[simp] theorem disarm_fd (s : State) :
    (disarm s).fd = s.fd := by
  simp only [disarm]; split <;> (try split) <;> simp
@[simp] theorem disarm_tc (s : State) :
    (disarm s).tc = s.tc := by
  simp only [disarm]; split <;> (try split) <;> simp
@[simp] theorem disarm_pu (s : State) :
    (disarm s).pu = s.pu := by
  simp only [disarm]; split <;> (try split) <;> simp
@[simp] theorem disarm_gu (s : State) :
    (disarm s).gu = s.gu := by
  simp only [disarm]; split <;> (try split) <;> simp
@[simp] theorem disarm_su (s : State) :
    (disarm s).su = s.su := by
  simp only [disarm]; split <;> (try split) <;> simp
@[simp] theorem disarm_cl (s : State) :
    (disarm s).cl = s.cl := by
  simp only [disarm]; split <;> (try split) <;> simp
@[simp] theorem disarm_pending (s : State) :
    (disarm s).pending = s.pending := by
  simp only [disarm]; split <;> (try split) <;> simp
@[simp] theorem returnToIdle_gu (s : State) :
    (returnToIdle s).gu = s.gu := by
  simp [returnToIdle]
@[simp] theorem returnToIdle_cl (s : State) :
    (returnToIdle s).cl = s.cl := by
  simp [returnToIdle]
@[simp] theorem returnToIdle_pending (s : State) :
    (returnToIdle s).pending = s.pending := by
  simp [returnToIdle]
@[simp] theorem cancelRoll_ax (cause : CancelCause) (s : State) :
    (cancelRoll cause s).ax = s.ax := by
  simp [cancelRoll]
@[simp] theorem cancelRoll_lmu (cause : CancelCause) (s : State) :
    (cancelRoll cause s).lmu = s.lmu := by
  simp [cancelRoll]
@[simp] theorem cancelRoll_gu (cause : CancelCause) (s : State) :
    (cancelRoll cause s).gu = s.gu := by
  simp [cancelRoll]
@[simp] theorem cancelRoll_su (cause : CancelCause) (s : State) :
    (cancelRoll cause s).su = s.su := by
  simp [cancelRoll]
@[simp] theorem cancelRoll_cl (cause : CancelCause) (s : State) :
    (cancelRoll cause s).cl = s.cl := by
  simp [cancelRoll]
@[simp] theorem cancelRoll_pending (cause : CancelCause) (s : State) :
    (cancelRoll cause s).pending = s.pending := by
  simp [cancelRoll]
@[simp] theorem suspendFeeder_lc (s : State) :
    (suspendFeeder s).lc = s.lc := by
  simp [suspendFeeder]
@[simp] theorem suspendFeeder_pt (s : State) :
    (suspendFeeder s).pt = s.pt := by
  simp [suspendFeeder]
@[simp] theorem suspendFeeder_ax (s : State) :
    (suspendFeeder s).ax = s.ax := by
  simp [suspendFeeder]
@[simp] theorem suspendFeeder_lmu (s : State) :
    (suspendFeeder s).lmu = s.lmu := by
  simp [suspendFeeder]
@[simp] theorem suspendFeeder_ts (s : State) :
    (suspendFeeder s).ts = s.ts := by
  simp [suspendFeeder]
@[simp] theorem suspendFeeder_tc (s : State) :
    (suspendFeeder s).tc = s.tc := by
  simp [suspendFeeder]
@[simp] theorem suspendFeeder_pu (s : State) :
    (suspendFeeder s).pu = s.pu := by
  simp [suspendFeeder]
@[simp] theorem suspendFeeder_gu (s : State) :
    (suspendFeeder s).gu = s.gu := by
  simp [suspendFeeder]
@[simp] theorem suspendFeeder_su (s : State) :
    (suspendFeeder s).su = s.su := by
  simp [suspendFeeder]
@[simp] theorem suspendFeeder_cl (s : State) :
    (suspendFeeder s).cl = s.cl := by
  simp [suspendFeeder]
@[simp] theorem suspendFeeder_pending (s : State) :
    (suspendFeeder s).pending = s.pending := by
  simp [suspendFeeder]
@[simp] theorem modContext_lc (f : PlayContext → PlayContext) (s : State) :
    (modContext f s).lc = s.lc := by
  simp [modContext]
@[simp] theorem modContext_pt (f : PlayContext → PlayContext) (s : State) :
    (modContext f s).pt = s.pt := by
  simp [modContext]
@[simp] theorem modContext_ax (f : PlayContext → PlayContext) (s : State) :
    (modContext f s).ax = s.ax := by
  simp [modContext]
@[simp] theorem modContext_lmu (f : PlayContext → PlayContext) (s : State) :
    (modContext f s).lmu = s.lmu := by
  simp [modContext]
@[simp] theorem modContext_ts (f : PlayContext → PlayContext) (s : State) :
    (modContext f s).ts = s.ts := by
  simp [modContext]
@[simp] theorem modContext_fd (f : PlayContext → PlayContext) (s : State) :
    (modContext f s).fd = s.fd := by
  simp [modContext]
@[simp] theorem modContext_pu (f : PlayContext → PlayContext) (s : State) :
    (modContext f s).pu = s.pu := by
  simp [modContext]
@[simp] theorem modContext_gu (f : PlayContext → PlayContext) (s : State) :
    (modContext f s).gu = s.gu := by
  simp [modContext]
@[simp] theorem modContext_su (f : PlayContext → PlayContext) (s : State) :
    (modContext f s).su = s.su := by
  simp [modContext]
@[simp] theorem modContext_cl (f : PlayContext → PlayContext) (s : State) :
    (modContext f s).cl = s.cl := by
  simp [modContext]
@[simp] theorem modContext_pending (f : PlayContext → PlayContext) (s : State) :
    (modContext f s).pending = s.pending := by
  simp [modContext]
@[simp] theorem enterHalted_gu (s : State) :
    (enterHalted s).gu = s.gu := by
  simp only [enterHalted]; split <;> simp
@[simp] theorem enterHalted_cl (s : State) :
    (enterHalted s).cl = s.cl := by
  simp only [enterHalted]; split <;> simp
@[simp] theorem enterHalted_pending (s : State) :
    (enterHalted s).pending = s.pending := by
  simp only [enterHalted]; split <;> simp
@[simp] theorem modeOnRise_gu (s : State) :
    (modeOnRise s).gu = s.gu := by
  simp only [modeOnRise]; split <;> (try split) <;> simp
@[simp] theorem modeOnRise_cl (s : State) :
    (modeOnRise s).cl = s.cl := by
  simp only [modeOnRise]; split <;> (try split) <;> simp
@[simp] theorem modeOnRise_pending (s : State) :
    (modeOnRise s).pending = s.pending := by
  simp only [modeOnRise]; split <;> (try split) <;> simp
@[simp] theorem classFormed_gu (old : Cls) (trip : TakeTime) (s : State) :
    (classFormed old trip s).gu = s.gu := by
  simp only [classFormed]; split <;> (try split) <;> simp
@[simp] theorem classFormed_cl (old : Cls) (trip : TakeTime) (s : State) :
    (classFormed old trip s).cl = s.cl := by
  simp only [classFormed]; split <;> (try split) <;> simp
@[simp] theorem classFormed_pending (old : Cls) (trip : TakeTime) (s : State) :
    (classFormed old trip s).pending = s.pending := by
  simp only [classFormed]; split <;> (try split) <;> simp
@[simp] theorem raiseKey_gu (c : Cause) (cls : Cls) (s : State) :
    (raiseKey c cls s).gu = s.gu := by
  simp only [raiseKey]; split <;> (try split) <;> simp
@[simp] theorem raiseKey_cl (c : Cause) (cls : Cls) (s : State) :
    (raiseKey c cls s).cl = s.cl := by
  simp only [raiseKey]; split <;> (try split) <;> simp
@[simp] theorem raiseKey_pending (c : Cause) (cls : Cls) (s : State) :
    (raiseKey c cls s).pending = s.pending := by
  simp only [raiseKey]; split <;> (try split) <;> simp
@[simp] theorem writeStopEntry_gu (n : Station) (e : StopEntry) (trip : TakeTime) (s : State) :
    (writeStopEntry n e trip s).gu = s.gu := by
  simp [writeStopEntry]
@[simp] theorem writeStopEntry_cl (n : Station) (e : StopEntry) (trip : TakeTime) (s : State) :
    (writeStopEntry n e trip s).cl = s.cl := by
  simp [writeStopEntry]
@[simp] theorem writeStopEntry_pending (n : Station) (e : StopEntry) (trip : TakeTime) (s : State) :
    (writeStopEntry n e trip s).pending = s.pending := by
  simp [writeStopEntry]
@[simp] theorem enterFault_gu (i : Axis) (follow : Bool) (s : State) :
    (enterFault i follow s).gu = s.gu := by
  simp only [enterFault]; split <;> (try split) <;> simp
@[simp] theorem enterFault_cl (i : Axis) (follow : Bool) (s : State) :
    (enterFault i follow s).cl = s.cl := by
  simp only [enterFault]; split <;> (try split) <;> simp
@[simp] theorem enterFault_pending (i : Axis) (follow : Bool) (s : State) :
    (enterFault i follow s).pending = s.pending := by
  simp only [enterFault]; split <;> (try split) <;> simp
@[simp] theorem punchOutAxis_lc (i : Axis) (s : State) :
    (punchOutAxis i s).lc = s.lc := by
  simp only [punchOutAxis]; split <;> (try split) <;> simp
@[simp] theorem punchOutAxis_pt (i : Axis) (s : State) :
    (punchOutAxis i s).pt = s.pt := by
  simp only [punchOutAxis]; split <;> (try split) <;> simp
@[simp] theorem punchOutAxis_fd (i : Axis) (s : State) :
    (punchOutAxis i s).fd = s.fd := by
  simp only [punchOutAxis]; split <;> (try split) <;> simp
@[simp] theorem punchOutAxis_tc (i : Axis) (s : State) :
    (punchOutAxis i s).tc = s.tc := by
  simp only [punchOutAxis]; split <;> (try split) <;> simp
@[simp] theorem punchOutAxis_pu (i : Axis) (s : State) :
    (punchOutAxis i s).pu = s.pu := by
  simp only [punchOutAxis]; split <;> (try split) <;> simp
@[simp] theorem punchOutAxis_gu (i : Axis) (s : State) :
    (punchOutAxis i s).gu = s.gu := by
  simp only [punchOutAxis]; split <;> (try split) <;> simp
@[simp] theorem punchOutAxis_su (i : Axis) (s : State) :
    (punchOutAxis i s).su = s.su := by
  simp only [punchOutAxis]; split <;> (try split) <;> simp
@[simp] theorem punchOutAxis_cl (i : Axis) (s : State) :
    (punchOutAxis i s).cl = s.cl := by
  simp only [punchOutAxis]; split <;> (try split) <;> simp
@[simp] theorem punchOutAxis_pending (i : Axis) (s : State) :
    (punchOutAxis i s).pending = s.pending := by
  simp only [punchOutAxis]; split <;> (try split) <;> simp
@[simp] theorem releaseAxis_lc (i : Axis) (s : State) :
    (releaseAxis i s).lc = s.lc := by
  simp only [releaseAxis]; split <;> simp
@[simp] theorem releaseAxis_pt (i : Axis) (s : State) :
    (releaseAxis i s).pt = s.pt := by
  simp only [releaseAxis]; split <;> simp
@[simp] theorem releaseAxis_fd (i : Axis) (s : State) :
    (releaseAxis i s).fd = s.fd := by
  simp only [releaseAxis]; split <;> simp
@[simp] theorem releaseAxis_tc (i : Axis) (s : State) :
    (releaseAxis i s).tc = s.tc := by
  simp only [releaseAxis]; split <;> simp
@[simp] theorem releaseAxis_pu (i : Axis) (s : State) :
    (releaseAxis i s).pu = s.pu := by
  simp only [releaseAxis]; split <;> simp
@[simp] theorem releaseAxis_gu (i : Axis) (s : State) :
    (releaseAxis i s).gu = s.gu := by
  simp only [releaseAxis]; split <;> simp
@[simp] theorem releaseAxis_su (i : Axis) (s : State) :
    (releaseAxis i s).su = s.su := by
  simp only [releaseAxis]; split <;> simp
@[simp] theorem releaseAxis_cl (i : Axis) (s : State) :
    (releaseAxis i s).cl = s.cl := by
  simp only [releaseAxis]; split <;> simp
@[simp] theorem releaseAxis_pending (i : Axis) (s : State) :
    (releaseAxis i s).pending = s.pending := by
  simp only [releaseAxis]; split <;> simp
@[simp] theorem startPositioning_lc (dur : Nat) (ctrl : Controller) (x : Axis × Int) (s : State) :
    (startPositioning dur ctrl x s).lc = s.lc := by
  simp [startPositioning]
@[simp] theorem startPositioning_pt (dur : Nat) (ctrl : Controller) (x : Axis × Int) (s : State) :
    (startPositioning dur ctrl x s).pt = s.pt := by
  simp [startPositioning]
@[simp] theorem startPositioning_ts (dur : Nat) (ctrl : Controller) (x : Axis × Int) (s : State) :
    (startPositioning dur ctrl x s).ts = s.ts := by
  simp [startPositioning]
@[simp] theorem startPositioning_fd (dur : Nat) (ctrl : Controller) (x : Axis × Int) (s : State) :
    (startPositioning dur ctrl x s).fd = s.fd := by
  simp [startPositioning]
@[simp] theorem startPositioning_tc (dur : Nat) (ctrl : Controller) (x : Axis × Int) (s : State) :
    (startPositioning dur ctrl x s).tc = s.tc := by
  simp [startPositioning]
@[simp] theorem startPositioning_pu (dur : Nat) (ctrl : Controller) (x : Axis × Int) (s : State) :
    (startPositioning dur ctrl x s).pu = s.pu := by
  simp [startPositioning]
@[simp] theorem startPositioning_gu (dur : Nat) (ctrl : Controller) (x : Axis × Int) (s : State) :
    (startPositioning dur ctrl x s).gu = s.gu := by
  simp [startPositioning]
@[simp] theorem startPositioning_su (dur : Nat) (ctrl : Controller) (x : Axis × Int) (s : State) :
    (startPositioning dur ctrl x s).su = s.su := by
  simp [startPositioning]
@[simp] theorem startPositioning_cl (dur : Nat) (ctrl : Controller) (x : Axis × Int) (s : State) :
    (startPositioning dur ctrl x s).cl = s.cl := by
  simp [startPositioning]
@[simp] theorem startPositioning_pending (dur : Nat) (ctrl : Controller) (x : Axis × Int) (s : State) :
    (startPositioning dur ctrl x s).pending = s.pending := by
  simp [startPositioning]
@[simp] theorem checkArrivals_ax (s : State) :
    (checkArrivals s).ax = s.ax := by
  simp only [checkArrivals]; split <;> (try split) <;> simp
@[simp] theorem checkArrivals_lmu (s : State) :
    (checkArrivals s).lmu = s.lmu := by
  simp only [checkArrivals]; split <;> (try split) <;> simp
@[simp] theorem checkArrivals_gu (s : State) :
    (checkArrivals s).gu = s.gu := by
  simp only [checkArrivals]; split <;> (try split) <;> simp
@[simp] theorem checkArrivals_su (s : State) :
    (checkArrivals s).su = s.su := by
  simp only [checkArrivals]; split <;> (try split) <;> simp
@[simp] theorem checkArrivals_cl (s : State) :
    (checkArrivals s).cl = s.cl := by
  simp only [checkArrivals]; split <;> (try split) <;> simp
@[simp] theorem checkArrivals_pending (s : State) :
    (checkArrivals s).pending = s.pending := by
  simp only [checkArrivals]; split <;> (try split) <;> simp
@[simp] theorem examineMismatch_gu (s : State) :
    (examineMismatch s).gu = s.gu := by
  simp only [examineMismatch]; split <;> (try split) <;> simp
@[simp] theorem examineMismatch_cl (s : State) :
    (examineMismatch s).cl = s.cl := by
  simp only [examineMismatch]; split <;> (try split) <;> simp
@[simp] theorem examineMismatch_pending (s : State) :
    (examineMismatch s).pending = s.pending := by
  simp only [examineMismatch]; split <;> (try split) <;> simp
@[simp] theorem refreshLiveness_fd (n : Station) (s : State) :
    (refreshLiveness n s).fd = s.fd := by
  simp only [refreshLiveness]; split <;> simp
@[simp] theorem refreshLiveness_tc (n : Station) (s : State) :
    (refreshLiveness n s).tc = s.tc := by
  simp only [refreshLiveness]; split <;> simp
@[simp] theorem refreshLiveness_gu (n : Station) (s : State) :
    (refreshLiveness n s).gu = s.gu := by
  simp only [refreshLiveness]; split <;> simp
@[simp] theorem refreshLiveness_cl (n : Station) (s : State) :
    (refreshLiveness n s).cl = s.cl := by
  simp only [refreshLiveness]; split <;> simp
@[simp] theorem refreshLiveness_pending (n : Station) (s : State) :
    (refreshLiveness n s).pending = s.pending := by
  simp only [refreshLiveness]; split <;> simp
@[simp] theorem duplicateFound_gu (s : State) :
    (duplicateFound s).gu = s.gu := by
  unfold duplicateFound; split <;> simp
@[simp] theorem duplicateFound_cl (s : State) :
    (duplicateFound s).cl = s.cl := by
  unfold duplicateFound; split <;> simp
@[simp] theorem duplicateFound_pending (s : State) :
    (duplicateFound s).pending = s.pending := by
  unfold duplicateFound; split <;> simp
@[simp] theorem enqueueRx_pt (sender : Station) (p : Payload) (mark : StartMark) (own : Bool) (s : State) :
    (enqueueRx sender p mark own s).pt = s.pt := by
  simp only [enqueueRx]; split <;> (try split) <;> (try split) <;> simp
@[simp] theorem enqueueRx_ax (sender : Station) (p : Payload) (mark : StartMark) (own : Bool) (s : State) :
    (enqueueRx sender p mark own s).ax = s.ax := by
  simp only [enqueueRx]; split <;> (try split) <;> (try split) <;> simp
@[simp] theorem enqueueRx_lmu (sender : Station) (p : Payload) (mark : StartMark) (own : Bool) (s : State) :
    (enqueueRx sender p mark own s).lmu = s.lmu := by
  simp only [enqueueRx]; split <;> (try split) <;> (try split) <;> simp
@[simp] theorem enqueueRx_ts (sender : Station) (p : Payload) (mark : StartMark) (own : Bool) (s : State) :
    (enqueueRx sender p mark own s).ts = s.ts := by
  simp only [enqueueRx]; split <;> (try split) <;> (try split) <;> simp
@[simp] theorem enqueueRx_fd (sender : Station) (p : Payload) (mark : StartMark) (own : Bool) (s : State) :
    (enqueueRx sender p mark own s).fd = s.fd := by
  simp only [enqueueRx]; split <;> (try split) <;> (try split) <;> simp
@[simp] theorem enqueueRx_tc (sender : Station) (p : Payload) (mark : StartMark) (own : Bool) (s : State) :
    (enqueueRx sender p mark own s).tc = s.tc := by
  simp only [enqueueRx]; split <;> (try split) <;> (try split) <;> simp
@[simp] theorem enqueueRx_pu (sender : Station) (p : Payload) (mark : StartMark) (own : Bool) (s : State) :
    (enqueueRx sender p mark own s).pu = s.pu := by
  simp only [enqueueRx]; split <;> (try split) <;> (try split) <;> simp
@[simp] theorem enqueueRx_gu (sender : Station) (p : Payload) (mark : StartMark) (own : Bool) (s : State) :
    (enqueueRx sender p mark own s).gu = s.gu := by
  simp only [enqueueRx]; split <;> (try split) <;> (try split) <;> simp
@[simp] theorem enqueueRx_su (sender : Station) (p : Payload) (mark : StartMark) (own : Bool) (s : State) :
    (enqueueRx sender p mark own s).su = s.su := by
  simp only [enqueueRx]; split <;> (try split) <;> (try split) <;> simp
@[simp] theorem enqueueRx_cl (sender : Station) (p : Payload) (mark : StartMark) (own : Bool) (s : State) :
    (enqueueRx sender p mark own s).cl = s.cl := by
  simp only [enqueueRx]; split <;> (try split) <;> (try split) <;> simp
@[simp] theorem enqueueRx_pending (sender : Station) (p : Payload) (mark : StartMark) (own : Bool) (s : State) :
    (enqueueRx sender p mark own s).pending = s.pending := by
  simp only [enqueueRx]; split <;> (try split) <;> (try split) <;> simp
@[simp] theorem receiveValid_gu (sender : Station) (p : Payload) (mark : StartMark) (own : Bool) (s : State) :
    (receiveValid sender p mark own s).gu = s.gu := by
  simp only [receiveValid]; split <;> (try split) <;> simp
@[simp] theorem receiveValid_cl (sender : Station) (p : Payload) (mark : StartMark) (own : Bool) (s : State) :
    (receiveValid sender p mark own s).cl = s.cl := by
  simp only [receiveValid]; split <;> (try split) <;> simp
@[simp] theorem receiveValid_pending (sender : Station) (p : Payload) (mark : StartMark) (own : Bool) (s : State) :
    (receiveValid sender p mark own s).pending = s.pending := by
  simp only [receiveValid]; split <;> (try split) <;> simp
@[simp] theorem answer_pt (c : Command) (result : AnswerResult) (detail : Detail) (s : State) :
    (answer c result detail s).pt = s.pt := by
  simp only [answer]; split <;> (try split) <;> simp
@[simp] theorem answer_ax (c : Command) (result : AnswerResult) (detail : Detail) (s : State) :
    (answer c result detail s).ax = s.ax := by
  simp only [answer]; split <;> (try split) <;> simp
@[simp] theorem answer_lmu (c : Command) (result : AnswerResult) (detail : Detail) (s : State) :
    (answer c result detail s).lmu = s.lmu := by
  simp only [answer]; split <;> (try split) <;> simp
@[simp] theorem answer_ts (c : Command) (result : AnswerResult) (detail : Detail) (s : State) :
    (answer c result detail s).ts = s.ts := by
  simp only [answer]; split <;> (try split) <;> simp
@[simp] theorem answer_fd (c : Command) (result : AnswerResult) (detail : Detail) (s : State) :
    (answer c result detail s).fd = s.fd := by
  simp only [answer]; split <;> (try split) <;> simp
@[simp] theorem answer_tc (c : Command) (result : AnswerResult) (detail : Detail) (s : State) :
    (answer c result detail s).tc = s.tc := by
  simp only [answer]; split <;> (try split) <;> simp
@[simp] theorem answer_pu (c : Command) (result : AnswerResult) (detail : Detail) (s : State) :
    (answer c result detail s).pu = s.pu := by
  simp only [answer]; split <;> (try split) <;> simp
@[simp] theorem answer_gu (c : Command) (result : AnswerResult) (detail : Detail) (s : State) :
    (answer c result detail s).gu = s.gu := by
  simp only [answer]; split <;> (try split) <;> simp
@[simp] theorem answer_su (c : Command) (result : AnswerResult) (detail : Detail) (s : State) :
    (answer c result detail s).su = s.su := by
  simp only [answer]; split <;> (try split) <;> simp
@[simp] theorem answer_cl (c : Command) (result : AnswerResult) (detail : Detail) (s : State) :
    (answer c result detail s).cl = s.cl := by
  simp only [answer]; split <;> (try split) <;> simp
@[simp] theorem answer_pending (c : Command) (result : AnswerResult) (detail : Detail) (s : State) :
    (answer c result detail s).pending = s.pending := by
  simp only [answer]; split <;> (try split) <;> simp
@[simp] theorem answerDone_pt (c : Command) (s : State) :
    (answerDone c s).pt = s.pt := by
  simp [answerDone]
@[simp] theorem answerDone_ax (c : Command) (s : State) :
    (answerDone c s).ax = s.ax := by
  simp [answerDone]
@[simp] theorem answerDone_lmu (c : Command) (s : State) :
    (answerDone c s).lmu = s.lmu := by
  simp [answerDone]
@[simp] theorem answerDone_ts (c : Command) (s : State) :
    (answerDone c s).ts = s.ts := by
  simp [answerDone]
@[simp] theorem answerDone_fd (c : Command) (s : State) :
    (answerDone c s).fd = s.fd := by
  simp [answerDone]
@[simp] theorem answerDone_tc (c : Command) (s : State) :
    (answerDone c s).tc = s.tc := by
  simp [answerDone]
@[simp] theorem answerDone_pu (c : Command) (s : State) :
    (answerDone c s).pu = s.pu := by
  simp [answerDone]
@[simp] theorem answerDone_gu (c : Command) (s : State) :
    (answerDone c s).gu = s.gu := by
  simp [answerDone]
@[simp] theorem answerDone_su (c : Command) (s : State) :
    (answerDone c s).su = s.su := by
  simp [answerDone]
@[simp] theorem answerDone_cl (c : Command) (s : State) :
    (answerDone c s).cl = s.cl := by
  simp [answerDone]
@[simp] theorem answerDone_pending (c : Command) (s : State) :
    (answerDone c s).pending = s.pending := by
  simp [answerDone]
@[simp] theorem answerClamped_pt (c : Command) (clamped : Bool) (s : State) :
    (answerClamped c clamped s).pt = s.pt := by
  simp [answerClamped]
@[simp] theorem answerClamped_ax (c : Command) (clamped : Bool) (s : State) :
    (answerClamped c clamped s).ax = s.ax := by
  simp [answerClamped]
@[simp] theorem answerClamped_lmu (c : Command) (clamped : Bool) (s : State) :
    (answerClamped c clamped s).lmu = s.lmu := by
  simp [answerClamped]
@[simp] theorem answerClamped_ts (c : Command) (clamped : Bool) (s : State) :
    (answerClamped c clamped s).ts = s.ts := by
  simp [answerClamped]
@[simp] theorem answerClamped_fd (c : Command) (clamped : Bool) (s : State) :
    (answerClamped c clamped s).fd = s.fd := by
  simp [answerClamped]
@[simp] theorem answerClamped_tc (c : Command) (clamped : Bool) (s : State) :
    (answerClamped c clamped s).tc = s.tc := by
  simp [answerClamped]
@[simp] theorem answerClamped_pu (c : Command) (clamped : Bool) (s : State) :
    (answerClamped c clamped s).pu = s.pu := by
  simp [answerClamped]
@[simp] theorem answerClamped_gu (c : Command) (clamped : Bool) (s : State) :
    (answerClamped c clamped s).gu = s.gu := by
  simp [answerClamped]
@[simp] theorem answerClamped_su (c : Command) (clamped : Bool) (s : State) :
    (answerClamped c clamped s).su = s.su := by
  simp [answerClamped]
@[simp] theorem answerClamped_cl (c : Command) (clamped : Bool) (s : State) :
    (answerClamped c clamped s).cl = s.cl := by
  simp [answerClamped]
@[simp] theorem answerClamped_pending (c : Command) (clamped : Bool) (s : State) :
    (answerClamped c clamped s).pending = s.pending := by
  simp [answerClamped]
@[simp] theorem refuse_pt (c : Command) (r : Reason) (s : State) :
    (refuse c r s).pt = s.pt := by
  simp [refuse]
@[simp] theorem refuse_ax (c : Command) (r : Reason) (s : State) :
    (refuse c r s).ax = s.ax := by
  simp [refuse]
@[simp] theorem refuse_lmu (c : Command) (r : Reason) (s : State) :
    (refuse c r s).lmu = s.lmu := by
  simp [refuse]
@[simp] theorem refuse_ts (c : Command) (r : Reason) (s : State) :
    (refuse c r s).ts = s.ts := by
  simp [refuse]
@[simp] theorem refuse_fd (c : Command) (r : Reason) (s : State) :
    (refuse c r s).fd = s.fd := by
  simp [refuse]
@[simp] theorem refuse_tc (c : Command) (r : Reason) (s : State) :
    (refuse c r s).tc = s.tc := by
  simp [refuse]
@[simp] theorem refuse_pu (c : Command) (r : Reason) (s : State) :
    (refuse c r s).pu = s.pu := by
  simp [refuse]
@[simp] theorem refuse_gu (c : Command) (r : Reason) (s : State) :
    (refuse c r s).gu = s.gu := by
  simp [refuse]
@[simp] theorem refuse_su (c : Command) (r : Reason) (s : State) :
    (refuse c r s).su = s.su := by
  simp [refuse]
@[simp] theorem refuse_cl (c : Command) (r : Reason) (s : State) :
    (refuse c r s).cl = s.cl := by
  simp [refuse]
@[simp] theorem refuse_pending (c : Command) (r : Reason) (s : State) :
    (refuse c r s).pending = s.pending := by
  simp [refuse]
@[simp] theorem refuseWith_pt (c : Command) (r : Reason) (d : Detail) (s : State) :
    (refuseWith c r d s).pt = s.pt := by
  simp [refuseWith]
@[simp] theorem refuseWith_ax (c : Command) (r : Reason) (d : Detail) (s : State) :
    (refuseWith c r d s).ax = s.ax := by
  simp [refuseWith]
@[simp] theorem refuseWith_lmu (c : Command) (r : Reason) (d : Detail) (s : State) :
    (refuseWith c r d s).lmu = s.lmu := by
  simp [refuseWith]
@[simp] theorem refuseWith_ts (c : Command) (r : Reason) (d : Detail) (s : State) :
    (refuseWith c r d s).ts = s.ts := by
  simp [refuseWith]
@[simp] theorem refuseWith_fd (c : Command) (r : Reason) (d : Detail) (s : State) :
    (refuseWith c r d s).fd = s.fd := by
  simp [refuseWith]
@[simp] theorem refuseWith_tc (c : Command) (r : Reason) (d : Detail) (s : State) :
    (refuseWith c r d s).tc = s.tc := by
  simp [refuseWith]
@[simp] theorem refuseWith_pu (c : Command) (r : Reason) (d : Detail) (s : State) :
    (refuseWith c r d s).pu = s.pu := by
  simp [refuseWith]
@[simp] theorem refuseWith_gu (c : Command) (r : Reason) (d : Detail) (s : State) :
    (refuseWith c r d s).gu = s.gu := by
  simp [refuseWith]
@[simp] theorem refuseWith_su (c : Command) (r : Reason) (d : Detail) (s : State) :
    (refuseWith c r d s).su = s.su := by
  simp [refuseWith]
@[simp] theorem refuseWith_cl (c : Command) (r : Reason) (d : Detail) (s : State) :
    (refuseWith c r d s).cl = s.cl := by
  simp [refuseWith]
@[simp] theorem refuseWith_pending (c : Command) (r : Reason) (d : Detail) (s : State) :
    (refuseWith c r d s).pending = s.pending := by
  simp [refuseWith]
end Sys2Proof.Machine
end

