-- ==== Sys2Proof/Laws/Ops.lean ====
section
/-! SUPPORT. What the shared operations do: taking a frame, running a command, handing over a frame, the
station mode, channels and claims. -/

namespace Sys2Proof.Machine

/-! ### Folds over the state -/

/-- A view that one step of a fold leaves alone is left alone by the fold. -/
theorem foldl_keeps {α β : Type} (view : State → β) (f : State → α → State)
    (h : ∀ s a, view (f s a) = view s) (l : List α) (s : State) : view (l.foldl f s) = view s := by
  induction l generalizing s with
  | nil => rfl
  | cons a l ih => simp [ih, h]

/-! ### Taking a frame (R11) -/

/-- Taking an entry changes the receive queue and nothing else. -/
theorem takeOffer_setLc {want : Payload → Bool} {s s1 : State} {e : RxEntry}
    (h : takeOffer want s = some (e, s1)) : ∃ q, s1 = s.setLc { s.lc with rxq := q } := by
  unfold takeOffer at h
  split at h
  · obtain ⟨x, -, hx⟩ := Option.map_eq_some_iff.mp h
    exact ⟨x.2, by cases hx; rfl⟩
  · cases h

/-- What taking an entry leaves alone, block by block. -/
theorem takeOffer_frame {want : Payload → Bool} {s s1 : State} {e : RxEntry}
    (h : takeOffer want s = some (e, s1)) :
    s1.pt = s.pt ∧ s1.ax = s.ax ∧ s1.lmu = s.lmu ∧ s1.ts = s.ts ∧ s1.fd = s.fd ∧ s1.tc = s.tc ∧
      s1.pu = s.pu ∧ s1.gu = s.gu ∧ s1.su = s.su ∧ s1.cl = s.cl ∧ s1.pending = s.pending := by
  obtain ⟨q, rfl⟩ := takeOffer_setLc h
  simp

/-- Taking an entry leaves the transmit queue, the counters and the link alone. -/
theorem takeOffer_lc {want : Payload → Bool} {s s1 : State} {e : RxEntry}
    (h : takeOffer want s = some (e, s1)) :
    s1.lc.txq = s.lc.txq ∧ s1.lc.counters = s.lc.counters ∧ s1.lc.nextSerial = s.lc.nextSerial ∧
      SameLink s s1 := by
  obtain ⟨q, rfl⟩ := takeOffer_setLc h
  simp [SameLink]

/-- Two ways to pick the same frames take the same entry. -/
theorem takeOffer_congr {want want' : Payload → Bool} (h : ∀ p, want p = want' p) (s : State) :
    takeOffer want s = takeOffer want' s := by
  rw [show want = want' from funext h]

/-! ### Running a command (R14) -/

/-- A command that passes the checks, with no early action, has its effect. -/
theorem withCommand_of {α : Type} {pick : CommandBody → Option α}
    {early : Command → α → State → Option State} {act : Command → α → State → State} {s s1 : State}
    {c : Command} {x : α} (h : Delivered pick s c x s1) (he : early c x s1 = none) :
    withCommand pick early act s = act c x s1 := by
  obtain ⟨⟨e, ht, hc⟩, hp⟩ := h
  simp [withCommand, ht, hc, he, hp]

/-- A command without an early case that passes the checks has its effect. -/
theorem withCommand_noEarly {α : Type} {pick : CommandBody → Option α} {act : Command → α → State → State}
    {s s1 : State} {c : Command} {x : α} (h : Delivered pick s c x s1) :
    withCommand pick noEarly act s = act c x s1 := withCommand_of h rfl

/-- What delivery leaves alone. -/
theorem Delivered.frame {α : Type} {pick : CommandBody → Option α} {s s1 : State} {c : Command} {x : α}
    (h : Delivered pick s c x s1) :
    s1.pt = s.pt ∧ s1.ax = s.ax ∧ s1.lmu = s.lmu ∧ s1.ts = s.ts ∧ s1.fd = s.fd ∧ s1.tc = s.tc ∧
      s1.pu = s.pu ∧ s1.gu = s.gu ∧ s1.su = s.su ∧ s1.cl = s.cl ∧ s1.pending = s.pending := by
  obtain ⟨⟨e, ht, -⟩, -⟩ := h
  exact takeOffer_frame ht

/-- Delivery leaves the transmit queue, the counters and the link alone. -/
theorem Delivered.lc {α : Type} {pick : CommandBody → Option α} {s s1 : State} {c : Command} {x : α}
    (h : Delivered pick s c x s1) :
    s1.lc.txq = s.lc.txq ∧ s1.lc.counters = s.lc.counters ∧ s1.lc.nextSerial = s.lc.nextSerial ∧
      SameLink s s1 := by
  obtain ⟨⟨e, ht, -⟩, -⟩ := h
  exact takeOffer_lc ht

/-- What becomes of a CUE that passes the checks of R14 as it is taken: ignored, held, or checked. -/
theorem cueEffect_taken {s s1 : State} {c : Command} {number duration : Nat} {stamp : BitVec 32}
    {mode : CueMode} {point : Option Nat}
    (h : Delivered pickCue s c (number, stamp, mode, point, duration) s1) :
    cueEffect s =
      if ignoresCue s1 number then s1
      else if cueMustWait s1 then holdCue c number stamp mode point duration s1
      else checkCue c number stamp mode point duration s1 := by
  obtain ⟨⟨e, ht, hc⟩, hp⟩ := h
  cases hi : ignoresCue s1 number <;> simp [cueEffect, withCommand, ht, hc, hp, hi]

/-- With no CUE to take, the row is the grant. -/
theorem cueEffect_grant {s : State} (h : takeOffer (picksCommand pickCue) s = none) :
    cueEffect s = grantCue s := by simp [cueEffect, h]

/-! ### Frames of change -/

/-- Nothing changed. -/
theorem ChangesOnly.refl (bs : List Block) (s : State) : ChangesOnly bs s s :=
  ⟨fun b _ => by cases b <;> rfl, rfl⟩

/-- Two changes after one another. -/
theorem ChangesOnly.trans {bs : List Block} {s t u : State} (h : ChangesOnly bs s t)
    (h' : ChangesOnly bs t u) : ChangesOnly bs s u := by
  refine ⟨fun b hb => ?_, h'.2.trans h.2⟩
  have h1 := h.1 b hb
  have h2 := h'.1 b hb
  cases b <;> exact h2.trans h1

/-- A frame holds for a longer list of blocks. -/
theorem ChangesOnly.mono {bs cs : List Block} {s t : State} (h : ChangesOnly bs s t)
    (hs : ∀ b, b ∈ bs → b ∈ cs) : ChangesOnly cs s t :=
  ⟨fun b hb => h.1 b fun hb' => hb (hs b hb'), h.2⟩

/-- A frame, block by block. -/
theorem changesOnly_iff (bs : List Block) (s t : State) :
    ChangesOnly bs s t ↔
      (.lc ∉ bs → t.lc = s.lc) ∧ (.pt ∉ bs → t.pt = s.pt) ∧ (.ax ∉ bs → t.ax = s.ax) ∧
      (.lmu ∉ bs → t.lmu = s.lmu) ∧ (.ts ∉ bs → t.ts = s.ts) ∧ (.fd ∉ bs → t.fd = s.fd) ∧
      (.tc ∉ bs → t.tc = s.tc) ∧ (.pu ∉ bs → t.pu = s.pu) ∧ (.gu ∉ bs → t.gu = s.gu) ∧
      (.su ∉ bs → t.su = s.su) ∧ (.cl ∉ bs → t.cl = s.cl) ∧ t.pending = s.pending := by
  constructor
  · rintro ⟨h, hp⟩
    exact ⟨h .lc, h .pt, h .ax, h .lmu, h .ts, h .fd, h .tc, h .pu, h .gu, h .su, h .cl, hp⟩
  · rintro ⟨h1, h2, h3, h4, h5, h6, h7, h8, h9, h10, h11, hp⟩
    refine ⟨fun b hb => ?_, hp⟩
    cases b
    exacts [h1 hb, h2 hb, h3 hb, h4 hb, h5 hb, h6 hb, h7 hb, h8 hb, h9 hb, h10 hb, h11 hb]

/-! ### The line controller -/

/-- Handing over a frame leaves all but the transmit queue and the transmit drops alone. -/
theorem handOver_lc (p : Payload) (s : State) :
    ∃ q n, (handOver p s).lc =
      { s.lc with txq := q, counters := { s.lc.counters with txDrops := n } } := by
  by_cases h : s.lc.link = .fault
  · exact ⟨s.lc.txq, s.lc.counters.txDrops, by simp only [handOver, if_pos h]⟩
  · by_cases hq : (queueFrame p s.lc.txq).2 = true
    · exact ⟨(queueFrame p s.lc.txq).1, bump s.lc.counters.txDrops, by
        simp [handOver, h, hq, countTxDrop, setCounters]⟩
    · exact ⟨(queueFrame p s.lc.txq).1, s.lc.counters.txDrops, by simp [handOver, h, hq]⟩

/-- Handing over a frame leaves the link, the receive queue and the arrival serial alone. -/
theorem handOver_link (p : Payload) (s : State) :
    SameLink s (handOver p s) ∧ (handOver p s).lc.rxq = s.lc.rxq ∧
      (handOver p s).lc.nextSerial = s.lc.nextSerial := by
  obtain ⟨q, n, h⟩ := handOver_lc p s
  simp [SameLink, h]

/-! ### The station mode (R100) -/

/-- A change of mode changes the mode alone in the take controller. -/
@[simp] theorem setMode_tc (m : Mode) (s : State) : (setMode m s).tc = { s.tc with mode := m } := by
  simp only [setMode]
  split <;> split <;> simp

/-- The feeder after the effects of a change of mode. -/
theorem modeEffects_fd (old m : Mode) (s : State) :
    (modeEffects old m s).fd = if inPlay m then s.fd else { s.fd with sourceRead := none } := by
  by_cases h1 : m = .rolling <;> by_cases h2 : old = .idle ∧ ¬ m = .idle <;>
    by_cases hm : inPlay m = true <;> simp [modeEffects, h1, h2, hm] <;> simp_all [inPlay]

/-- The feeder after a change of mode. -/
theorem setMode_fd (m : Mode) (s : State) :
    (setMode m s).fd = if inPlay m then s.fd else { s.fd with sourceRead := none } := by
  simp only [setMode]
  split <;> split <;> simp [modeEffects_fd]

/-- The pace unit after the effects of a change of mode. -/
theorem modeEffects_pu (old m : Mode) (s : State) :
    (modeEffects old m s).pu = { s.pu with
      paceTimer := if pacesIn m then s.pu.paceTimer else none,
      alignTimer := if inPlay m then s.pu.alignTimer else none,
      r := if m = .playing ∨ m = .recording then s.pu.r else 0 } := by
  have h : (if old = .idle ∧ m ≠ .idle then abandonBulk s else s).pu = s.pu := by split <;> simp
  by_cases h1 : m = .rolling <;> by_cases hm : inPlay m = true <;> simp [modeEffects, h1, hm] <;>
    simp_all

/-- The pace unit after a change of mode. -/
theorem setMode_pu (m : Mode) (s : State) :
    (setMode m s).pu = { s.pu with
      paceTimer := if pacesIn m then s.pu.paceTimer else none,
      alignTimer := if inPlay m then s.pu.alignTimer else none,
      r := if m = .playing ∨ m = .recording then s.pu.r else 0 } := by
  simp only [setMode]
  split <;> split <;> simp [modeEffects_pu]

/-! ### Channels -/

/-! What a kept channel leaves as it was. -/

@[simp] theorem keptChannel_state (latch : Bool) (c : AxisChannel) :
    (keptChannel latch c).state = c.state := rfl
@[simp] theorem keptChannel_ctrl (latch : Bool) (c : AxisChannel) :
    (keptChannel latch c).ctrl = c.ctrl := rfl
@[simp] theorem keptChannel_p8 (latch : Bool) (c : AxisChannel) :
    (keptChannel latch c).p8 = c.p8 := rfl
@[simp] theorem keptChannel_v8 (latch : Bool) (c : AxisChannel) :
    (keptChannel latch c).v8 = c.v8 := rfl
@[simp] theorem keptChannel_lossCount (latch : Bool) (c : AxisChannel) :
    (keptChannel latch c).lossCount = c.lossCount := rfl
@[simp] theorem keptChannel_lastValid (latch : Bool) (c : AxisChannel) :
    (keptChannel latch c).lastValid = c.lastValid := rfl
@[simp] theorem keptChannel_faultFollow (latch : Bool) (c : AxisChannel) :
    (keptChannel latch c).faultFollow = c.faultFollow := rfl
@[simp] theorem keptChannel_faultEncoder (latch : Bool) (c : AxisChannel) :
    (keptChannel latch c).faultEncoder = c.faultEncoder := rfl
@[simp] theorem keptChannel_demand (latch : Bool) (c : AxisChannel) :
    (keptChannel latch c).demand = c.demand := rfl
@[simp] theorem keptChannel_jogTimer (latch : Bool) (c : AxisChannel) :
    (keptChannel latch c).jogTimer = c.jogTimer := rfl
@[simp] theorem keptChannel_idleTimer (latch : Bool) (c : AxisChannel) :
    (keptChannel latch c).idleTimer = c.idleTimer := rfl
@[simp] theorem keptChannel_segment (latch : Bool) (c : AxisChannel) :
    (keptChannel latch c).segment = c.segment := rfl
@[simp] theorem keptChannel_rejoinTime (latch : Bool) (c : AxisChannel) :
    (keptChannel latch c).rejoinTime = c.rejoinTime := rfl
@[simp] theorem keptChannel_output (latch : Bool) (c : AxisChannel) :
    (keptChannel latch c).output = c.output := rfl
@[simp] theorem keptChannel_clampFlag (latch : Bool) (c : AxisChannel) :
    (keptChannel latch c).clampFlag = c.clampFlag := rfl
@[simp] theorem keptChannel_lensEnd (latch : Bool) (c : AxisChannel) :
    (keptChannel latch c).lensEnd = c.lensEnd := rfl

/-- What a kept channel is: the segment copy goes outside FOLLOW, the following counter while it tracks, and all
else stays. -/
theorem keptChannel_of (latch : Bool) (c : AxisChannel) :
    (c.state ≠ .follow → (keptChannel latch c).segmentCopy = none) ∧
      (tracks latch c = true → (keptChannel latch c).followCount = 0) ∧
      keptChannel latch c = { c with
        segmentCopy := (keptChannel latch c).segmentCopy, followCount := (keptChannel latch c).followCount } := by
  refine ⟨fun h => ?_, fun h => ?_, rfl⟩ <;> simp [keptChannel, h]

/-- The channels after one is replaced. -/
@[simp] theorem setChannel_ax (i : Axis) (c : AxisChannel) (s : State) :
    (setChannel i c s).ax = { s.ax with ch := s.ax.ch.set i (keptChannel s.su.driveLatch c) } := by
  by_cases hp : holdsPending c.state = true <;> simp [setChannel, keptChannel, hp]

/-- A channel after one is replaced. -/
theorem axisCh_setChannel (i j : Axis) (c : AxisChannel) (s : State) :
    axisCh (setChannel i c s) j = if i = j then keptChannel s.su.driveLatch c else axisCh s j := by
  simp [axisCh, Table.get_set]

/-! ### Claims (R162) -/

/-- The own claim set after a change of it. -/
@[simp] theorem changeOwn_own (raised : Bool) (c : Cause) (own : List Claim) (s : State) :
    (changeOwn raised c own s).su.own = own := by
  simp [changeOwn, handStop, formClass]

/-! ### The model's own field of log entry 36 -/

/-- An input after a zone was armed: an edge latched so far does not reach that zone. -/
theorem forgetEdges_input (z : Zone) (s : State) (i : Input) :
    (forgetEdges z s).gu.inputs.get i =
      if (s.gu.inputs.get i).latch then
        { s.gu.inputs.get i with armedSince := (s.gu.inputs.get i).armedSince ||| (1#8 <<< z.val) }
      else s.gu.inputs.get i := by
  simp [forgetEdges]

/-- Arming changes the inputs of the guard unit before the zone, and nothing else. -/
theorem forgetEdges_changesOnly (z : Zone) (s : State) :
    ChangesOnly [.gu] s (forgetEdges z s) ∧ (forgetEdges z s).gu.zones = s.gu.zones ∧
      (forgetEdges z s).gu.ceiling = s.gu.ceiling :=
  ⟨⟨fun b h => by cases b <;> first | rfl | exact absurd (by simp) h, rfl⟩, rfl, rfl⟩

/-! ### What the punch writer may write into (R89, R178) -/

/-- The punch writer finds its target where it may write. -/
theorem punchTarget_iff (s : State) (slot : Slot) (k : Nat) :
    punchTarget s.ts slot k = true ↔ punchTakes s slot k := by
  simp [punchTarget, punchTakes, entryOf, and_assoc]

/-- A fix-up writes nothing where the punch wrote nothing, or its keyframe is not to be written. -/
theorem punchFixup_of_not_takes (s : State) (p : PunchRecord)
    (h : ∀ b, p.lastWritten = some b → ¬ punchTakes s p.take b) : punchFixup p s.ts = s.ts := by
  unfold punchFixup
  cases hl : p.lastWritten with
  | none => rfl
  | some b => simp [Bool.eq_false_iff.mpr (mt (punchTarget_iff s p.take b).mp (h b hl))]

end Sys2Proof.Machine
end

