-- ==== Sys2Proof/Laws/Class.lean ====
section
/-! SUPPORT. What a change of the effective class does: at the channels, at the punches, at the return to IDLE,
and, as a whole, a rise of the class (R47, R89, R100, R142, R147, R161, R167 to R170). -/

namespace Sys2Proof.Machine

/-! ### Punches -/

/-- Every punch of axis i has ended. -/
def punchesEnded (i : Axis) (s : State) : Prop :=
  ∀ p ∈ s.ax.punches, p.axis = i → p.ended = true ∧ p.writing = false

/-- The end of a punch leaves the channels alone. -/
@[simp] theorem endPunch_ch (i : Axis) (s : State) : (endPunch i s).ax.ch = s.ax.ch := by
  simp [endPunch, settlePunches]

/-- The end of a punch leaves the channels alone. -/
@[simp] theorem axisCh_endPunch (i j : Axis) (s : State) : axisCh (endPunch i s) j = axisCh s j := by
  simp [axisCh]

/-- A punch that is there after the end of the punches of an axis was there before, and has ended on that axis. -/
theorem mem_endPunch {i : Axis} {s : State} {p : PunchRecord} (h : p ∈ (endPunch i s).ax.punches) :
    ∃ q ∈ s.ax.punches, p = if q.axis = i then { q with ended := true, writing := false } else q := by
  simp only [endPunch, settlePunches, setAx_ax, setTs_ax] at h
  obtain ⟨q, hq, rfl⟩ := List.mem_map.mp (List.mem_of_mem_filter h)
  exact ⟨q, hq, rfl⟩

/-- The punches of the axis have ended. -/
theorem endPunch_ends (i : Axis) (s : State) : punchesEnded i (endPunch i s) := by
  intro p hp hi
  obtain ⟨q, -, rfl⟩ := mem_endPunch hp
  split at hi <;> simp_all

/-- A punch that has ended stays so. -/
theorem endPunch_keeps {i : Axis} (j : Axis) {s : State} (h : punchesEnded i s) :
    punchesEnded i (endPunch j s) := by
  intro p hp hi
  obtain ⟨q, hq, rfl⟩ := mem_endPunch hp
  split at hi
  · rename_i hj; simp [hj]
  · rename_i hj; simpa [hj] using h q hq hi

/-- A new velocity of one axis of a keyframe leaves all but the keyframes alone. -/
theorem setAxisVelocity_ts (slot : Slot) (k : Nat) (i : Axis) (v : Int) (ts : TakeStore) :
    ∃ pool, setAxisVelocity slot k i v ts = { ts with pool := pool } := by
  simp only [setAxisVelocity, writeKeyframe]
  split <;> exact ⟨_, rfl⟩

/-- The fix-up of a punch leaves all but the keyframes alone. -/
theorem punchFixup_ts (p : PunchRecord) (ts : TakeStore) :
    ∃ pool, punchFixup p ts = { ts with pool := pool } := by
  unfold punchFixup
  split
  · exact ⟨_, rfl⟩
  · dsimp only
    split
    · exact ⟨_, rfl⟩
    · split <;> exact setAxisVelocity_ts _ _ _ _ _

/-- The end of a punch leaves all of the take store but the keyframes alone. -/
theorem endPunch_ts (i : Axis) (s : State) : ∃ pool, (endPunch i s).ts = { s.ts with pool := pool } := by
  have h : ∀ (l : List PunchRecord) (ts : TakeStore),
      ∃ pool, l.foldl (fun t p => punchFixup p t) ts = { ts with pool := pool } := by
    intro l
    induction l with
    | nil => exact fun ts => ⟨_, rfl⟩
    | cons p l ih =>
      intro ts
      obtain ⟨pool, hp⟩ := punchFixup_ts p ts
      obtain ⟨pool', hp'⟩ := ih { ts with pool := pool }
      exact ⟨pool', by rw [List.foldl_cons, hp, hp']⟩
  simp only [endPunch, settlePunches, setAx_ts, setTs_ts]
  exact h _ _

/-- The end of a punch leaves the directory and a taint that waits alone. -/
@[simp] theorem endPunch_dir (i : Axis) (s : State) : (endPunch i s).ts.dir = s.ts.dir := by
  obtain ⟨_, h⟩ := endPunch_ts i s
  rw [h]

/-- The end of a punch leaves a taint that waits alone. -/
@[simp] theorem endPunch_taintTrip (i : Axis) (s : State) :
    (endPunch i s).ts.taintTrip = s.ts.taintTrip := by
  obtain ⟨_, h⟩ := endPunch_ts i s
  rw [h]

/-! ### One channel after the other -/

/-- What a fold over distinct axes makes of a channel, when each step changes its own axis alone, by the same
function of the channel. -/
theorem foldl_axisCh (f : State → Axis → State) (g : AxisChannel → AxisChannel) (P : State → Prop)
    (hP : ∀ s i, P s → P (f s i))
    (hf : ∀ s i j, P s → axisCh (f s i) j = if i = j then g (axisCh s j) else axisCh s j) (l : List Axis)
    (hl : l.Nodup) (s : State) (hs : P s) (j : Axis) :
    axisCh (l.foldl f s) j = if j ∈ l then g (axisCh s j) else axisCh s j := by
  induction l generalizing s with
  | nil => simp
  | cons a l ih =>
    obtain ⟨ha, hl⟩ := List.nodup_cons.mp hl
    rw [List.foldl_cons, ih hl _ (hP s a hs), hf s a j hs]
    by_cases haj : a = j
    · subst haj; simp [ha]
    · simp [haj, show j ≠ a from fun h => haj h.symm]

/-- A property of one axis that its own step brings about, and every step keeps, holds after the fold. -/
theorem foldl_brings (f : State → Axis → State) (R : State → Prop) (Q : State → Prop) (i : Axis)
    (hR : ∀ s a, a ≠ i → R s → R (f s a)) (hi : ∀ s, R s → Q (f s i)) (hQ : ∀ s a, Q s → Q (f s a))
    (l : List Axis) (hm : i ∈ l) (s : State) (hs : R s) : Q (l.foldl f s) := by
  induction l generalizing s with
  | nil => simp at hm
  | cons a l ih =>
    rw [List.foldl_cons]
    by_cases ha : a = i
    · subst ha
      have : ∀ (l : List Axis) (s : State), Q s → Q (l.foldl f s) := by
        intro l
        induction l with
        | nil => exact fun s h => h
        | cons b l ih => exact fun s h => ih _ (hQ s b h)
      exact this l _ (hi s hs)
    · exact ih (by simpa [Ne.symm ha] using hm) _ (hR s a ha hs)

/-- Every axis is among the axes, once. -/
theorem mem_allAxes (i : Axis) : i ∈ allAxes := List.mem_finRange i

/-- Every axis is among the axes, once. -/
theorem allAxes_nodup : allAxes.Nodup := by decide

/-! ### The class at the channels (R47) -/

/-- A channel after one takes a change of the class. -/
theorem axisCh_takeClassAt (old : Cls) (s : State) (i j : Axis) :
    axisCh (takeClassAt old s i) j =
      if i = j then keptChannel s.su.driveLatch (classChannel s.cl.cfg old s.su.effective (axisCh s j))
      else axisCh s j := by
  simp only [takeClassAt]
  split <;> simp only [axisCh_endPunch, axisCh_setChannel] <;> split <;> simp_all

/-- The channels after all of them take a change of the class. -/
theorem axisCh_takeClass_fold (old : Cls) (s : State) (j : Axis) :
    axisCh (allAxes.foldl (takeClassAt old) s) j =
      keptChannel s.su.driveLatch (classChannel s.cl.cfg old s.su.effective (axisCh s j)) := by
  rw [foldl_axisCh (takeClassAt old)
    (fun c => keptChannel s.su.driveLatch (classChannel s.cl.cfg old s.su.effective c))
    (fun u => u.su = s.su ∧ u.cl = s.cl) (fun u i h => by simp [h]) (fun u i j h => by
      rw [axisCh_takeClassAt, h.1, h.2]) allAxes allAxes_nodup s ⟨rfl, rfl⟩ j, if_pos (mem_allAxes j)]

/-- A class step keeps the punches that have ended. -/
theorem takeClassAt_keeps {i : Axis} (old : Cls) (j : Axis) {s : State} (h : punchesEnded i s) :
    punchesEnded i (takeClassAt old s j) := by
  simp only [takeClassAt]
  split
  · exact endPunch_keeps j (by simpa [punchesEnded] using h)
  · simpa [punchesEnded] using h

/-- At HALT and SEVER a channel leaves OVERRIDE and REJOIN. -/
theorem classChannel_punched {cfg : NodeConfig} {old new : Cls} {c : AxisChannel} (h : clsGe new .halt) :
    punchedState (classChannel cfg old new c).state = false := by
  obtain ⟨st⟩ := c
  have hn : new = .halt ∨ new = .sever := by cases new <;> simp_all [clsRank]
  cases st <;> rcases hn with rfl | rfl <;> rfl

/-- A punch ends where its axis is driven off its path. -/
theorem takeClass_fold_punches {old : Cls} {s : State} {i : Axis} (h : clsGe s.su.effective .halt)
    (hi : punchedState (axisCh s i).state = true) :
    punchesEnded i (allAxes.foldl (takeClassAt old) s) := by
  refine foldl_brings (takeClassAt old)
    (fun u => u.su = s.su ∧ punchedState (axisCh u i).state = true) (punchesEnded i) i
    (fun u a ha hu => ⟨by simp [hu.1], by rw [axisCh_takeClassAt, if_neg ha]; exact hu.2⟩)
    (fun u hu => ?_) (fun u a hu => takeClassAt_keeps old a hu) allAxes (mem_allAxes i) s ⟨rfl, hi⟩
  have hn : punchedState (classChannel u.cl.cfg old u.su.effective (axisCh u i)).state = false :=
    classChannel_punched (by rw [hu.1]; exact h)
  simp only [takeClassAt, hu.2, hn]
  exact endPunch_ends i _

/-! ### Lens maps (R77) -/

/-- The maps of an axis after a changeover. -/
def changedMaps (m : LensChannel) : LensChannel :=
  { m with active := m.pending.getD m.active, pending := none }

/-- A second changeover changes nothing. -/
@[simp] theorem changedMaps_twice (m : LensChannel) : changedMaps (changedMaps m) = changedMaps m := rfl

/-- The maps after a changeover. -/
theorem changeover_get (i j : Axis) (s : State) :
    (changeover i s).lmu.get j = if i = j then changedMaps (s.lmu.get j) else s.lmu.get j := by
  simp only [changeover]
  split
  · rename_i h
    split
    · rename_i hij; subst hij
      simp only [changedMaps, h, Option.getD_none]
      rw [← h]
    · rfl
  · rename_i new h
    simp only [setLmu_lmu, Table.get_set]
    split
    · rename_i hij; subst hij; simp [changedMaps, h]
    · rfl

/-- The maps after a channel is replaced. -/
theorem setChannel_maps (i j : Axis) (c : AxisChannel) (s : State) :
    (setChannel i c s).lmu.get j =
      if i = j ∧ holdsPending c.state = false then changedMaps (s.lmu.get j) else s.lmu.get j := by
  cases h : holdsPending c.state <;> simp [setChannel, h, changeover_get]

/-- The maps of an axis that has changed over stay as they are. -/
theorem setChannel_maps_stay {i j : Axis} {c : AxisChannel} {s : State} {m : LensChannel}
    (h : s.lmu.get j = changedMaps m) : (setChannel i c s).lmu.get j = changedMaps m := by
  rw [setChannel_maps, h]; split <;> simp

/-- A class step leaves the maps of an axis that has changed over as they are. -/
theorem takeClassAt_maps_stay {old : Cls} {i j : Axis} {s : State} {m : LensChannel}
    (h : s.lmu.get j = changedMaps m) : (takeClassAt old s i).lmu.get j = changedMaps m := by
  simp only [takeClassAt]
  split <;> simp [setChannel_maps_stay h]

/-! ### Releases (R162) -/

/-- The local ceiling formed again changes what has been announced, and nothing else. -/
theorem announce_changes (u : State) : ChangesOnly [.lc, .pu] u (announce u) ∧
    ∃ a n, (announce u).pu = { u.pu with announced := a, paceTimer := n } := by
  simp only [announce]
  split
  · exact ⟨⟨fun b hb => by cases b <;> first | (simp [sameBlock]; done) | simp_all, by simp⟩,
      ⟨localCeiling u, some u.cl.cfg.pacePeriod, by simp [handPace]⟩⟩
  · exact ⟨ChangesOnly.refl _ _, _, _, rfl⟩

/-- A release that leaves the class as it is changes the claim, what has been announced, and nothing else. -/
theorem releaseKey_sameClass {c : Cause} {s : State}
    (h : formEffective { s.su with own := s.su.own.filter fun k => k.cause != c } = s.su.effective) :
    ChangesOnly [.lc, .pu, .su] s (releaseKey c s) ∧ (releaseKey c s).su.effective = s.su.effective ∧
      (releaseKey c s).su.driveLatch = s.su.driveLatch ∧ (∀ k ∈ (releaseKey c s).su.own, k.cause ≠ c) ∧
      ∃ a n, (releaseKey c s).pu = { s.pu with announced := a, paceTimer := n } := by
  have ha := announce_changes
  unfold releaseKey
  split
  · have he : (changeOwn false c (s.su.own.filter fun k => k.cause != c) s).su.effective = s.su.effective := by
      simpa [changeOwn, handStop, formClass] using h
    dsimp only
    rw [if_pos he]
    have hc : ChangesOnly [.lc, .su] s (changeOwn false c (s.su.own.filter fun k => k.cause != c) s) :=
      ⟨fun b hb => by cases b <;> first | (simp [sameBlock]; done) | simp_all, by simp⟩
    obtain ⟨h1, a, n, h2⟩ := ha (changeOwn false c (s.su.own.filter fun k => k.cause != c) s)
    have hsu := h1.1 .su (by simp)
    simp only [sameBlock] at hsu
    refine ⟨(hc.mono (by simp +contextual)).trans (h1.mono (by simp +contextual)), ?_, ?_, ?_, a, n, ?_⟩
    · rw [hsu, he]
    · rw [hsu]; simp [changeOwn, handStop, formClass]
    · rw [hsu]; simp
    · rw [h2]; simp
  · rename_i hn
    refine ⟨ChangesOnly.refl _ _, rfl, rfl, ?_, _, _, rfl⟩
    simpa using hn

/-! ### The return to IDLE (R40, R77, R100) -/

/-- The axis goes to rest at the return to IDLE. -/
abbrev restsAtIdle (c : AxisChannel) : Prop :=
  (c.ctrl = .take ∧ (c.state = .follow ∨ c.state = .rejoin ∨ c.state = .goto)) ∨ c.state = .override

/-- A channel after the return to IDLE. -/
def idleChannel (latch : Bool) (cfg : NodeConfig) (c : AxisChannel) : AxisChannel :=
  if c.state = .override then keptChannel latch (enterRest cfg { c with ctrl := .none, demand := 0, jogTimer := none })
  else if c.ctrl ≠ .take then c
  else if c.state = .follow ∨ c.state = .rejoin ∨ c.state = .goto then
    keptChannel latch (enterRest cfg { c with ctrl := .none })
  else keptChannel latch { c with ctrl := .none }

/-- A channel after one step of the return to IDLE. -/
theorem axisCh_idleAt (s : State) (i j : Axis) :
    axisCh (idleAt s i) j =
      if i = j then idleChannel s.su.driveLatch s.cl.cfg (axisCh s j) else axisCh s j := by
  by_cases hij : i = j
  · subst hij
    by_cases hc : (axisCh s i).ctrl = .take <;> cases h : (axisCh s i).state <;>
      simp [idleAt, idleChannel, h, hc, axisCh_setChannel]
  · by_cases hc : (axisCh s i).ctrl = .take <;> cases h : (axisCh s i).state <;>
      simp [idleAt, h, hc, axisCh_setChannel, hij]

/-- The channels after all steps of the return to IDLE. -/
theorem axisCh_idle_fold (s : State) (j : Axis) :
    axisCh (allAxes.foldl idleAt s) j = idleChannel s.su.driveLatch s.cl.cfg (axisCh s j) := by
  rw [foldl_axisCh idleAt (idleChannel s.su.driveLatch s.cl.cfg) (fun u => u.su = s.su ∧ u.cl = s.cl)
    (fun u i h => by simp [h]) (fun u i j h => by rw [axisCh_idleAt, h.1, h.2]) allAxes allAxes_nodup s
    ⟨rfl, rfl⟩ j, if_pos (mem_allAxes j)]

/-- A step of the return to IDLE keeps the punches that have ended. -/
theorem idleAt_keeps {i : Axis} (j : Axis) {s : State} (h : punchesEnded i s) :
    punchesEnded i (idleAt s j) := by
  have hs : ∀ c, punchesEnded i (setChannel j c s) := fun c => by simpa [punchesEnded] using h
  by_cases hc : (axisCh s j).ctrl = .take <;> cases hst : (axisCh s j).state <;>
    simp only [idleAt, hst, hc, if_true, if_false, reduceCtorEq] <;>
    first
      | exact h
      | exact hs _
      | exact endPunch_keeps j (hs _)

/-- The punch of an axis that goes to rest ends. -/
theorem idle_fold_punches {s : State} {i : Axis}
    (h : ((axisCh s i).ctrl = .take ∧ (axisCh s i).state = .rejoin) ∨ (axisCh s i).state = .override) :
    punchesEnded i (allAxes.foldl idleAt s) := by
  refine foldl_brings idleAt (fun u => axisCh u i = axisCh s i) (punchesEnded i) i
    (fun u a ha hu => by rw [axisCh_idleAt, if_neg ha]; exact hu) (fun u hu => ?_)
    (fun u a hu => idleAt_keeps a hu) allAxes (mem_allAxes i) s rfl
  rcases h with ⟨hc, hs⟩ | hs
  · simp only [idleAt, hu, hs, hc, if_true]
    exact endPunch_ends i _
  · simp only [idleAt, hu, hs]
    exact endPunch_ends i _

/-- The pending map of an axis that goes to rest changes over. -/
theorem idle_fold_maps {s : State} {i : Axis} (h : restsAtIdle (axisCh s i)) :
    (allAxes.foldl idleAt s).lmu.get i = changedMaps (s.lmu.get i) := by
  refine foldl_brings idleAt (fun u => axisCh u i = axisCh s i ∧ u.lmu.get i = s.lmu.get i)
    (fun u => u.lmu.get i = changedMaps (s.lmu.get i)) i (fun u a ha hu => ⟨?_, ?_⟩) (fun u hu => ?_)
    (fun u a hu => ?_) allAxes (mem_allAxes i) s ⟨rfl, rfl⟩
  · rw [axisCh_idleAt, if_neg ha]; exact hu.1
  · rw [← hu.2]
    by_cases hc : (axisCh u a).ctrl = .take <;> cases hs : (axisCh u a).state <;>
      simp [idleAt, hs, hc, setChannel_maps, ha]
  · obtain ⟨hu1, hu2⟩ := hu
    rw [← hu1] at h
    rw [← hu2]
    clear hu1 hu2
    rcases h with ⟨hc, hs | hs | hs⟩ | hs <;>
      simp [idleAt, *, setChannel_maps, enterRest, holdsPending]
  · by_cases hc : (axisCh u a).ctrl = .take <;> cases hs : (axisCh u a).state <;>
      simp [idleAt, hs, hc, setChannel_maps_stay hu, hu]

/-- The state at the return to IDLE before the mismatch claim is released. -/
def beforeRelease (s : State) : State :=
  let u := clearFeeder (allAxes.foldl idleAt (disarm s))
  let u := u.setTc { u.tc with ctx := none, arrivals := Table.fill 3 false,
                               roll := { u.tc.roll with window := none } }
  setMode .idle (u.setPu { u.pu with offsetSum := 0, offsetCount := 0, slices := [] })

/-- The return to IDLE ends with the release of the mismatch claim. -/
theorem returnToIdle_eq (s : State) : returnToIdle s = releaseKey .peerMismatch (beforeRelease s) := rfl

/-- The stop unit, the take controller, the feeder and the pace unit before the release. -/
theorem beforeRelease_blocks (s : State) :
    (beforeRelease s).su = s.su ∧
      (beforeRelease s).tc = { s.tc with
        mode := .idle, ctx := none, arrivals := Table.fill 3 false, roll := { s.tc.roll with window := none } } ∧
      (beforeRelease s).fd = { Feeder.reset with cueLow := s.fd.cueLow } ∧
      (beforeRelease s).pu = { s.pu with
        offsetSum := 0, offsetCount := 0, slices := [], paceTimer := none, alignTimer := none, r := 0 } := by
  refine ⟨?_, ?_, ?_, ?_⟩
  · simp [beforeRelease]
  · simp [beforeRelease]
  · simp [beforeRelease, setMode_fd, clearFeeder, inPlay, Feeder.reset]
  · simp [beforeRelease, setMode_pu, inPlay, pacesIn]

/-- The channels, the maps and the punches before the release. -/
theorem beforeRelease_axes (s : State) :
    (∀ i, axisCh (beforeRelease s) i = idleChannel s.su.driveLatch s.cl.cfg (axisCh s i)) ∧
      (∀ i, restsAtIdle (axisCh s i) → (beforeRelease s).lmu.get i = changedMaps (s.lmu.get i)) ∧
      (∀ i, ((axisCh s i).ctrl = .take ∧ (axisCh s i).state = .rejoin) ∨ (axisCh s i).state = .override →
        punchesEnded i (beforeRelease s)) ∧
      (∀ i, punchesEnded i s → punchesEnded i (beforeRelease s)) := by
  have hd : ∀ i, axisCh (disarm s) i = axisCh s i := fun i => by simp [axisCh]
  have hp : ∀ (i : Axis) (u v : State), v.ax = u.ax → punchesEnded i u → punchesEnded i v := by
    intro i u v h h'; simpa [punchesEnded, h] using h'
  have hb : (beforeRelease s).ax = (allAxes.foldl idleAt (disarm s)).ax := by simp [beforeRelease]
  refine ⟨fun i => ?_, fun i h => ?_, fun i h => ?_, fun i h => ?_⟩
  · have := axisCh_idle_fold (disarm s) i
    simpa [axisCh, hb] using this
  · have := idle_fold_maps (s := disarm s) (i := i) (by rw [hd]; exact h)
    simpa [beforeRelease] using this
  · exact hp i _ _ hb (idle_fold_punches (by rw [hd]; exact h))
  · refine hp i _ _ hb ?_
    have hq : ∀ (l : List Axis) (u : State), punchesEnded i u → punchesEnded i (l.foldl idleAt u) := by
      intro l
      induction l with
      | nil => exact fun u h => h
      | cons a l ih => exact fun u h => ih _ (idleAt_keeps a h)
    exact hq _ _ (hp i s _ (by simp) h)

/-! ### A change of the class at the blocks (R47, R89, R142, R147, R167) -/

/-- The drive latch after a change of the class. -/
theorem dropLatch_su (s : State) :
    (dropLatch s).su = { s.su with
      driveLatch := if s.su.effective = .sever then false else s.su.driveLatch } := by
  unfold dropLatch
  split <;> rfl

/-- The stop unit, the pace unit, the channels and the taint after a change of the class. -/
theorem takeClass_blocks (old : Cls) (trip : TakeTime) (s : State) :
    let latch := if s.su.effective = .sever then false else s.su.driveLatch
    (takeClass old trip s).su = { s.su with driveLatch := latch } ∧
      (∃ a n, (takeClass old trip s).pu = { (dropRates old s).pu with announced := a, paceTimer := n }) ∧
      (∀ i, axisCh (takeClass old trip s) i =
        keptChannel latch (classChannel s.cl.cfg old s.su.effective (axisCh s i))) ∧
      (takeClass old trip s).ts.taintTrip =
        (if s.tc.mode = .recording ∧ clsRank old < clsRank s.su.effective ∧ s.ts.taintTrip = none then some trip
         else s.ts.taintTrip) := by
  obtain ⟨-, a, n, ha⟩ := announce_changes (dropRates old s)
  have hsu : (dropLatch (announce (dropRates old s))).su =
      { s.su with driveLatch := if s.su.effective = .sever then false else s.su.driveLatch } := by
    rw [dropLatch_su]; simp
  have hx : ∀ i, axisCh (dropLatch (announce (dropRates old s))) i = axisCh s i := fun i => by simp [axisCh]
  refine ⟨?_, ⟨a, n, ?_⟩, fun i => ?_, ?_⟩
  · simp [takeClass, hsu]
  · simp [takeClass, ha]
  · have h := axisCh_takeClass_fold old (dropLatch (announce (dropRates old s))) i
    simp only [takeClass]
    rw [show axisCh (requestTaint old trip (reportClass old
        (allAxes.foldl (takeClassAt old) (dropLatch (announce (dropRates old s)))))) i =
      axisCh (allAxes.foldl (takeClassAt old) (dropLatch (announce (dropRates old s)))) i by simp [axisCh]]
    rw [h, hx, hsu]
    simp
  · have ht : (allAxes.foldl (takeClassAt old) (dropLatch (announce (dropRates old s)))).ts.taintTrip =
        s.ts.taintTrip := by
      rw [foldl_keeps (fun u => u.ts.taintTrip) (takeClassAt old)
        (fun u i => by simp only [takeClassAt]; split <;> simp)]
      simp
    have hm : (allAxes.foldl (takeClassAt old) (dropLatch (announce (dropRates old s)))).tc = s.tc := by simp
    have he : (allAxes.foldl (takeClassAt old) (dropLatch (announce (dropRates old s)))).su.effective =
        s.su.effective := by
      rw [foldl_keeps (fun u => u.su) (takeClassAt old) (by simp), hsu]
    simp only [takeClass]
    generalize allAxes.foldl (takeClassAt old) (dropLatch (announce (dropRates old s))) = f at ht hm he
    simp only [requestTaint, reportClass_tc, reportClass_su, reportClass_ts, ht, hm, he]
    split <;> simp [ht]

/-- A change of the class keeps the punches that have ended, and ends those of the axes driven off their path. -/
theorem takeClass_punches (old : Cls) (trip : TakeTime) (s : State) (i : Axis) :
    (punchesEnded i s → punchesEnded i (takeClass old trip s)) ∧
      (clsGe s.su.effective .halt → punchedState (axisCh s i).state = true →
        punchesEnded i (takeClass old trip s)) := by
  have hp : ∀ (u v : State), v.ax = u.ax → punchesEnded i u → punchesEnded i v := by
    intro u v h h'; simpa [punchesEnded, h] using h'
  refine ⟨fun h => ?_, fun h h' => ?_⟩
  · have hq : ∀ (l : List Axis) (u : State), punchesEnded i u → punchesEnded i (l.foldl (takeClassAt old) u) := by
      intro l
      induction l with
      | nil => exact fun u h => h
      | cons a l ih => exact fun u h => ih _ (takeClassAt_keeps old a h)
    refine hp (allAxes.foldl (takeClassAt old) (dropLatch (announce (dropRates old s)))) _ (by simp [takeClass]) ?_
    exact hq _ _ (hp s _ (by simp) h)
  · refine hp (allAxes.foldl (takeClassAt old) (dropLatch (announce (dropRates old s)))) _ (by simp [takeClass]) ?_
    refine takeClass_fold_punches ?_ ?_
    · simpa [dropLatch_su] using h
    · simpa [axisCh] using h'

/-- A change of the class leaves the maps of an axis that has changed over as they are. -/
theorem takeClass_maps {old : Cls} {trip : TakeTime} {s : State} {i : Axis} {m : LensChannel}
    (h : s.lmu.get i = changedMaps m) : (takeClass old trip s).lmu.get i = changedMaps m := by
  have hq : ∀ (l : List Axis) (u : State), u.lmu.get i = changedMaps m →
      (l.foldl (takeClassAt old) u).lmu.get i = changedMaps m := by
    intro l
    induction l with
    | nil => exact fun u h => h
    | cons a l ih => exact fun u h => ih _ (takeClassAt_maps_stay h)
  simpa [takeClass] using hq allAxes _ (by simpa using h)

/-! ### The class that is formed (R161) -/

/-- The rank of the greater of two classes. -/
theorem clsRank_max (a b : Cls) : clsRank (clsMax a b) = max (clsRank a) (clsRank b) := by
  cases a <;> cases b <;> rfl

/-- A rank names its class. -/
theorem clsRank_inj {a b : Cls} (h : clsRank a = clsRank b) : a = b := by
  cases a <;> cases b <;> simp_all [clsRank]

/-- The greatest class of a list is within a bound when every class of it is. -/
theorem clsRank_foldl_le (n : Nat) (cs : List Cls) (a : Cls) :
    clsRank (cs.foldl clsMax a) ≤ n ↔ clsRank a ≤ n ∧ ∀ c ∈ cs, clsRank c ≤ n := by
  induction cs generalizing a with
  | nil => simp
  | cons c cs ih =>
    rw [List.foldl_cons, ih, clsRank_max, Nat.max_le]
    simp [and_assoc]

/-- The class formed is within a bound when the claims, the stop table and the stop line are. -/
theorem formEffective_le (n : Nat) (su : StopUnit) :
    clsRank (formEffective su) ≤ n ↔
      (∀ k ∈ su.own, clsRank k.cls ≤ n) ∧ clsRank (tableClass su) ≤ n ∧
        clsRank (if su.lineOpen then Cls.sever else Cls.none) ≤ n := by
  simp only [formEffective, clsRank_max, ownClass, clsGreatest, Nat.max_le, clsRank_foldl_le, List.mem_map]
  constructor
  · rintro ⟨⟨⟨-, h⟩, h2⟩, h3⟩
    exact ⟨fun k hk => h _ ⟨k, hk, rfl⟩, h2, h3⟩
  · rintro ⟨h, h2, h3⟩
    refine ⟨⟨⟨Nat.zero_le _, ?_⟩, h2⟩, h3⟩
    rintro _ ⟨k, hk, rfl⟩
    exact h k hk

/-- The release of a claim of class HOLD leaves the class as it is, or takes it from HOLD to NONE. -/
theorem release_of_hold {su : StopUnit} {c : Cause} (h : ∀ k ∈ su.own, k.cause = c → k.cls = .hold) :
    formEffective { su with own := su.own.filter fun k => k.cause != c } = formEffective su ∨
      (formEffective su = .hold ∧ formEffective { su with own := su.own.filter fun k => k.cause != c } = .none) := by
  have hle : ∀ n, clsRank (formEffective su) ≤ n ↔
      (∀ k ∈ su.own, clsRank k.cls ≤ n) ∧ clsRank (tableClass su) ≤ n ∧
        clsRank (if su.lineOpen then Cls.sever else Cls.none) ≤ n := fun n => formEffective_le n su
  have hle' : ∀ n, clsRank (formEffective { su with own := su.own.filter fun k => k.cause != c }) ≤ n ↔
      (∀ k ∈ su.own.filter fun k => k.cause != c, clsRank k.cls ≤ n) ∧ clsRank (tableClass su) ≤ n ∧
        clsRank (if su.lineOpen then Cls.sever else Cls.none) ≤ n := fun n => formEffective_le n _
  generalize formEffective su = a at *
  generalize formEffective { su with own := su.own.filter fun k => k.cause != c } = b at *
  have h1 : clsRank b ≤ clsRank a := by
    rw [hle']
    obtain ⟨x, y, z⟩ := (hle (clsRank a)).mp (Nat.le_refl _)
    exact ⟨fun k hk => x k (List.mem_of_mem_filter hk), y, z⟩
  have h2 : clsRank a ≤ max (clsRank b) 1 := by
    rw [hle]
    obtain ⟨x, y, z⟩ := (hle' (clsRank b)).mp (Nat.le_refl _)
    refine ⟨fun k hk => ?_, by omega, by omega⟩
    by_cases hc : k.cause = c
    · rw [h k hk hc]; simp [clsRank]
    · have := x k (List.mem_filter.mpr ⟨hk, by simpa using hc⟩); omega
  clear hle hle'
  cases a <;> cases b <;> simp_all [clsRank]

/-! ### The return to IDLE, whole -/

/-- A fall from HOLD to NONE leaves a channel that is not SEVERED as it is, and its controller in any state. -/
theorem classChannel_holdToNone (cfg : NodeConfig) (c : AxisChannel) :
    (c.state ≠ .severed → classChannel cfg .hold .none c = c) ∧
      (classChannel cfg .hold .none c).ctrl = c.ctrl := by
  obtain ⟨st⟩ := c
  refine ⟨fun h => ?_, ?_⟩ <;> cases st <;> first | rfl | exact absurd rfl h

/-- A channel after the return to IDLE, by the cases of R40. -/
theorem idleChannel_cases (latch : Bool) (cfg : NodeConfig) (c : AxisChannel) :
    let d := idleChannel latch cfg c
    (restsAtIdle c →
      d.state = .rest ∧ d.ctrl = .none ∧ d.segment = none ∧ d.idleTimer = none ∧ d.p8 = c.p8 ∧ d.v8 = c.v8 ∧
        (c.state = .override → d.demand = 0 ∧ d.jogTimer = none) ∧
        (c.state ≠ .override → d.demand = c.demand ∧ d.jogTimer = c.jogTimer)) ∧
      (¬ restsAtIdle c →
        d.ctrl = (if c.ctrl = .take then .none else c.ctrl) ∧ d.state = c.state ∧ d.p8 = c.p8 ∧ d.v8 = c.v8 ∧
          d.demand = c.demand ∧ d.jogTimer = c.jogTimer ∧ d.idleTimer = c.idleTimer ∧ d.segment = c.segment) := by
  by_cases h1 : c.state = .override <;> by_cases h2 : c.ctrl = .take <;>
    by_cases h3 : c.state = .follow ∨ c.state = .rejoin ∨ c.state = .goto <;>
    simp_all [idleChannel, restsAtIdle, enterRest, restTimer]

/-- The return to IDLE, where the mismatch claim is one of class HOLD. -/
theorem returnToIdle_returns {s : State} (he : s.su.effective = formEffective s.su)
    (hp : ∀ k ∈ s.su.own, k.cause = .peerMismatch → k.cls = .hold) : ReturnsToIdle s (returnToIdle s) := by
  obtain ⟨bsu, btc, bfd, bpu⟩ := beforeRelease_blocks s
  obtain ⟨bax, bmap, bp, -⟩ := beforeRelease_axes s
  rw [returnToIdle_eq]
  generalize beforeRelease s = u at *
  have hrel := release_of_hold (su := u.su) (c := .peerMismatch) (by rw [bsu]; exact hp)
  have hue : u.su.effective = formEffective u.su := by rw [bsu]; exact he
  rw [← hue] at hrel
  -- what the release makes of u
  have key : (∃ a n, (releaseKey .peerMismatch u).pu = { u.pu with announced := a, paceTimer := n }) ∧
      (∀ k ∈ (releaseKey .peerMismatch u).su.own, k.cause ≠ .peerMismatch) ∧
      (∀ i, punchesEnded i u → punchesEnded i (releaseKey .peerMismatch u)) ∧
      (∀ i m, u.lmu.get i = changedMaps m → (releaseKey .peerMismatch u).lmu.get i = changedMaps m) ∧
      (∀ i, (axisCh (releaseKey .peerMismatch u) i).ctrl = (axisCh u i).ctrl ∧
        ((axisCh u i).state ≠ .severed ∨ u.su.effective = .sever →
          ∃ latch, axisCh (releaseKey .peerMismatch u) i = keptChannel latch (axisCh u i) ∨
            axisCh (releaseKey .peerMismatch u) i = axisCh u i)) := by
    rcases hrel with h | ⟨h1, h2⟩
    · obtain ⟨hc, -, -, hno, a, n, hpu⟩ := releaseKey_sameClass h
      have hax : (releaseKey .peerMismatch u).ax = u.ax := hc.1 .ax (by simp)
      have hlm : (releaseKey .peerMismatch u).lmu = u.lmu := hc.1 .lmu (by simp)
      refine ⟨⟨a, n, hpu⟩, hno, fun i h => by simpa [punchesEnded, hax] using h, fun i m h => by rw [hlm]; exact h,
        fun i => ⟨by simp [axisCh, hax], fun _ => ⟨false, Or.inr (by simp [axisCh, hax])⟩⟩⟩
    · have hany : u.su.own.any (fun k => k.cause == .peerMismatch) = true := by
        simp only [List.any_eq_true, beq_iff_eq]
        apply Classical.byContradiction
        intro hno
        have hf : u.su.own.filter (fun k => k.cause != .peerMismatch) = u.su.own := by
          rw [List.filter_eq_self]; intro k hk; simp; exact fun hkc => hno ⟨k, hk, hkc⟩
        rw [hf, ← hue, h1] at h2
        cases h2
      have hceff : (changeOwn false .peerMismatch (u.su.own.filter fun k => k.cause != .peerMismatch) u).su.effective
          = .none := by simpa [changeOwn, handStop, formClass] using h2
      have hrk : releaseKey .peerMismatch u = takeClass .hold u.pu.t
          (changeOwn false .peerMismatch (u.su.own.filter fun k => k.cause != .peerMismatch) u) := by
        simp only [releaseKey, hany, if_true, hceff, h1]
        simp
      rw [hrk]
      generalize hv : changeOwn false .peerMismatch (u.su.own.filter fun k => k.cause != .peerMismatch) u = v at *
      have hvax : v.ax = u.ax := by rw [← hv]; simp
      have hvl : v.lmu = u.lmu := by rw [← hv]; simp
      have hvp : v.pu = u.pu := by rw [← hv]; simp
      have hvo : v.su.own = u.su.own.filter fun k => k.cause != .peerMismatch := by rw [← hv]; simp
      have hvd : v.su.driveLatch = u.su.driveLatch := by rw [← hv]; simp [changeOwn, handStop, formClass]
      obtain ⟨k1, ⟨a, n, k2⟩, k3, -⟩ := takeClass_blocks .hold u.pu.t v
      refine ⟨⟨a, n, ?_⟩, ?_, fun i h => (takeClass_punches .hold u.pu.t v i).1 (by simpa [punchesEnded, hvax] using h),
        fun i m h => takeClass_maps (by rw [hvl]; exact h), fun i => ?_⟩
      · rw [k2]; simp [dropRates, hceff, clsRank, hvp]
      · rw [k1]; simp [hvo]
      · rw [k3 i, hceff]
        have hxi : axisCh v i = axisCh u i := by simp [axisCh, hvax]
        rw [hxi]
        obtain ⟨c1, c2⟩ := classChannel_holdToNone v.cl.cfg (axisCh u i)
        refine ⟨by simpa using c2, fun h => ⟨if Cls.none = Cls.sever then false else v.su.driveLatch,
          Or.inl (by rw [c1 (h.resolve_right (by rw [h1]; simp))])⟩⟩
  obtain ⟨⟨a, n, kpu⟩, kown, kp, kmap, kax⟩ := key
  have hidle := fun i => idleChannel_cases s.su.driveLatch s.cl.cfg (axisCh s i)
  refine ⟨?_, ?_, kown, ?_, ?_, ?_, ?_⟩
  · simp [btc]
  · simp [bfd, kpu, bpu]
  · intro i c h
    obtain ⟨hi, -⟩ := hidle i
    have hi := hi h
    rw [← bax] at hi
    obtain ⟨kc, ks⟩ := kax i
    obtain ⟨l, hk | hk⟩ := ks (Or.inl (by rw [hi.1]; simp)) <;> rw [hk] <;> simpa using hi
  · intro i c h
    exact kmap i _ (bmap i h)
  · intro i c h
    exact kp i (bp i h)
  · intro i c h
    obtain ⟨-, hi⟩ := hidle i
    have hi := hi h
    rw [← bax] at hi
    obtain ⟨kc, ks⟩ := kax i
    refine ⟨by rw [kc]; exact hi.1, fun hs => ?_⟩
    obtain ⟨l, hk | hk⟩ := ks (by rw [hi.2.1, bsu]; exact hs) <;> rw [hk] <;> simpa using hi.2

/-! ### A rise of the class, whole (Table 11-2, R47, R89, R142, R147, R167 to R170) -/

/-- What a rise of the class makes of a channel, by the cases of R47. -/
theorem classChannel_rise {cfg : NodeConfig} {old new : Cls} (c : AxisChannel) (h : clsRank old < clsRank new) :
    let d := classChannel cfg old new c
    (c.state = .disabled ∨ c.state = .fault → d.state = c.state ∧ d.p8 = c.p8 ∧ d.v8 = c.v8) ∧
    (new = .sever → onPath c.state ∨ c.state = .braking → d.state = .severed ∧ d.v8 = 0 ∧ d.followCount = 0) ∧
    (new = .halt → onPath c.state ∨ c.state = .braking → d.state = .braking ∧ d.p8 = c.p8 ∧ d.v8 = c.v8) ∧
    (clsGe new .halt → onPath c.state →
      d.demand = 0 ∧ d.jogTimer = none ∧ d.idleTimer = none ∧ d.segment = none) ∧
    (clsGe new .halt → c.state = .override ∨ c.state = .rejoin → d.ctrl = .take) ∧
    (new = .hold → onPath c.state → d = { c with demand := 0, jogTimer := none }) := by
  obtain ⟨st⟩ := c
  have ho : new = .hold → old = .none := by rintro rfl; cases old <;> simp_all [clsRank]
  cases new with
  | none => simp [clsRank] at h
  | hold =>
    obtain rfl := ho rfl
    cases st <;> simp [onPath, classChannel.eq_def, clsRank]
  | halt => cases st <;> simp [onPath, classChannel.eq_def, offPath, punchedState]
  | sever => cases st <;> simp [onPath, classChannel.eq_def, offPath, punchedState]

/-- The blocks that every change of the class leaves alone. -/
theorem takeClass_others (old : Cls) (trip : TakeTime) (s : State) :
    (takeClass old trip s).tc = s.tc ∧ (takeClass old trip s).fd = s.fd := by
  simp [takeClass]

/-- The rates after the drop of a rise. -/
theorem dropRates_rise {old : Cls} {s : State} (h : clsRank old < clsRank s.su.effective) :
    (dropRates old s).pu = if clsGe s.su.effective .halt then
      { s.pu with rm := 0, r := if s.tc.mode = .recording then s.pu.r else 0 } else s.pu := by
  unfold dropRates
  split <;> rename_i h' <;> simp_all

/-- A change of mode leaves a taint that waits alone. -/
theorem setMode_taint (m : Mode) (s : State) : (setMode m s).ts.taintTrip = s.ts.taintTrip := by
  have hb : (abandonBulk (s.setTc { s.tc with mode := m })).ts.taintTrip = s.ts.taintTrip := by
    unfold abandonBulk
    split <;> simp [emptyEntry, setEntry]
  have he : (modeEffects s.tc.mode m (s.setTc { s.tc with mode := m })).ts.taintTrip = s.ts.taintTrip := by
    unfold modeEffects
    dsimp only
    split <;> split <;> split <;> simp [clearCeilings, hb]
  unfold setMode
  dsimp only
  split <;> split <;> simp [he]

/-- A taint that waits stays at the return to IDLE, before the release. -/
theorem beforeRelease_taint (s : State) : (beforeRelease s).ts.taintTrip = s.ts.taintTrip := by
  have h : ∀ (l : List Axis) (u : State), (l.foldl idleAt u).ts.taintTrip = u.ts.taintTrip := by
    intro l
    induction l with
    | nil => exact fun _ => rfl
    | cons a l ih =>
      intro u
      rw [List.foldl_cons, ih]
      by_cases hc : (axisCh u a).ctrl = .take <;> cases hst : (axisCh u a).state <;> simp [idleAt, hst, hc]
  have hd : (disarm s).ts.taintTrip = s.ts.taintTrip := by
    unfold disarm
    split
    · rfl
    · split <;> simp [emptyEntry, setEntry]
  rw [beforeRelease, setMode_taint]
  exact (h allAxes (disarm s)).trans hd

/-- The return to IDLE, where the release of the mismatch claim leaves the class as it is. -/
theorem returnToIdle_sameClass {s : State}
    (h : formEffective { s.su with own := s.su.own.filter fun k => k.cause != .peerMismatch } = s.su.effective) :
    let t := returnToIdle s
    t.su.effective = s.su.effective ∧ t.su.driveLatch = s.su.driveLatch ∧ t.tc = (beforeRelease s).tc ∧
      t.fd = { Feeder.reset with cueLow := s.fd.cueLow } ∧ t.pu.t = s.pu.t ∧ t.pu.tm = s.pu.tm ∧
      t.pu.rm = s.pu.rm ∧ t.pu.r = 0 ∧
      (∀ i, axisCh t i = idleChannel s.su.driveLatch s.cl.cfg (axisCh s i)) ∧
      (∀ i, punchesEnded i s → punchesEnded i t) ∧ t.ts.taintTrip = s.ts.taintTrip := by
  obtain ⟨bsu, btc, bfd, bpu⟩ := beforeRelease_blocks s
  obtain ⟨bax, -, -, bp⟩ := beforeRelease_axes s
  have bt := beforeRelease_taint s
  rw [returnToIdle_eq]
  generalize beforeRelease s = u at *
  obtain ⟨hc, he, hl, -, a, n, hpu⟩ := releaseKey_sameClass (c := .peerMismatch) (s := u) (by rw [bsu]; exact h)
  have kax : (releaseKey .peerMismatch u).ax = u.ax := hc.1 .ax (by simp)
  have ktc : (releaseKey .peerMismatch u).tc = u.tc := hc.1 .tc (by simp)
  have kfd : (releaseKey .peerMismatch u).fd = u.fd := hc.1 .fd (by simp)
  have kts : (releaseKey .peerMismatch u).ts = u.ts := hc.1 .ts (by simp)
  refine ⟨by rw [he, bsu], by rw [hl, bsu], ktc, by rw [kfd, bfd], by rw [hpu, bpu], by rw [hpu, bpu],
    by rw [hpu, bpu], by rw [hpu, bpu], fun i => ?_, fun i hi => ?_, by rw [kts, bt]⟩
  · rw [← bax]; simp [axisCh, kax]
  · simpa [punchesEnded, kax] using bp i hi

/-- A following counter at 0 stays so at the return to IDLE. -/
theorem idleChannel_followCount {latch : Bool} {cfg : NodeConfig} {c : AxisChannel} (h : c.followCount = 0) :
    (idleChannel latch cfg c).followCount = 0 := by
  unfold idleChannel
  split
  · simp [keptChannel, enterRest, h]
  · split
    · exact h
    · split <;> simp [keptChannel, enterRest, h]

/-- The following counter of a channel as it is kept. -/
theorem keptChannel_followCount {latch : Bool} {c : AxisChannel} (h : c.followCount = 0) :
    (keptChannel latch c).followCount = 0 := by
  simp [keptChannel, h]

/-- The channel of axis i after a rise of the class of s0 to `new`. -/
abbrev risenChannel (new : Cls) (s0 : State) (i : Axis) : AxisChannel :=
  keptChannel (if new = .sever then false else s0.su.driveLatch)
    (classChannel s0.cl.cfg s0.su.effective new (axisCh s0 i))

/-- A channel that is in no state that goes to rest at the return to IDLE. -/
theorem idleChannel_stays {latch : Bool} {cfg : NodeConfig} {c : AxisChannel}
    (h : c.state = .disabled ∨ c.state = .fault ∨ c.state = .braking ∨ c.state = .severed) :
    let d := idleChannel latch cfg c
    d.state = c.state ∧ d.p8 = c.p8 ∧ d.v8 = c.v8 ∧ d.demand = c.demand ∧ d.jogTimer = c.jogTimer ∧
      d.idleTimer = c.idleTimer ∧ d.segment = c.segment ∧ (c.followCount = 0 → d.followCount = 0) := by
  obtain ⟨-, hi⟩ := idleChannel_cases latch cfg c
  obtain ⟨-, e1, e2, e3, e4, e5, e6, e7⟩ := hi (by rcases h with h | h | h | h <;> simp [restsAtIdle, h])
  exact ⟨e1, e2, e3, e4, e5, e6, e7, idleChannel_followCount⟩

/-- What is to be shown of a rise of the class, once its channels are known. -/
theorem classRises_of {s0 t : State} {trip : TakeTime} {new : Cls} {latch : Bool} {cfg : NodeConfig}
    (hlt : clsRank s0.su.effective < clsRank new) (h1 : t.su.effective = new)
    (h2 : t.su.driveLatch = (if new = .sever then false else s0.su.driveLatch))
    (h3 : t.pu.t = s0.pu.t ∧ t.pu.tm = s0.pu.tm)
    (h4 : clsGe new .halt → t.pu.rm = 0 ∧ (s0.tc.mode ≠ .recording → t.pu.r = 0))
    (h5 : (s0.tc.mode = .recording → t.pu.r = s0.pu.r) ∧
      (new = .hold → t.pu.rm = s0.pu.rm ∧ (inPlay s0.tc.mode = true → t.pu.r = s0.pu.r)))
    (h7 : t.ts.taintTrip =
      if s0.tc.mode = .recording then s0.ts.taintTrip.or (some trip) else s0.ts.taintTrip)
    (h8 : ∀ i, clsGe new .halt → punchedState (axisCh s0 i).state = true → punchesEnded i t)
    (h9 : (∀ i, axisCh t i = risenChannel new s0 i) ∨
      (endsOnRise new s0 ∧ ∀ i, axisCh t i = idleChannel latch cfg (risenChannel new s0 i)))
    (h10 : endsOnRise new s0 →
      t.tc.mode = .idle ∧ t.tc.ctx = none ∧ t.fd = { Feeder.reset with cueLow := s0.fd.cueLow })
    (h11 : s0.tc.mode = .rolling → t.tc = { s0.tc with
      mode := if s0.tc.roll.mode = some .record then .armed else .ready,
      roll := { s0.tc.roll with window := none, result := .cancelled .stopped } })
    (h12 : inPlay s0.tc.mode = true → clsGe new .halt → wrapPending s0 = false →
      t.tc = { s0.tc with
        mode := .halted, ctx := s0.tc.ctx.map fun c => { c with haltSeq := some (seqInPlay s0.fd) } } ∧
      t.fd = { s0.fd with suspended := true, sectionWait := false, slot := .empty, sourceRead := none } ∧
      t.pu.slices = [])
    (h13 : ¬ endsOnRise new s0 → s0.tc.mode ≠ .rolling → (inPlay s0.tc.mode = true → new = .hold) →
      t.tc = s0.tc ∧ t.fd = s0.fd) : ClassRises new trip s0 t := by
  have cr := fun i => classChannel_rise (cfg := s0.cl.cfg) (old := s0.su.effective) (new := new) (axisCh s0 i) hlt
  -- a channel that does not go to rest at the return to IDLE
  have stay : ∀ i, let d := classChannel s0.cl.cfg s0.su.effective new (axisCh s0 i)
      d.state = .disabled ∨ d.state = .fault ∨ d.state = .braking ∨ d.state = .severed →
      (axisCh t i).state = d.state ∧ (axisCh t i).p8 = d.p8 ∧ (axisCh t i).v8 = d.v8 ∧
        (axisCh t i).demand = d.demand ∧ (axisCh t i).jogTimer = d.jogTimer ∧
        (axisCh t i).idleTimer = d.idleTimer ∧ (axisCh t i).segment = d.segment ∧
        (d.followCount = 0 → (axisCh t i).followCount = 0) := by
    intro i d hd
    rcases h9 with h | ⟨-, h⟩ <;> rw [h]
    · exact ⟨rfl, rfl, rfl, rfl, rfl, rfl, rfl, keptChannel_followCount⟩
    · obtain ⟨e1, e2, e3, e4, e5, e6, e7, e8⟩ := idleChannel_stays (latch := latch) (cfg := cfg)
        (c := risenChannel new s0 i) hd
      exact ⟨e1, e2, e3, e4, e5, e6, e7, fun h => e8 (keptChannel_followCount h)⟩
  have two : clsGe new .halt → new = .halt ∨ new = .sever := by cases new <;> simp [clsRank]
  refine ⟨h1, h2, h3, h4, h5, fun i hi => ?_, fun hn i hi => ?_, fun hn i hi => ?_, fun hn i hi => ?_,
    fun hn i hi => ⟨h8 i hn (by rcases hi with hi | hi <;> simp [punchedState, hi]), fun hp hw => ?_⟩,
    fun hn he i hi => ?_, h10, h11, h12, h13, h7⟩
  · obtain ⟨c1, c2, c3⟩ := (cr i).1 hi
    obtain ⟨e1, e2, e3, -⟩ := stay i (by rw [c1]; rcases hi with h | h <;> simp [h])
    exact ⟨e1.trans c1, e2.trans c2, e3.trans c3⟩
  · obtain ⟨c1, c2, c3⟩ := (cr i).2.1 hn hi
    obtain ⟨e1, -, e3, -, -, -, -, e8⟩ := stay i (by simp [c1])
    exact ⟨e1.trans c1, e3.trans c2, e8 c3⟩
  · obtain ⟨c1, c2, c3⟩ := (cr i).2.2.1 hn hi
    obtain ⟨e1, e2, e3, -⟩ := stay i (by simp [c1])
    exact ⟨e1.trans c1, e2.trans c2, e3.trans c3⟩
  · obtain ⟨c1, c2, c3, c4⟩ := (cr i).2.2.2.1 hn hi
    have hst := stay i (by
      rcases two hn with h | h
      · simp [((cr i).2.2.1 h (Or.inl hi)).1]
      · simp [((cr i).2.1 h (Or.inl hi)).1])
    obtain ⟨-, -, -, e4, e5, e6, e7, -⟩ := hst
    exact ⟨e4.trans c1, e5.trans c2, e6.trans c3, e7.trans c4⟩
  · rcases h9 with h | ⟨h, -⟩
    · rw [h, keptChannel_ctrl]
      exact (cr i).2.2.2.2.1 hn hi
    · rcases h with h | h | ⟨-, -, h⟩
      · rw [h] at hp; cases hp
      · rw [h] at hp; cases hp
      · rw [hw] at h; cases h
  · rcases h9 with h | ⟨h, -⟩
    · rw [h, risenChannel, (cr i).2.2.2.2.2 hn hi]
      subst hn
      have hb : (axisCh s0 i).state ≠ .braking := by
        intro hb; rw [hb] at hi; simp [onPath] at hi
      simp only [keptChannel, tracks]
      congr 1
      cases s0.su.driveLatch <;> simp [hb]
    · exact absurd h he

/-- The blocks but the take controller have taken a rise of the class of s0 to `new`. -/
structure BlocksRise (new : Cls) (trip : TakeTime) (s0 v : State) : Prop where
  /-- The stop unit. -/
  su : v.su.effective = new ∧ v.su.driveLatch = if new = .sever then false else s0.su.driveLatch
  /-- Where the station goes to IDLE, the release of the mismatch claim does not change the class. -/
  release : endsOnRise new s0 → formEffective { v.su with own := v.su.own.filter fun k => k.cause != .peerMismatch } = new
  /-- The clocks. -/
  clocks : v.pu.t = s0.pu.t ∧ v.pu.tm = s0.pu.tm
  /-- The rates at HALT and SEVER. -/
  rates : clsGe new .halt → v.pu.rm = 0 ∧ (s0.tc.mode ≠ .recording → v.pu.r = 0)
  /-- The rates that stay. -/
  slower : (new = .hold → v.pu.rm = s0.pu.rm) ∧ (s0.tc.mode = .recording ∨ new = .hold → v.pu.r = s0.pu.r)
  /-- The taint. -/
  taint : v.ts.taintTrip = if s0.tc.mode = .recording then s0.ts.taintTrip.or (some trip) else s0.ts.taintTrip
  /-- The punches. -/
  punches : ∀ i, clsGe new .halt → punchedState (axisCh s0 i).state = true → punchesEnded i v
  /-- The channels. -/
  channels : ∀ i, axisCh v i = risenChannel new s0 i
  /-- The take controller and the feeder are as they were. -/
  kept : v.tc = s0.tc ∧ v.fd = s0.fd

/-- The return to IDLE that ends a rise. -/
theorem BlocksRise.ends {new : Cls} {trip : TakeTime} {s0 v w : State} (h : BlocksRise new trip s0 v)
    (hlt : clsRank s0.su.effective < clsRank new) (hax : w.ax = v.ax) (hsu : w.su = v.su)
    (hpu : w.pu.t = v.pu.t ∧ w.pu.tm = v.pu.tm ∧ w.pu.rm = v.pu.rm) (hts : w.ts.taintTrip = v.ts.taintTrip)
    (hfd : w.fd.cueLow = v.fd.cueLow) (he : endsOnRise new s0) : ClassRises new trip s0 (returnToIdle w) := by
  have hm : s0.tc.mode = .cueing ∨ s0.tc.mode = .recovering ∨ (inPlay s0.tc.mode = true ∧ clsGe new .halt) := by
    rcases he with h | h | ⟨h, h', -⟩
    · exact Or.inl h
    · exact Or.inr (Or.inl h)
    · exact Or.inr (Or.inr ⟨h, h'⟩)
  have hnr : s0.tc.mode ≠ .recording := by rcases hm with h | h | ⟨h, -⟩ <;> rintro hr <;> simp [hr, inPlay] at h
  obtain ⟨r1, r2, r3, r4, r5, r6, r7, r8, r9, r10, r11⟩ := returnToIdle_sameClass (s := w)
    (by rw [hsu, h.release he, h.su.1])
  have btc := (beforeRelease_blocks w).2.1
  refine classRises_of (latch := w.su.driveLatch) (cfg := w.cl.cfg) hlt (by rw [r1, hsu, h.su.1])
    (by rw [r2, hsu, h.su.2]) ⟨by rw [r5, hpu.1, h.clocks.1], by rw [r6, hpu.2.1, h.clocks.2]⟩
    (fun hn => ⟨by rw [r7, hpu.2.2]; exact (h.rates hn).1, fun _ => r8⟩)
    ⟨fun hr => absurd hr hnr, fun hn => ⟨by rw [r7, hpu.2.2]; exact h.slower.1 hn, fun hp => ?_⟩⟩
    (by rw [r11, hts, h.taint]) (fun i hn hp => r10 i (by simpa [punchesEnded, hax] using h.punches i hn hp))
    (Or.inr ⟨he, fun i => by rw [r9, ← h.channels]; simp [axisCh, hax]⟩)
    (fun _ => ⟨by rw [r3, btc], by rw [r3, btc], by rw [r4, hfd, h.kept.2]⟩) (fun hr => ?_) (fun hp hn hw => ?_)
    (fun hne => absurd he hne)
  · rcases hm with hm | hm | ⟨-, hm⟩
    · rw [hm] at hp; cases hp
    · rw [hm] at hp; cases hp
    · rw [hn] at hm; simp [clsRank] at hm
  · rcases hm with hm | hm | ⟨hm, -⟩ <;> rw [hr] at hm <;> cases hm
  · rcases he with he | he | ⟨-, -, he⟩
    · rw [he] at hp; cases hp
    · rw [he] at hp; cases hp
    · rw [hw] at he; cases he

/-- A rise of the class, with what the take controller makes of it. -/
theorem BlocksRise.rises {new : Cls} {trip : TakeTime} {s0 v : State} (h : BlocksRise new trip s0 v)
    (hlt : clsRank s0.su.effective < clsRank new) : ClassRises new trip s0 (modeOnRise v) := by
  obtain ⟨htc, hfd⟩ := h.kept
  -- a rise that leaves the channels, the rates and the stop unit as they are
  have other : ∀ t : State, t.su = v.su → t.ax = v.ax → t.ts.taintTrip = v.ts.taintTrip →
      t.pu.t = v.pu.t ∧ t.pu.tm = v.pu.tm ∧ t.pu.rm = v.pu.rm →
      (t.pu.r = v.pu.r ∨ (s0.tc.mode ≠ .recording ∧ t.pu.r = 0 ∧ (inPlay s0.tc.mode = true → clsGe new .halt))) →
      ¬ endsOnRise new s0 →
      (s0.tc.mode = .rolling → t.tc = { s0.tc with
        mode := if s0.tc.roll.mode = some .record then .armed else .ready,
        roll := { s0.tc.roll with window := none, result := .cancelled .stopped } }) →
      (inPlay s0.tc.mode = true → clsGe new .halt → wrapPending s0 = false →
        t.tc = { s0.tc with
          mode := .halted, ctx := s0.tc.ctx.map fun c => { c with haltSeq := some (seqInPlay s0.fd) } } ∧
        t.fd = { s0.fd with suspended := true, sectionWait := false, slot := .empty, sourceRead := none } ∧
        t.pu.slices = []) →
      (¬ endsOnRise new s0 → s0.tc.mode ≠ .rolling → (inPlay s0.tc.mode = true → new = .hold) →
        t.tc = s0.tc ∧ t.fd = s0.fd) → ClassRises new trip s0 t := by
    intro t hsu hax hts ⟨hpt, hptm, hprm⟩ hr hne hroll hhalt hkept
    refine classRises_of (latch := false) (cfg := v.cl.cfg) hlt (by rw [hsu, h.su.1]) (by rw [hsu, h.su.2])
      ⟨by rw [hpt, h.clocks.1], by rw [hptm, h.clocks.2]⟩ (fun hn => ⟨by rw [hprm]; exact (h.rates hn).1, fun hm => ?_⟩)
      ⟨fun hm => ?_, fun hn => ⟨by rw [hprm]; exact h.slower.1 hn, fun hp => ?_⟩⟩ (by rw [hts, h.taint])
      (fun i hn hp => by simpa [punchesEnded, hax] using h.punches i hn hp)
      (Or.inl fun i => by rw [← h.channels]; simp [axisCh, hax]) (fun he => absurd he hne) hroll hhalt hkept
    · rcases hr with hr | ⟨-, hr, -⟩
      · rw [hr]; exact (h.rates hn).2 hm
      · exact hr
    · rcases hr with hr | ⟨hr, -⟩
      · rw [hr]; exact h.slower.2 (Or.inl hm)
      · exact absurd hm hr
    · rcases hr with hr | ⟨-, -, hr⟩
      · rw [hr]; exact h.slower.2 (Or.inr hn)
      · exact absurd (hr hp) (by rw [hn]; simp [clsRank])
  have idleHalts : inPlay s0.tc.mode = true → ClassRises new trip s0
      (if clsGe v.su.effective .halt then enterHalted v else v) := by
    intro hp
    have hnm : s0.tc.mode ≠ .cueing ∧ s0.tc.mode ≠ .recovering ∧ s0.tc.mode ≠ .rolling ∧ s0.tc.mode ≠ .recording := by
      refine ⟨?_, ?_, ?_, ?_⟩ <;> intro hm <;> rw [hm] at hp <;> cases hp
    rw [h.su.1]
    split
    · rename_i hn
      simp only [enterHalted]
      generalize hw : setMode .halted _ = w
      have wsu : w.su = v.su := by rw [← hw]; simp [modContext, suspendFeeder]
      have wax : w.ax = v.ax := by rw [← hw]; simp [modContext, suspendFeeder]
      have wts : w.ts.taintTrip = v.ts.taintTrip := by
        rw [← hw, setMode_taint]; simp [modContext, suspendFeeder]
      have wpu : w.pu.t = v.pu.t ∧ w.pu.tm = v.pu.tm ∧ w.pu.rm = v.pu.rm ∧ w.pu.r = 0 ∧ w.pu.slices = [] := by
        rw [← hw]; simp [setMode_pu, modContext, suspendFeeder]
      have wfd : w.fd =
          { s0.fd with suspended := true, sectionWait := false, slot := .empty, sourceRead := none } := by
        rw [← hw, ← hfd]; simp [setMode_fd, modContext, suspendFeeder, inPlay]
      have wtc : w.tc = { s0.tc with
          mode := .halted, ctx := s0.tc.ctx.map fun c => { c with haltSeq := some (seqInPlay s0.fd) } } := by
        rw [← hw, ← htc, ← hfd]; simp [modContext, suspendFeeder]
      have wwp : wrapPending w = wrapPending s0 := by
        simp only [wrapPending, wtc]
        cases s0.tc.ctx <;> rfl
      split
      · rename_i hwp
        exact h.ends hlt wax wsu ⟨wpu.1, wpu.2.1, wpu.2.2.1⟩ wts (by rw [wfd, hfd])
          (Or.inr (Or.inr ⟨hp, hn, by rw [← wwp]; exact hwp⟩))
      · rename_i hwp
        refine other w wsu wax wts ⟨wpu.1, wpu.2.1, wpu.2.2.1⟩ (Or.inr ⟨hnm.2.2.2, wpu.2.2.2.1, fun _ => hn⟩) ?_
          (fun hr => absurd hr hnm.2.2.1) (fun _ _ _ => ⟨wtc, wfd, wpu.2.2.2.2⟩) (fun _ _ hh => ?_)
        · rintro (he | he | ⟨-, -, he⟩)
          · exact hnm.1 he
          · exact hnm.2.1 he
          · rw [wwp] at hwp; exact hwp he
        · rw [hh hp] at hn; simp [clsRank] at hn
    · rename_i hn
      refine other v rfl rfl rfl ⟨rfl, rfl, rfl⟩ (Or.inl rfl) ?_ (fun hr => absurd hr hnm.2.2.1)
        (fun _ hh => absurd hh hn) (fun _ _ _ => ⟨htc, hfd⟩)
      rintro (he | he | ⟨-, he, -⟩)
      · exact hnm.1 he
      · exact hnm.2.1 he
      · exact hn he
  have ne : ∀ m : Mode, s0.tc.mode = m → m ≠ .cueing → m ≠ .recovering → inPlay m = false → ¬ endsOnRise new s0 := by
    rintro m rfl h1 h2 h3 (he | he | ⟨he, -⟩)
    · exact h1 he
    · exact h2 he
    · rw [h3] at he; cases he
  have still : ∀ m : Mode, s0.tc.mode = m → m ≠ .cueing → m ≠ .recovering → m ≠ .rolling → inPlay m = false →
      ClassRises new trip s0 v := fun m hm h1 h2 h3 h4 =>
    other v rfl rfl rfl ⟨rfl, rfl, rfl⟩ (Or.inl rfl) (ne m hm h1 h2 h4) (fun hr => absurd (hm ▸ hr) h3)
      (fun hp => by rw [hm, h4] at hp; cases hp) (fun _ _ _ => ⟨htc, hfd⟩)
  unfold modeOnRise
  rw [htc]
  cases hm : s0.tc.mode
  case cueing => exact h.ends hlt rfl rfl ⟨rfl, rfl, rfl⟩ rfl rfl (Or.inl hm)
  case recovering => exact h.ends hlt rfl rfl ⟨rfl, rfl, rfl⟩ rfl rfl (Or.inr (Or.inl hm))
  case playing => exact idleHalts (by rw [hm]; rfl)
  case held => exact idleHalts (by rw [hm]; rfl)
  case rolling =>
    have hpu : ∀ m : Mode, m = .ready ∨ m = .armed → ∀ u : State, (setMode m u).pu.r = 0 := by
      rintro m (rfl | rfl) u <;> simp [setMode_pu]
    have hmm : (if v.tc.roll.mode = some .record then Mode.armed else Mode.ready) = .ready ∨
        (if v.tc.roll.mode = some .record then Mode.armed else Mode.ready) = .armed := by
      split <;> simp
    refine other _ ?_ ?_ ?_ ?_ (Or.inr ⟨by rw [hm]; simp, ?_, fun hp => by rw [hm] at hp; cases hp⟩)
      (ne _ hm (by simp) (by simp) rfl) (fun _ => ?_) (fun hp => by rw [hm] at hp; cases hp)
      (fun _ hr => absurd hm hr)
    · simp [cancelRoll]
    · simp [cancelRoll]
    · simp [cancelRoll, setMode_taint]
    · simp [cancelRoll, setMode_pu]
    · simp only [cancelRoll]; exact hpu _ hmm _
    · simp [cancelRoll, htc, hm]
  all_goals exact still _ hm (by simp) (by simp) (by simp) rfl

/-- A rise of the class that is formed, where the return to IDLE cannot change it. -/
theorem classFormed_rises {s0 s : State} {trip : TakeTime} {new : Cls}
    (hax : s.ax = s0.ax) (htc : s.tc = s0.tc) (hfd : s.fd = s0.fd) (hpu : s.pu = s0.pu)
    (hts : s.ts = s0.ts) (hcl : s.cl = s0.cl) (hl : s.su.driveLatch = s0.su.driveLatch)
    (hnew : s.su.effective = new) (hlt : clsRank s0.su.effective < clsRank new)
    (hrel : endsOnRise new s0 →
      formEffective { s.su with own := s.su.own.filter fun k => k.cause != .peerMismatch } = new) :
    ClassRises new trip s0 (classFormed s0.su.effective trip s) := by
  have hne : s.su.effective ≠ s0.su.effective := by intro h; rw [hnew] at h; rw [h] at hlt; omega
  have hrise : clsRank s0.su.effective < clsRank s.su.effective := by rw [hnew]; exact hlt
  obtain ⟨bsu, ⟨a, n, bpu⟩, bch, btaint⟩ := takeClass_blocks s0.su.effective trip s
  obtain ⟨btc, bfd⟩ := takeClass_others s0.su.effective trip s
  have bpun := takeClass_punches s0.su.effective trip s
  rw [dropRates_rise hrise, hnew, htc, hpu] at bpu
  have hx : ∀ i, axisCh s i = axisCh s0 i := fun i => by simp [axisCh, hax]
  have hr : (takeClass s0.su.effective trip s).su.effective = new := by rw [bsu]; exact hnew
  simp only [classFormed, if_neg hne, hr, if_pos hlt]
  refine BlocksRise.rises ⟨⟨hr, by rw [bsu, hnew, hl]⟩, by rw [bsu]; exact hrel, ?_, fun h => ?_, ⟨?_, ?_⟩, ?_,
    fun i hn hp => (bpun i).2 (by rw [hnew]; exact hn) (by rw [hx]; exact hp), fun i => ?_, ?_⟩ hlt
  · rw [bpu]; split <;> simp
  · rw [bpu, if_pos h]; simp +contextual
  · rintro rfl; rw [bpu]; simp [clsRank]
  · rintro (h | h)
    · rw [bpu]; split <;> simp
    · subst h; rw [bpu]; simp [clsRank]
  · rw [btaint, htc, hts, hnew]
    cases h : s0.ts.taintTrip <;> by_cases hm : s0.tc.mode = .recording <;> simp [hm, hlt]
  · rw [bch, hcl, hnew, hl, hx]
  · exact ⟨btc.trans htc, bfd.trans hfd⟩

/-! ### Raises (R162) -/

/-- What a raise makes of the own claim set: it holds the key with the class, every other claim was there before,
and none is lost but to a greater class. -/
theorem raisedSet_claims {c : Cause} {cls : Cls} {own own' : List Claim} (h : raisedSet c cls own = some own')
    (hd : (own.map Claim.cause).Nodup) :
    { cause := c, cls := cls } ∈ own' ∧ (∀ k ∈ own', k = { cause := c, cls := cls } ∨ k ∈ own) ∧
      ∀ k ∈ own, ∃ j ∈ own', clsRank k.cls ≤ clsRank j.cls := by
  unfold raisedSet at h
  split at h
  · cases h
    refine ⟨by simp, fun k hk => ?_, fun k hk => ⟨k, by simp [hk], Nat.le_refl _⟩⟩
    rcases List.mem_append.mp hk with hk | hk
    · exact Or.inr hk
    · exact Or.inl (by simpa using hk)
  · rename_i k hf
    split at h
    · rename_i hr
      cases h
      have hk := List.mem_of_find?_eq_some hf
      have hc : k.cause = c := by simpa using List.find?_some hf
      refine ⟨List.mem_map.mpr ⟨k, hk, by simp [hc]⟩, fun j hj => ?_, fun j hj => ?_⟩
      · obtain ⟨x, hx, rfl⟩ := List.mem_map.mp hj
        by_cases h : x.cause = c
        · rw [if_pos h]; exact Or.inl (by cases x; simp_all)
        · rw [if_neg h]; exact Or.inr hx
      · refine ⟨_, List.mem_map.mpr ⟨j, hj, rfl⟩, ?_⟩
        split
        · rename_i h
          have : j = k := List.inj_on_of_nodup_map hd hj hk (h.trans hc.symm)
          rw [this]; simp; omega
        · exact Nat.le_refl _
    · cases h

/-- A raise that changes nothing: the key has the class, or a greater one. -/
theorem raisedSet_none {c : Cause} {cls : Cls} {own : List Claim} (h : raisedSet c cls own = none) :
    ∃ k ∈ own, k.cause = c ∧ clsRank cls ≤ clsRank k.cls := by
  unfold raisedSet at h
  split at h
  · cases h
  · rename_i k hf
    split at h
    · cases h
    · rename_i hr
      exact ⟨k, List.mem_of_find?_eq_some hf, by simpa using List.find?_some hf, by omega⟩

/-- A claim set changed and handed over changes the class, the claim and the STOP frame, and nothing else. -/
theorem changeOwn_changes (raised : Bool) (c : Cause) (own : List Claim) (s : State) :
    ChangesOnly [.lc, .su] s (changeOwn raised c own s) ∧
      (changeOwn raised c own s).su.effective = formEffective { s.su with own := own } ∧
      (changeOwn raised c own s).su.driveLatch = s.su.driveLatch ∧
      (changeOwn raised c own s).su.lineOpen = s.su.lineOpen ∧
      (changeOwn raised c own s).su.entries = s.su.entries := by
  refine ⟨⟨fun b hb => by cases b <;> first | (simp [sameBlock]; done) | simp_all, by simp⟩, ?_, ?_, ?_, ?_⟩ <;>
    simp [changeOwn, handStop, formClass]

/-- A raise above the class is a rise of the class. -/
theorem raiseKey_rises {c : Cause} {cls : Cls} {s : State} (hi : ClaimsInv s)
    (hlt : clsRank s.su.effective < clsRank cls)
    (hc : c ≠ .peerMismatch ∨ ¬ endsOnRise cls s) : ClassRises cls s.pu.t s (raiseKey c cls s) := by
  have hle := (formEffective_le (clsRank s.su.effective) s.su).mp (by rw [hi.effective])
  unfold raiseKey
  split
  · rename_i h
    obtain ⟨k, hk, -, hr⟩ := raisedSet_none h
    have := hle.1 k hk
    omega
  · rename_i own h
    obtain ⟨m1, m2, -⟩ := raisedSet_claims h hi.keys
    obtain ⟨⟨hb, -⟩, he, hl, hlo, hen⟩ := changeOwn_changes true c own s
    have hform : ∀ own' : List Claim, { cause := c, cls := cls } ∈ own' → (∀ k ∈ own', k ∈ own) →
        formEffective { s.su with own := own' } = cls := by
      intro own' g1 g2
      apply clsRank_inj
      apply Nat.le_antisymm
      · rw [formEffective_le]
        refine ⟨fun k hk => ?_, ?_, ?_⟩
        · rcases m2 k (g2 k hk) with rfl | h
          · exact Nat.le_refl _
          · exact Nat.le_of_lt (Nat.lt_of_le_of_lt (hle.1 k h) hlt)
        · exact Nat.le_of_lt (Nat.lt_of_le_of_lt hle.2.1 hlt)
        · exact Nat.le_of_lt (Nat.lt_of_le_of_lt hle.2.2 hlt)
      · exact ((formEffective_le _ { s.su with own := own' }).mp (Nat.le_refl _)).1 _ g1
    have hcls : (changeOwn true c own s).su.effective = cls := by rw [he]; exact hform own m1 fun k h => h
    have hne : (changeOwn true c own s).su.effective ≠ s.su.effective := by
      rw [hcls]; intro h; rw [h] at hlt; omega
    dsimp only
    rw [if_neg hne]
    have hown : (changeOwn true c own s).su.own = own := by simp
    have hpu : (changeOwn true c own s).pu = s.pu := hb .pu (by simp)
    rw [hpu]
    refine classFormed_rises (hb .ax (by simp)) (hb .tc (by simp)) (hb .fd (by simp)) hpu (hb .ts (by simp))
      (hb .cl (by simp)) hl hcls hlt fun he => ?_
    have := hform (own.filter fun k => k.cause != .peerMismatch)
      (List.mem_filter.mpr ⟨m1, by simpa using hc.resolve_right fun h => h he⟩) fun k hk => List.mem_of_mem_filter hk
    rw [← this]
    simp only [formEffective, ownClass, tableClass, hlo, hen, hown]

/-- A raise within the class leaves it as it is, and changes the claim set alone. -/
theorem raiseKey_stays {c : Cause} {cls : Cls} {s : State} (hi : ClaimsInv s)
    (hge : clsRank cls ≤ clsRank s.su.effective) :
    ChangesOnly [.lc, .pu, .su] s (raiseKey c cls s) ∧ (raiseKey c cls s).su.effective = s.su.effective ∧
      (raiseKey c cls s).su.driveLatch = s.su.driveLatch ∧
      ∃ a n, (raiseKey c cls s).pu = { s.pu with announced := a, paceTimer := n } := by
  unfold raiseKey
  split
  · exact ⟨ChangesOnly.refl _ _, rfl, rfl, _, _, rfl⟩
  · rename_i own h
    obtain ⟨m1, m2, m3⟩ := raisedSet_claims h hi.keys
    obtain ⟨hb, he, hl, hlo, hen⟩ := changeOwn_changes true c own s
    have hup := (formEffective_le (clsRank (formEffective s.su)) s.su).mp (Nat.le_refl _)
    have hup' := (formEffective_le (clsRank (formEffective { s.su with own := own }))
      { s.su with own := own }).mp (Nat.le_refl _)
    have heq : formEffective { s.su with own := own } = s.su.effective := by
      rw [hi.effective] at hge ⊢
      apply clsRank_inj
      apply Nat.le_antisymm
      · rw [formEffective_le]
        refine ⟨fun k hk => ?_, hup.2.1, hup.2.2⟩
        rcases m2 k hk with rfl | h
        · exact hge
        · exact hup.1 k h
      · rw [formEffective_le]
        refine ⟨fun k hk => ?_, hup'.2.1, hup'.2.2⟩
        obtain ⟨j, hj, hr⟩ := m3 k hk
        exact Nat.le_trans hr (hup'.1 j hj)
    dsimp only
    rw [if_pos (by rw [he, heq])]
    obtain ⟨ha, a, n, hpu⟩ := announce_changes (changeOwn true c own s)
    have hsu : (announce (changeOwn true c own s)).su = (changeOwn true c own s).su := ha.1 .su (by simp)
    have hp : (changeOwn true c own s).pu = s.pu := hb.1 .pu (by simp)
    refine ⟨(hb.mono (by simp +contextual)).trans (ha.mono (by simp +contextual)), by rw [hsu, he, heq],
      by rw [hsu, hl], a, n, by rw [hpu, hp]⟩

/-- What a raise by the node itself does. -/
theorem raiseKey_acts {c : Cause} {cls : Cls} {s : State} (hc : c ≠ .peerMismatch) :
    OwnClaimActs cls s (raiseKey c cls s) := by
  intro hi
  refine ⟨fun hlt => raiseKey_rises hi hlt (Or.inl hc), fun hge => ?_⟩
  obtain ⟨⟨hb, -⟩, he, hl, a, n, hpu⟩ := raiseKey_stays (c := c) hi hge
  have hax : (raiseKey c cls s).ax = s.ax := hb .ax (by simp)
  refine ⟨⟨he, hl, hb .tc (by simp), hb .fd (by simp), ?_⟩, fun i => by simp [axisCh, hax]⟩
  simp [hpu]

end Sys2Proof.Machine
end

