-- ==== Sys2Proof/Laws/Store.lean ====
section
/-! SUPPORT. The keyframe pool: what a write does to later reads, and that every operation of the take store
keeps the pool in its canonical form. -/

namespace Sys2Proof.Machine

/-! ### Reads and writes of the pool (R81) -/

/-- In a canonical pool an address below every listed one reads as the keyframe of zeros. -/
theorem poolRead_of_lt {m : Pool} {a : Nat} (h : ∀ e ∈ m, a < e.1) : poolRead m a = Keyframe.zero := by
  induction m with
  | nil => rfl
  | cons e m ih =>
    have h1 := h e (by simp)
    simp only [poolRead]
    rw [if_neg (by omega)]
    exact ih fun x hx => h x (by simp [hx])

/-- In a canonical pool the listed addresses of the tail lie above the head's. -/
theorem Pool.wf_cons {e : Nat × Keyframe} {m : Pool} :
    Pool.wf (e :: m) ↔ (∀ x ∈ m, e.1 < x.1) ∧ e.2 ≠ Keyframe.zero ∧ Pool.wf m := by
  simp only [Pool.wf, List.map_cons, List.pairwise_cons, List.forall_mem_cons, List.mem_map,
    forall_exists_index, and_imp, forall_apply_eq_imp_iff₂]
  tauto

/-- The addresses listed after a write are the written one and those listed before. -/
theorem mem_poolWrite {m : Pool} {a : Nat} {k : Keyframe} {x : Nat × Keyframe}
    (h : x ∈ poolWrite m a k) : x.1 = a ∨ x ∈ m := by
  induction m with
  | nil =>
    simp only [poolWrite] at h
    split at h <;> simp_all
  | cons e m ih =>
    obtain ⟨b, k'⟩ := e
    simp only [poolWrite] at h
    split at h
    · split at h
      · exact .inr h
      · rcases List.mem_cons.mp h with rfl | h
        · exact .inl rfl
        · exact .inr h
    · split at h
      · split at h
        · exact .inr (List.mem_cons_of_mem _ h)
        · rcases List.mem_cons.mp h with rfl | h
          · exact .inl rfl
          · exact .inr (List.mem_cons_of_mem _ h)
      · simp only [List.mem_cons] at h ⊢
        rcases h with h | h
        · exact .inr (.inl h)
        · rcases ih h with h | h
          · exact .inl h
          · exact .inr (.inr h)

/-- A write keeps the canonical form. -/
theorem poolWrite_wf {m : Pool} (h : Pool.wf m) (a : Nat) (k : Keyframe) : Pool.wf (poolWrite m a k) := by
  induction m with
  | nil =>
    simp only [poolWrite]
    split
    · exact h
    · exact ⟨by simp, by simpa using ‹_›⟩
  | cons e m ih =>
    obtain ⟨b, k'⟩ := e
    have hc := Pool.wf_cons.mp h
    simp only [poolWrite]
    split
    · split
      · exact h
      · refine Pool.wf_cons.mpr ⟨?_, ‹_›, h⟩
        intro x hx
        rcases List.mem_cons.mp hx with rfl | hx
        · assumption
        · have := hc.1 x hx
          dsimp only at this ⊢
          omega
    · split
      · subst a
        split
        · exact hc.2.2
        · exact Pool.wf_cons.mpr ⟨hc.1, ‹_›, hc.2.2⟩
      · refine Pool.wf_cons.mpr ⟨?_, hc.2.1, ih hc.2.2⟩
        intro x hx
        rcases mem_poolWrite hx with hx | hx
        · dsimp only
          omega
        · exact hc.1 x hx

/-- A read after a write gives the keyframe written at its address, and the old one at every other. -/
theorem poolRead_poolWrite {m : Pool} (h : Pool.wf m) (a b : Nat) (k : Keyframe) :
    poolRead (poolWrite m a k) b = if b = a then k else poolRead m b := by
  induction m with
  | nil =>
    by_cases hk : k = Keyframe.zero <;> by_cases hb : b = a <;> simp [poolWrite, poolRead, hk, hb]
  | cons e m ih =>
    obtain ⟨c, k'⟩ := e
    have hc := Pool.wf_cons.mp h
    have low : ∀ x, x ≤ c → poolRead m x = Keyframe.zero := fun x hx =>
      poolRead_of_lt fun e he => by
        have := hc.1 e he
        dsimp only at this
        omega
    simp only [poolWrite]
    split
    · next hlt =>
      split
      · next hk =>
        by_cases hb : b = a
        · subst hb
          simp [poolRead, hk, show b ≠ c by omega, low b (by omega)]
        · simp [hb]
      · by_cases hb : b = a <;> simp [poolRead, hb]
    · split
      · subst a
        split
        · next hk =>
          by_cases hb : b = c
          · subst hb
            simp [hk, low b le_rfl]
          · simp [poolRead, hb]
        · by_cases hb : b = c <;> simp [poolRead, hb]
      · next hne =>
        simp only [poolRead, ih hc.2.2]
        by_cases hb : b = c
        · subst hb
          simp [show b ≠ a from fun e => hne e.symm]
        · simp [hb]

/-! ### Every operation of the store keeps the canonical form -/

/-- The pool of a store is canonical. -/
abbrev TakeStore.poolWf (ts : TakeStore) : Prop := Pool.wf ts.pool

/-- The pool of the reset state is canonical. -/
theorem reset_poolWf : State.reset.ts.poolWf := ⟨by decide, by decide⟩

@[simp] theorem setEntry_pool (slot : Slot) (e : TakeEntry) (ts : TakeStore) :
    (setEntry slot e ts).pool = ts.pool := rfl

theorem writeKeyframe_poolWf {ts : TakeStore} (h : ts.poolWf) (slot : Slot) (k : Nat) (kf : Keyframe) :
    (writeKeyframe slot k kf ts).poolWf := by
  unfold writeKeyframe
  split
  · exact h
  · exact poolWrite_wf h _ _

@[simp] theorem writeKeyframe_dir (slot : Slot) (k : Nat) (kf : Keyframe) (ts : TakeStore) :
    (writeKeyframe slot k kf ts).dir = ts.dir := by
  unfold writeKeyframe
  split <;> rfl

theorem allocateBlock_pool {slot : Slot} {ts t : TakeStore} (h : allocateBlock slot ts = some t) :
    t.pool = ts.pool := by
  unfold allocateBlock at h
  split at h
  · cases h
  · cases h; rfl

theorem allocateBlocks_pool (slot : Slot) (n : Nat) (ts : TakeStore) :
    (allocateBlocks slot n ts).pool = ts.pool := by
  induction n generalizing ts with
  | zero => rfl
  | succ n ih =>
    rw [allocateBlocks, ih]
    cases h : allocateBlock slot ts with
    | none => rfl
    | some t => exact allocateBlock_pool h

@[simp] theorem emptyEntry_pool (slot : Slot) (ts : TakeStore) : (emptyEntry slot ts).pool = ts.pool := rfl

@[simp] theorem cutKeyframes_pool (slot : Slot) (last : Nat) (ts : TakeStore) :
    (cutKeyframes slot last ts).pool = ts.pool := rfl

theorem setVelocities_poolWf {ts : TakeStore} (h : ts.poolWf) (n : Nat) (slot : Slot) (k : Nat)
    (vel : Axis → Int) : (setVelocities n slot k vel ts).poolWf :=
  writeKeyframe_poolWf h slot k _

theorem giveCentral_poolWf {ts : TakeStore} (h : ts.poolWf) (n : Nat) (slot : Slot) (k : Nat) :
    (giveCentral n slot k ts).poolWf := setVelocities_poolWf h n slot k _

theorem giveEnd_poolWf {ts : TakeStore} (h : ts.poolWf) (n : Nat) (slot : Slot) (k : Nat) :
    (giveEnd n slot k ts).poolWf := by
  unfold giveEnd
  split
  · exact h
  · exact setVelocities_poolWf h n slot k _

theorem recordSample_poolWf {ts : TakeStore} (h : ts.poolWf) (n : Nat) (slot : Slot) (x : RecorderSample) :
    (recordSample n slot x ts).poolWf := by
  have hw := writeKeyframe_poolWf h slot x.index (poseKeyframe x.pose)
  unfold recordSample
  split
  · exact giveCentral_poolWf hw n slot _
  · exact hw

theorem flushSamples_poolWf {ts : TakeStore} (h : ts.poolWf) (n : Nat) (slot : Slot) :
    (flushSamples n slot ts).poolWf := by
  have hf : ∀ (l : List RecorderSample) (t : TakeStore), t.poolWf →
      (l.foldl (fun t x => recordSample n slot x t) t).poolWf := by
    intro l
    induction l with
    | nil => exact fun t ht => ht
    | cons x l ih => exact fun t ht => ih _ (recordSample_poolWf ht n slot x)
  exact hf ts.waiting ts h

theorem sampleKeyframe_pool {slot : Slot} {pose : Table Int 3} {ts t : TakeStore}
    (h : sampleKeyframe slot pose ts = some t) : t.pool = ts.pool := by
  simp only [sampleKeyframe] at h
  obtain ⟨r, hr, rfl⟩ := Option.map_eq_some_iff.mp h
  split at hr
  · split at hr
    · cases hr
    · have hp := allocateBlock_pool hr
      exact hp
  · cases hr; rfl

theorem closeRecording_poolWf {ts : TakeStore} (h : ts.poolWf) (n : Nat) (slot : Slot) (c : EndCause) :
    (closeRecording n slot c ts).poolWf :=
  giveEnd_poolWf (flushSamples_poolWf h n slot) n slot _

theorem taintRecording_poolWf {ts : TakeStore} (h : ts.poolWf) (n span : Nat) (slot : Slot)
    (trip : TakeTime) : (taintRecording n span slot trip ts).poolWf :=
  giveEnd_poolWf (ts := cutKeyframes slot _ (flushSamples n slot ts)) (flushSamples_poolWf h n slot) n slot _

end Sys2Proof.Machine
end

