-- ==== Sys2Proof/Laws/Words.lean ====
section
/-! SUPPORT. The packed indices of a CUE-POINTS are read back from their words (R188), and a frame from its bits
on the line (R1, R2). -/

namespace Sys2Proof.Machine

@[simp] theorem joinDigits_nil (w : Nat) : joinDigits w [] = 0 := rfl

theorem joinDigits_snoc (w : Nat) (ds : List Nat) (d : Nat) :
    joinDigits w (ds ++ [d]) = joinDigits w ds * 2 ^ w + d := by
  simp [joinDigits]

@[simp] theorem splitDigits_length (w n v : Nat) : (splitDigits w n v).length = n := by
  simp [splitDigits]

/-- The last group is the remainder, and the groups before it are those of the quotient. -/
theorem splitDigits_succ (w n v : Nat) :
    splitDigits w (n + 1) v = splitDigits w n (v / 2 ^ w) ++ [v % 2 ^ w] := by
  rw [splitDigits, List.range_succ, List.map_append]
  congr 1
  · refine List.map_congr_left fun k hk => ?_
    have hk : k < n := List.mem_range.mp hk
    rw [Nat.div_div_eq_div_mul, ← Nat.pow_add, show w * (n + 1 - 1 - k) = w + w * (n - 1 - k) by
      rw [show n + 1 - 1 - k = (n - 1 - k) + 1 by omega, Nat.mul_add, Nat.mul_one, Nat.add_comm]]
  · simp

/-- The groups that were joined are read back. -/
theorem splitDigits_joinDigits {w : Nat} {ds : List Nat} (h : ∀ d ∈ ds, d < 2 ^ w) :
    splitDigits w ds.length (joinDigits w ds) = ds := by
  induction ds using List.reverseRecOn with
  | nil => rfl
  | append_singleton ds d ih =>
    have hd : d < 2 ^ w := h d (by simp)
    have hp : 0 < 2 ^ w := Nat.pos_of_ne_zero (by simp)
    rw [List.length_append, List.length_singleton, splitDigits_succ, joinDigits_snoc, Nat.add_comm,
      Nat.add_mul_div_right _ _ hp, Nat.div_eq_of_lt hd, Nat.zero_add, Nat.add_mul_mod_self_right,
      Nat.mod_eq_of_lt hd, ih fun e he => h e (List.mem_append_left _ he)]

/-- The groups of a number that they hold whole join to it. -/
theorem joinDigits_splitDigits {w n v : Nat} (h : v < 2 ^ (w * n)) : joinDigits w (splitDigits w n v) = v := by
  induction n generalizing v with
  | zero => simp only [Nat.mul_zero, Nat.pow_zero, Nat.lt_one_iff] at h; subst h; rfl
  | succ n ih =>
    rw [splitDigits_succ, joinDigits_snoc, ih, Nat.div_add_mod']
    exact Nat.div_lt_of_lt_mul (by rw [← Nat.pow_add, Nat.add_comm, ← Nat.mul_add_one]; exact h)

/-- Groups of w bits join to a number of w bits for each. -/
theorem joinDigits_lt {w : Nat} {ds : List Nat} (h : ∀ d ∈ ds, d < 2 ^ w) :
    joinDigits w ds < 2 ^ (w * ds.length) := by
  induction ds using List.reverseRecOn with
  | nil => simp
  | append_singleton ds d ih =>
    have hd : d < 2 ^ w := h d (by simp)
    have hi := ih fun e he => h e (List.mem_append_left _ he)
    rw [joinDigits_snoc, List.length_append, List.length_singleton, Nat.mul_add, Nat.mul_one, Nat.pow_add]
    calc joinDigits w ds * 2 ^ w + d < joinDigits w ds * 2 ^ w + 2 ^ w := by omega
      _ = (joinDigits w ds + 1) * 2 ^ w := by rw [Nat.add_mul, Nat.one_mul]
      _ ≤ 2 ^ (w * ds.length) * 2 ^ w := Nat.mul_le_mul_right _ hi

/-- Every group is a number of w bits. -/
theorem splitDigits_lt {w n v d : Nat} (h : d ∈ splitDigits w n v) : d < 2 ^ w := by
  obtain ⟨k, -, rfl⟩ := List.mem_map.mp h
  exact Nat.mod_lt _ (Nat.pos_of_ne_zero (by simp))

/-- The indices of a CUE-POINTS are read back from the words that pack them. -/
theorem unpackIndices_packIndices {ps : List Nat} (h : ∀ p ∈ ps, p < 8192) :
    unpackIndices ps.length (packIndices ps) = ps := by
  have hd : ∀ d ∈ ps, d < 2 ^ 13 := h
  have hw : (packIndices ps).map BitVec.toNat =
      splitDigits 16 (indexWords ps.length) (joinDigits 13 ps * 2 ^ indexPadding ps.length) := by
    rw [packIndices, List.map_map, List.map_congr_left (g := id), List.map_id]
    intro d hm
    simpa using Nat.mod_eq_of_lt (splitDigits_lt hm)
  have hf : 13 * ps.length + indexPadding ps.length = 16 * indexWords ps.length := by
    have : 13 * ps.length ≤ 16 * indexWords ps.length := by
      unfold indexWords ceilDiv
      omega
    unfold indexPadding
    omega
  have hl : joinDigits 13 ps * 2 ^ indexPadding ps.length < 2 ^ (16 * indexWords ps.length) := by
    rw [← hf, Nat.pow_add]
    exact Nat.mul_lt_mul_of_pos_right (joinDigits_lt hd) (Nat.pos_of_ne_zero (by simp))
  rw [unpackIndices, hw, joinDigits_splitDigits hl,
    Nat.mul_div_cancel _ (Nat.pos_of_ne_zero (by simp)), splitDigits_joinDigits hd]

/-! ### Frames as bits (R1, R2) -/

/-- The lowest m bits of a number, the most significant first, read after a number a. -/
theorem foldl_testBits (v m a : Nat) :
    ((List.range m).reverse.map v.testBit).foldl (fun n b => 2 * n + b.toNat) a = a * 2 ^ m + v % 2 ^ m := by
  induction m generalizing a with
  | zero => simp [Nat.mod_one]
  | succ m ih =>
    rw [List.range_succ, List.reverse_append, List.reverse_singleton, List.singleton_append, List.map_cons,
      List.foldl_cons, ih, Nat.mod_pow_succ, Nat.toNat_testBit]
    ring

/-- A word is read back from its bits. -/
theorem bitsWord_wordBits (w : Word16) : bitsWord (wordBits w) = w := by
  rw [show wordBits w = (List.range 16).reverse.map w.toNat.testBit from rfl, bitsWord, foldl_testBits]
  simp [BitVec.ofNat_toNat, Nat.mod_eq_of_lt w.isLt]

/-- A word is 16 bits. -/
@[simp] theorem wordBits_length (w : Word16) : (wordBits w).length = 16 := by simp [wordBits]

/-- A receiver that stands in the same run as the sender removes what the sender inserts. -/
theorem unstuffFrom_stuffFrom (bits : List Bool) (last : Bool) (run : Nat) (h : run < 5) :
    unstuffFrom last run (stuffFrom last run bits) = .bits bits := by
  induction bits generalizing last run with
  | nil => rfl
  | cons b rest ih =>
    have hr : run ≠ 5 := by omega
    by_cases h5 : runAfter last run b = 5
    · simp [stuffFrom, unstuffFrom, h5, hr, ih (!b) 1 (by omega), LineRead.cons]
    · have hb : runAfter last run b < 5 := by
        unfold runAfter at h5 ⊢
        split at h5 <;> rename_i hl <;> simp only [hl, if_true, if_false] <;> omega
      simp [stuffFrom, unstuffFrom, h5, hr, ih b _ hb, LineRead.cons]

/-- What a sender drives is read back without its stuff bits. -/
theorem unstuff_stuff (bits : List Bool) : unstuff (stuff bits) = .bits bits :=
  unstuffFrom_stuffFrom bits false 0 (by omega)

/-- The 16 bits of word k among the bits of words. -/
theorem flatMap_wordBits (ws : List Word16) (k : Nat) (h : k < ws.length) :
    ((ws.flatMap wordBits).drop (16 * k)).take 16 = wordBits ws[k] := by
  induction ws generalizing k with
  | nil => simp at h
  | cons w ws ih =>
    cases k with
    | zero => simp
    | succ k =>
      have hd : (wordBits w ++ ws.flatMap wordBits).drop (16 * (k + 1)) =
          (ws.flatMap wordBits).drop (16 * k) := by
        rw [List.drop_append]
        simp [show 16 * (k + 1) - 16 = 16 * k by omega, show 16 ≤ 16 * (k + 1) by omega]
      simp only [List.flatMap_cons, hd, List.getElem_cons_succ]
      exact ih k (by simpa using h)

/-- Word k of a frame's bits: the header, then the payload, then the CRC. -/
theorem wordAt_frameBits (header crc : BitVec 16) (words : List Word16) (k : Nat) (w : Word16)
    (h : (header :: words ++ [crc])[k]? = some w) : wordAt (frameBits header words crc) k = w := by
  obtain ⟨hk, rfl⟩ := List.getElem?_eq_some_iff.mp h
  have hd : (frameBits header words crc).drop (1 + 16 * k) =
      ((header :: words ++ [crc]).flatMap wordBits).drop (16 * k) := by
    rw [Nat.add_comm]; rfl
  rw [wordAt, hd, flatMap_wordBits _ k hk, bitsWord_wordBits]

/-- How many bits a frame has. -/
theorem frameBits_length (header crc : BitVec 16) (words : List Word16) :
    (frameBits header words crc).length = 1 + 16 * (words.length + 2) := by
  have h : ∀ l : List Word16, (l.flatMap wordBits).length = 16 * l.length := by
    intro l; induction l with
    | nil => rfl
    | cons w l ih => simp [ih]; omega
  simp only [frameBits, List.length_cons, h, List.length_append, List.length_nil]
  omega

/-- A receiver reads back the header, the payload and the CRC that a sender drives, in a frame that is whole. -/
theorem sentLine_reads (header : BitVec 16) (words : List Word16) (fields : Payload)
    (h : words.length = (headerLen header).toNat) :
    let f : LineFrame := { line := sentLine header words, fields := fields }
    f.header = header ∧ f.words = words ∧ f.crc = frameCrc header words ∧ f.whole = true := by
  intro f
  have hb : f.bits = frameBits header words (frameCrc header words) := by
    simp [LineFrame.bits, f, sentLine, unstuff_stuff]
  have hh : f.header = header := by
    rw [LineFrame.header, hb]; exact wordAt_frameBits _ _ _ 0 _ (by simp)
  refine ⟨hh, ?_, ?_, ?_⟩
  · rw [LineFrame.words, hh, hb, ← h]
    apply List.ext_getElem (by simp)
    intro i h1 h2
    simp only [List.getElem_map, List.getElem_range]
    exact wordAt_frameBits _ _ _ _ _ (by simp [List.getElem?_append, h2])
  · rw [LineFrame.crc, hh, hb, ← h]
    exact wordAt_frameBits _ _ _ _ _ (by simp)
  · simp only [LineFrame.whole, hh, hb, frameBits_length, h]
    simp [frameBits]

end Sys2Proof.Machine
end

