-- ==== Sys2Proof/Tests/Slice0.lean ====
section
/-! SUPPORT. Tests: the checks of WellFormed refuse ill-formed operands; the worked cases of the spec come
out as it works them; and, for every statement with hypotheses, a state and operands that meet them, clause by
clause, at the edges of their ranges. -/

namespace Sys2Proof.Tests

open Sys2Proof Sys2Proof.Machine

/-! ### A small node: an arm axis, a focus axis, two zones, one stored take -/

/-- The arm axis of worked case C: 60,000 counts/s, 200,000 and 400,000 counts/s², between -50,000 and
200,000. -/
def arm : AxisConfig :=
  deriveAxis { AxisConfig.unused with
    kind := .arm, feCount := 3, lossLimit := 2, smin := -50000, smax := 200000, vmax := 60000, amax := 200000,
    ahalt := 400000, followLimit := 400, arrivalWindow := 8, closureWindow := 40 } 1

/-- The focus map of the worked conversions of chapter 5. -/
def focusMap : LensMap := [⟨1000, 2000⟩, ⟨2000, 5200⟩, ⟨4000, 7400⟩]

/-- A focus axis with that map. -/
def focus : AxisConfig := { arm with kind := .focus, smin := 0, smax := 20000, defaultMap := focusMap }

/-- Input 0 is LEVEL with a filter of 3, input 1 is EDGE. -/
def inputs : Table InputConfig 8 :=
  ((Table.fill 8 InputConfig.unused).set 0 { mode := .level, activeHigh := true, filterLength := 3 }).set 1
    { mode := .edge, activeHigh := true, filterLength := 1 }

/-- Zone 0 scales to 512 on input 0, zone 1 halts on input 1 and latches. -/
def zones : Table ZoneConfig 8 :=
  ((Table.fill 8 ZoneConfig.unused).set 0
    { mask := 1, action := .scale, ceiling := 512, ackLatch := false, armedAtReset := true }).set 1
    { mask := 2, action := .halt, ceiling := 1024, ackLatch := true, armedAtReset := true }

/-- The node's configuration. -/
def config : NodeConfig :=
  { NodeConfig.unconfigured with
    valid := true, axisCount := 2, inputs := inputs, zones := zones,
    axes := ⟨[arm, focus, AxisConfig.unused], rfl⟩ }

/-- A keyframe of the two axes. -/
def frameAt (p0 v0 p1 v1 : Int) : Keyframe := ⟨[⟨p0, v0⟩, ⟨p1, v1⟩, ⟨0, 0⟩], rfl⟩

/-- The stored take 1: five keyframes of 40 ms for stations 2 and 3, with a cue point at 2. -/
def take1 : TakeEntry :=
  { TakeEntry.empty with
    state := .stored, stamp := 0xABCD, mask := 0x000C, interval := 40, blocks := [0], count := 5, cues := [2],
    signature := 18, endCause := some .wrap }

/-- A take store with take 1. -/
def store : TakeStore :=
  { TakeStore.reset with
    dir := TakeStore.reset.dir.set 0 take1,
    pool := [(0, frameAt 10000 0 2000 0), (1, frameAt 10800 20000 2100 0), (2, frameAt 11600 20000 2200 0),
             (3, frameAt 12400 20000 2300 0), (4, frameAt 13200 20000 2400 0)],
    free := (List.range 64).drop 1 }

/-- A peer that was heard of. -/
def livePeer : PeerEntry := { PeerEntry.reset with liveness := .live, silence := some 25, ready := true }

/-- A channel at rest at a count. -/
def restAt (p : Int) : AxisChannel :=
  { AxisChannel.disabled with state := .rest, p8 := 256 * p, lastValid := p, output := p }

/-- The node in IDLE, with its drives enabled, as station 2 beside station 3. -/
def idle : State :=
  { State.reset with
    cl := { station := 2, cfg := config, pinLow := false },
    tc := { TakeController.reset with mode := .idle },
    pt := { entries := (PeerTable.reset.entries.set 2 livePeer).set 3 livePeer, stateTimer := some 8 },
    ax := { AxisBlock.reset with ch := ⟨[restAt 10000, restAt 5200, AxisChannel.disabled], rfl⟩ },
    lmu := LensTable,
    ts := store,
    gu := { GuardUnit.reset with
      zones := ((GuardUnit.reset.zones.set 0 { ZoneRecord.reset with armed := true }).set 1
        { ZoneRecord.reset with armed := true }) },
    su := { StopUnit.reset with driveLatch := true } }
where
  /-- The focus axis's map is active. -/
  LensTable : Table LensChannel 3 :=
    ⟨[LensChannel.empty, { LensChannel.empty with active := focusMap, heldKind := some .focus },
      LensChannel.empty], rfl⟩

/-- The play context of a CUE of take 1. -/
def playContext : PlayContext := cueContext 0 .once 0 take1

/-- The node in a mode with a play context. -/
def inMode (m : Mode) (c : PlayContext) (s : State) : State :=
  s.setTc { s.tc with mode := m, ctx := some c }

/-- A segment of take 1 as the feeder queues it. -/
def entryA : QueueEntry :=
  { t0 := 0, dur := 40, zeroStart := true, zeroEnd := false,
    spans := ⟨[⟨10000, 10800, 0, 20000⟩, ⟨2000, 2100, 0, 0⟩, ⟨0, 0, 0, 0⟩], rfl⟩, source := 0, stop := 1,
    seq := 7, stack := [], loopEnd := false, sectionEnd := .none, final := false }

/-- The next one. -/
def entryB : QueueEntry := { entryA with t0 := 40960, source := 1, stop := 2, seq := 8 }

/-- The node playing, with two segments queued and no rate. -/
def playing : State :=
  let s := inMode .playing { playContext with roll := some 9 } idle
  { s with
    fd := { Feeder.reset with
      queue := [entryA, entryB], nextSeq := 9, startSeq := 7,
      cursor := { arrival := 2, source := 2, t0 := 81920, atRest := false, pose := none } },
    pu := { s.pu with alignTimer := some 100, paceTimer := some 4 } }

/-- The node rolling, with its window open and both stations wanted. -/
def rolling (m : RollMode) : State :=
  let s := inMode .rolling playContext idle
  s.setTc { s.tc with roll := { RollRecord.reset with number := 9, mode := some m, window := some 31000 } }

/-- An armed slot 1, empty. -/
def armedEntry : TakeEntry :=
  { TakeEntry.empty with state := .armed, stamp := 0x1234, mask := 0x000C, interval := 40, blocks := [1] }

/-- The node armed for take 2. -/
def armed : State :=
  inMode .armed (armContext 1 0x1234 0x000C)
    (idle.setTs { store with dir := store.dir.set 1 armedEntry, free := (List.range 64).drop 2 })

/-- The node recording take 2, with some keyframes sampled. -/
def recording (count : Nat) : State :=
  let s := inMode .recording (armContext 1 0x1234 0x000C)
    (armed.setTs { armed.ts with dir := armed.ts.dir.set 1 { armedEntry with state := .recording, count := count } })
  s.setPu { s.pu with r := 1024 }

/-- Axis i of a state, changed. -/
def withAxis (i : Axis) (f : AxisChannel → AxisChannel) (s : State) : State :=
  s.setAx { s.ax with ch := s.ax.ch.set i (f (axisCh s i)) }

/-- The entry of station n, changed. -/
def withPeer (n : Station) (f : PeerEntry → PeerEntry) (s : State) : State :=
  s.setPt { s.pt with entries := s.pt.entries.set n (f (peer s n)) }

/-- A claim of the node, with the class it makes. -/
def claimed (cause : Cause) (cls : Cls) (s : State) : State :=
  s.setSu { s.su with own := [{ cause := cause, cls := cls }], effective := cls }

/-! ### A frame that is taken -/

/-- When and at what take time its start bit came. -/
def mark0 : StartMark := { instant := 1000, time := 0 }

/-- A frame of station 3 in the receive queue. -/
def entry0 (p : Payload) : RxEntry := { sender := 3, payload := p, mark := mark0, own := false, serial := 0 }

/-- The node with only that frame in its receive queue. -/
def offer (p : Payload) (s : State) : State := s.setLc { s.lc with rxq := [entry0 p] }

/-- The node with an empty receive queue. -/
def taken (s : State) : State := s.setLc { s.lc with rxq := [] }

/-- The node with a command of station 3 to it in its receive queue. -/
def ordered (b : CommandBody) (s : State) : State := offer (.command 2 7 b) s

/-- That command. -/
def cmd (b : CommandBody) : Command := { sender := 3, target := 2, tag := 7, kind := b.kind }

theorem take_offer {want : Payload → Bool} {p : Payload} {s : State} (hw : want p = true)
    (ho : (running s && offerable (offer p s) [] [] (entry0 p)) = true) :
    takeOffer want (offer p s) = some (entry0 p, taken s) := by
  rw [Bool.and_eq_true] at ho
  have hr : running (offer p s) = true := ho.1
  have hf : findOffer (offer p s) want [] (offer p s).lc.rxq = some (entry0 p, []) := by
    show findOffer (offer p s) want [] [entry0 p] = _
    simp only [findOffer, ho.2, Bool.and_true]
    exact if_pos hw
  simp only [takeOffer, hr, hf, if_true, Option.map_some]
  rfl

theorem takenFrame_offer {p : Payload} {s : State}
    (ho : (running s && offerable (offer p s) [] [] (entry0 p)) = true) :
    TakenFrame p.kind (offer p s) (entry0 p) (taken s) :=
  take_offer (by simp) ho

theorem commandOf_ordered {α : Type} {pick : CommandBody → Option α} {b : CommandBody} {x : α}
    (hp : pick b = some x) : commandOf pick (entry0 (.command 2 7 b)) = some (cmd b, x) := by
  simp [commandOf, entry0, hp, cmd]

theorem take_ordered {α : Type} {pick : CommandBody → Option α} {b : CommandBody} {x : α} {s : State}
    (hp : pick b = some x)
    (ho : (running s && offerable (ordered b s) [] [] (entry0 (.command 2 7 b))) = true) :
    takeOffer (picksCommand pick) (ordered b s) = some (entry0 (.command 2 7 b), taken s) :=
  take_offer (by simp [picksCommand, hp]) ho

theorem delivered {α : Type} {pick : CommandBody → Option α} {b : CommandBody} {x : α} {s : State}
    (hp : pick b = some x)
    (ho : (running s && offerable (ordered b s) [] [] (entry0 (.command 2 7 b)) &&
      (commandRefusal (taken s) (cmd b)).isNone) = true) :
    Delivered pick (ordered b s) (cmd b) x (taken s) := by
  rw [Bool.and_eq_true] at ho
  exact ⟨⟨_, take_ordered hp ho.1, commandOf_ordered hp⟩, Option.isNone_iff_eq_none.mp ho.2⟩

/-! ### Witnesses: the line -/

/-- A frame in the transmit queue. -/
def tx (p : Payload) (onLine : Bool) : TxFrame := { payload := p, onLine := onLine }

/-- The node with a transmit queue. -/
def withTx (q : List TxFrame) (s : State) : State := s.setLc { s.lc with txq := q }

/-- A frame of class 0 that the node sends. -/
def stopFrame : Payload :=
  .stopClaim { summary := 2, effective := 2, timeFlag := false, cause := 1, param := 1, causeMask := 2, time := 0 }

/-- A PACE frame. -/
def paceFrame : Payload := .pace { time := 5, rate := 1024, ceiling := 2000 }

theorem test_witness_StepRunsFrontCommand :
    { State.reset with pending := [.powerOnReset, .wrap] }.pending = .powerOnReset :: [.wrap] := rfl

theorem test_witness_TransmitQueueTakesFrames :
    (idle.setLc { idle.lc with link := .fault }).lc.link = .fault ∧
    (let s := withTx [tx stopFrame true, tx paceFrame false] idle
     s.lc.link ≠ .fault ∧ ∃ f ∈ s.lc.txq, replaceable Kind.pace f = true) ∧
    (let s := withTx ([tx paceFrame true] ++ List.replicate 6 (tx (.rollAccept 1) false)) idle
     s.lc.link ≠ .fault ∧ (∀ f ∈ s.lc.txq, replaceable Kind.pace f = false) ∧ s.lc.txq.length = 7) ∧
    (let s := withTx (List.replicate 8 (tx (.rollAccept 1) false)) idle
     (∀ f ∈ s.lc.txq, replaceable Kind.pace f = false) ∧ s.lc.txq.length = 8 ∧ frameClass paceFrame ≠ 0 ∧
       frameClass stopFrame = 0 ∧
       s.lc.txq.getLast? = some (tx (.rollAccept 1) false) ∧ frameClass (.rollAccept 1) ≠ 0) ∧
    (let s := withTx (List.replicate 8 (tx stopFrame false)) idle
     (∀ f ∈ s.lc.txq, replaceable Kind.stopClaim f = false) ∧ s.lc.txq.length = 8 ∧
       s.lc.txq.getLast? = some (tx stopFrame false) ∧ frameClass stopFrame = 0) ∧
    (let s := withTx (List.replicate 7 (tx stopFrame false) ++ [tx (.rollAccept 1) true]) idle
     (∀ f ∈ s.lc.txq, replaceable Kind.stopClaim f = false) ∧ s.lc.txq.length = 8 ∧
       s.lc.txq.getLast? = some (tx (.rollAccept 1) true)) := by decide

/-- A KEYFRAME-DATA with three of them queued, where it joins, and with four, where the read-out holds it back. -/
theorem test_witness_TransmitQueueTakesFrames_keyframe :
    let p : Payload := .keyframeData (keyframeFrame 0 0 Keyframe.zero)
    let s := fun (n : Nat) => withTx (List.replicate n (tx p false)) idle
    (s 3).lc.link ≠ .fault ∧ (∀ f ∈ (s 3).lc.txq, replaceable p.kind f = false) ∧ (s 3).lc.txq.length < 8 ∧
    p.kind = .keyframeData ∧ readoutFits (s 3) = true ∧ readoutFits (s 4) = false ∧
    paceFrame.kind ≠ .keyframeData := by decide

/-- A node whose frame is on the line. -/
def sending (failRun : Nat) (link : LinkState) : State :=
  idle.setLc { idle.lc with
    txq := [tx stopFrame true], phase := .sending mark0, failRun := failRun, link := link }

theorem test_witness_SentFrameLeavesQueue :
    (∀ l ∈ [LinkState.joined, .linkLost], (sending 3 l).lc.phase = .sending mark0 ∧
      (sending 3 l).lc.txq.find? TxFrame.onLine = some (tx stopFrame true) ∧ (sending 3 l).lc.link = l) ∧
    (peer (sending 3 .joined) 2).liveness ≠ .silent ∧
    (let q := [tx stopFrame true, tx (.rollAccept 1) false, tx (.rollAccept 2) false, tx (.rollAccept 3) false]
     let s := withTx q (withPeer 2 (fun e => { e with liveness := .silent }) (sending 3 .linkLost))
     s.lc.link = .linkLost ∧ (peer s 2).liveness = .silent ∧ s.lc.txq.length ≤ 5 ∧
       s.lc.txq.find? TxFrame.onLine = some (tx stopFrame true) ∧
       tx (.rollAccept 1) false ∈ s.lc.txq.filter (fun g => !g.onLine) ∧
       (Payload.rollAccept 1).kind ≠ .state ∧ (Payload.rollAccept 1).kind ≠ .pace) := by decide

theorem test_witness_FailedAttemptsLoseTheLink :
    (∀ n ∈ [14, 15], (sending n .joined).lc.phase = .sending mark0 ∧
      (sending n .joined).lc.txq.find? TxFrame.onLine = some (tx stopFrame true) ∧
      (sending n .joined).lc.link ≠ .fault ∧ (sending n .joined).lc.failRun = n ∧
      (sending n .joined).lc.txq.length ≤ 4 ∧
      ¬ ∃ g ∈ (sending n .joined).lc.txq, replaceable stopFrame.kind g = true) ∧
    (let s := withTx [tx paceFrame true, tx paceFrame false] (sending 14 .joined)
     s.lc.txq.find? TxFrame.onLine = some (tx paceFrame true) ∧
       ∃ g ∈ s.lc.txq, replaceable paceFrame.kind g = true) := by decide

/-- A node with the line in a phase. -/
def onLine (ph : LinePhase) (s : State) : State := s.setLc { s.lc with phase := ph }

theorem test_witness_LinePhaseFollowsTheLine :
    (∀ p ∈ [paceFrame, stopFrame],
      let s := withTx [tx p false] idle
      running s = true ∧ s.lc.phase = .idle ∧ s.lc.quiet = none ∧ s.lc.link ≠ .fault ∧
        s.lc.txq = tx p false :: []) ∧
    stopFrame.kind ≠ .pace ∧ running idle = true ∧ idle.lc.phase = .idle ∧
    (onLine (.receiving mark0) idle).lc.phase = .receiving mark0 ∧
    (∀ v ∈ [false, true], unstuff (false :: List.replicate 6 v) = .violation v) ∧
    (∀ recessive, unstuff [false, true, true, true, true, true] ≠ .violation recessive) := by decide

/-- The frame of station n that carries a payload. -/
def lineFrame (n : Station) (p : Payload) : LineFrame :=
  let ws := (encodePayload p).getD []
  let h := frameHeader n p.kind ws.length
  { line := sentLine h ws, fields := p }

/-- A frame of station 3 with these fields in its header and these words. -/
def framed (cls : BitVec 3) (code : BitVec 5) (ws : List Word16) : LineFrame :=
  { line := sentLine (headerOf cls 3 code (BitVec.ofNat 4 ws.length)) ws, fields := paceFrame }

/-- A frame with a class that no kind has. -/
def strangeFrame : LineFrame := framed 7 0 [0]

/-- A PACE frame whose CRC is one off. -/
def badCrc : LineFrame :=
  let h := frameHeader 3 .pace 4
  let ws : List Word16 := [0, 5, 1024, 2000]
  { line := stuff (frameBits h ws (frameCrc h ws + 1)), fields := paceFrame }

/-- A MASTER-RATE frame, whose layout the spec does not give, with the fields of another kind. -/
def contradictory : LineFrame := framed 2 12 [0x0207, 0]

theorem test_witness_ArrivingFrameIsChecked :
    let s := onLine (.receiving mark0) idle
    s.lc.phase = .receiving mark0 ∧
    (∀ v ∈ [false, true], unstuff (false :: List.replicate 6 v) = .violation v) ∧
    unstuff badCrc.line ≠ .violation false ∧ badCrc.whole = true ∧
    frameCrc badCrc.header badCrc.words ≠ badCrc.crc ∧ checkFrame badCrc = .crcError ∧
    { badCrc with line := badCrc.line.dropLast }.whole = false ∧
    checkFrame strangeFrame = .malformed ∧
    (∀ n ∈ [(2 : Station), 3], checkFrame (lineFrame n paceFrame) = .valid .pace ∧
      headerSender (lineFrame n paceFrame).header = n) ∧
    decodePayload .pace (lineFrame 3 paceFrame).words (lineFrame 3 paceFrame).fields = some paceFrame ∧
    s.lc.link ≠ .fault ∧ s.cl.station = 2 ∧
    (peer (withPeer 3 (fun e => { e with liveness := .silent }) s) 3).liveness = .silent ∧
    (peer s 3).liveness ≠ .silent ∧ frameClass (.counters 7 Counters.zero) = 5 ∧ frameClass paceFrame ≠ 5 ∧
    checkFrame contradictory = .valid .masterRate ∧
    decodePayload .masterRate contradictory.words contradictory.fields = none := by decide +kernel

/-- Receive queues: of three, of four, of class 0 alone. -/
def rx (ps : List Payload) : State := idle.setLc { idle.lc with rxq := ps.map entry0 }

theorem test_witness_ReceiveQueueInOrder :
    (rx [paceFrame, paceFrame, paceFrame]).lc.rxq.length = 3 ∧
    (let s := rx [stopFrame, paceFrame, paceFrame, paceFrame]
     s.lc.rxq.length = 4 ∧ frameClass paceFrame ≠ 0 ∧ frameClass stopFrame = 0 ∧
       s.lc.rxq = [entry0 stopFrame] ++ entry0 paceFrame :: [entry0 paceFrame, entry0 paceFrame] ∧
       (∀ y ∈ [entry0 stopFrame], frameClass y.payload = 0)) ∧
    (let s := rx [stopFrame, stopFrame, stopFrame, stopFrame]
     s.lc.rxq.length = 4 ∧ ∀ x ∈ s.lc.rxq, frameClass x.payload = 0) ∧
    takeOffer (fun p => p.kind == .pace) (offer paceFrame idle) = some (entry0 paceFrame, taken idle) ∧
    takeOffer (fun p => p.kind == .stopClaim) (offer stopFrame idle) =
      some (entry0 stopFrame, taken idle) :=
  ⟨by decide, by decide, by decide, take_offer (by decide) (by decide), take_offer (by decide) (by decide)⟩

/-- A sample that a punch left waiting, with its record. -/
def leftover : State :=
  idle.setAx { idle.ax with
    punches := [{ ident := 0, console := 3, axis := 0, take := 0, writing := false, lastWritten := none, counted := false,
                  ended := true }],
    samples := [{ ident := 0, keyframe := 2, pos := 11600 }] }

/-- A CUE that waits for the store port. -/
def waitingCue : WaitingCue :=
  { sender := 3, target := 2, tag := 7, number := 1, stamp := 0xABCD, mode := .once, point := none,
    duration := 0, since := 1 }

/-- The node with that CUE in hand. -/
def cueHeld (s : State) : State := s.setTc { s.tc with cues := [waitingCue] }

/-- An older entry that is passed over: of another class and owner, of the same class behind the port, and of
the same class behind an older frame of its owner; and the work of the bulk-transfer client in its order. -/
theorem test_witness_ReceiveQueueInOrder_older :
    ((takeOffer (fun p => p.kind == .pace) (rx [.rollAccept 9, paceFrame])).map fun x => x.1) =
      some (entry0 paceFrame) ∧
    frameClass (.command 2 7 (.delete 1)) = frameClass (.command 2 7 (.jog (Table.fill 3 none))) ∧
    mayTake playing [] (entry0 (.command 2 7 (.delete 1))) = false ∧
    Block.ts ∈ ownersOf (.command 2 7 (.delete 1)) ∧ feederWants playing = true ∧
    mayTake idle [entry0 (.rollAccept 9)] (entry0 (.command 2 7 .wrap)) = false ∧
    mayTake idle [] (entry0 (.command 2 7 (.delete 1))) = true ∧
    mayTake (cueHeld idle) [] (entry0 (.command 2 7 (.delete 1))) = true ∧
    mayTake (cueHeld idle) [] { entry0 (.command 2 7 (.delete 1)) with serial := 1 } = false := by decide

/-- The review's queue: the CUE waits for the port, and WRAP and JOG pass it; and a WRAP that an older STATE
holds back lets a JOG pass. -/
theorem test_frames_pass_one_another :
    let jog : Payload := .command 2 7 (.jog (Table.fill 3 none))
    let cue : Payload := .command 2 7 (.cue 1 0xABCD .once none 0)
    let s := leftover.setLc { leftover.lc with rxq := [cue, .command 2 7 .wrap, jog].map entry0, nextSerial := 1 }
    let t := cueEffect s
    t.tc.cues = [waitingCue] ∧ t.lc.txq = [] ∧ t.lc.rxq = [.command 2 7 .wrap, jog].map entry0 ∧
    (wrapEffect t).lc.rxq = [entry0 jog] ∧
    (takeOffer (fun p => p.kind == .jog) (rx [.state (stateFields idle), .command 2 7 .wrap, jog])).map
      (fun x => x.1) = some (entry0 jog) := by decide +kernel

/-- The waiting CUE has its checks made when the port is free of the sample before it. -/
theorem test_waiting_cue_is_granted :
    cueEffect (cueHeld leftover) = cueHeld leftover ∧
    ((cueEffect (cueHeld idle)).tc.mode = .cueing ∧ (cueEffect (cueHeld idle)).tc.cues = []) := by
  decide +kernel

theorem test_witness_CommandsAreCheckedAndAnswered :
    (cmd .wrap).target ≠ targetAll ∧
    ({ cmd .wrap with target := targetAll } : Command).target = targetAll ∧
    (∀ why, AnswerResult.done ≠ .refused why) ∧
    checkedRow .wrap = some .wrap ∧ checkedRow .reset = some .reset ∧ checkedRow .takeRead = some .takeRead ∧
    (let s := inMode .unconfigured playContext idle
     takeOffer (fun p => p.kind == .wrap) (ordered .wrap s) = some (entry0 (.command 2 7 .wrap), taken s) ∧
       (ordered .wrap s).tc.mode = .unconfigured ∧ Kind.wrap ≠ .reset) ∧
    (takeOffer (fun p => p.kind == .takeRead) (offer (.command 0xFF 7 (.takeRead 1 0 5)) idle) =
        some (entry0 (.command 0xFF 7 (.takeRead 1 0 5)), taken idle) ∧
      idle.tc.mode ≠ .unconfigured ∧ addressedOnly .takeRead = true) ∧
    (let s := idle.setCl { idle.cl with cfg := { config with permitted := 0xFFF7 } }
     (∀ b ∈ [CommandBody.wrap, .reset],
       running s = true ∧ offerable (ordered b s) [] [] (entry0 (.command 2 7 b)) = true ∧
         addressedOnly b.kind = false ∧ b.kind ≠ .advance) ∧
       inMask s.cl.cfg.permitted 3 = false ∧ s.tc.mode ≠ .unconfigured) :=
  ⟨by decide, rfl, nofun, rfl, rfl, rfl, ⟨take_offer rfl (by decide), rfl, nofun⟩,
    ⟨take_offer rfl (by decide), by decide, rfl⟩, by decide⟩

/-- The rows with a case of their own before the checks: a frame that meets the checks, in UNCONFIGURED and from
a station that is not permitted, and a QUERY to ALL. -/
theorem test_witness_CommandsAreCheckedAndAnswered_rows :
    let rows : List (Instr × CommandBody) :=
      [(.queryCounters, .query 0 0), (.queryMarker, .query 1 0), (.queryTrip, .query 2 7),
       (.queryDirectory, .query 3 1), (.armRecord, .armRecord 2 0 0x000C 40 false),
       (.cue, .cue 1 0xABCD .once none 0), (.stopClear, .stopClear 15)]
    let s := idle.setCl { idle.cl with cfg := { config with permitted := 0xFFF7 } }
    let u := inMode .unconfigured playContext idle
    (∀ x ∈ rows, checkedRow x.1 = some x.2.kind ∧ rowTakes x.1 x.2.kind (.command 2 7 x.2) = true ∧
      (∀ v ∈ [s, u], running v = true ∧
        offerable (ordered x.2 v) [] [] (entry0 (.command 2 7 x.2)) = true)) ∧
    (∀ v ∈ [s, u], ∀ x ∈ rows, ¬ meetsNoCheck v x.2) ∧
    inMask s.cl.cfg.permitted 3 = false ∧ s.tc.mode ≠ .unconfigured ∧ u.tc.mode = .unconfigured ∧
    addressedOnly .query = true ∧ addressedOnly .cue = false ∧
    rowTakes .queryCounters .query (.command 0xFF 7 (.query 0 0)) = true := by
  refine ⟨by decide +kernel, ?_, by decide, by decide, rfl, rfl, rfl, rfl⟩
  intro v hv x hx
  simp only [List.mem_cons, List.not_mem_nil, or_false] at hv hx
  rcases hv with rfl | rfl <;> rcases hx with rfl | rfl | rfl | rfl | rfl | rfl | rfl <;>
    (simp only [meetsNoCheck]; decide +kernel)

theorem test_witness_QueriesReport :
    Delivered pickQueryCounters (ordered (.query 0 0) idle) (cmd (.query 0 0)) (0, 0) (taken idle) ∧
    (taken idle).lc.link ≠ .fault ∧ (withTx (List.replicate 7 (tx stopFrame false)) idle).lc.txq.length < 8 ∧
    (takeOffer (picksCommand pickQueryCounters) (ordered (.query 4 0) idle) =
        some (entry0 (.command 2 7 (.query 4 0)), taken idle) ∧
      commandOf pickQueryCounters (entry0 (.command 2 7 (.query 4 0))) = some (cmd (.query 4 0), (4, 0)) ∧
      3 < (4 : BitVec 8).toNat) ∧
    Delivered pickQueryMarker (ordered (.query 1 0) idle) (cmd (.query 1 0)) () (taken idle) ∧
    (Delivered pickQueryTrip (ordered (.query 2 7) idle) (cmd (.query 2 7)) 7 (taken idle) ∧
      (7 : BitVec 8).toNat = (7 : Zone).val) ∧
    (takeOffer (picksCommand pickQueryTrip) (ordered (.query 2 8) idle) =
        some (entry0 (.command 2 7 (.query 2 8)), taken idle) ∧
      commandOf pickQueryTrip (entry0 (.command 2 7 (.query 2 8))) = some (cmd (.query 2 8), 8) ∧
      8 ≤ (8 : BitVec 8).toNat) :=
  ⟨delivered rfl (by decide), by decide, by decide,
    ⟨take_ordered rfl (by decide), commandOf_ordered rfl, by decide⟩, delivered rfl (by decide),
    ⟨delivered rfl (by decide), by decide⟩,
    ⟨take_ordered rfl (by decide), commandOf_ordered rfl, by decide⟩⟩

/-! ### Witnesses: the peers -/

theorem test_witness_PaceFrameRecorded :
    let far := playing.setPu { playing.pu with alignTimer := none }
    let mute := withPeer 3 (fun e => { e with liveness := .silent }) playing
    let near := withPeer 3 (fun e => { e with mode := .playing }) playing
    TakenFrame .pace (offer paceFrame far) (entry0 paceFrame) (taken far) ∧
    TakenFrame .pace (offer paceFrame mute) (entry0 paceFrame) (taken mute) ∧
    TakenFrame .pace (offer paceFrame near) (entry0 paceFrame) (taken near) ∧
    (peer mute 3).liveness = .silent ∧ (peer near 3).liveness ≠ .silent ∧ far.pu.alignTimer = none ∧
    ((entry0 paceFrame).own = false ∧ isParticipant near 3 = true ∧ (peer near 3).mode = .playing ∧
      near.tc.mode = .playing ∧ near.pu.alignTimer ≠ none) :=
  ⟨takenFrame_offer (by decide), takenFrame_offer (by decide), takenFrame_offer (by decide), by decide⟩

/-- A STATE frame of a station that plays. -/
def stateFrame : StateFields := { stateFields playing with role := 2, mode := 11, result := 2, cancelCause := 5 }

theorem test_witness_StateFrameRecorded :
    let mute := withPeer 3 (fun e => { e with liveness := .silent }) idle
    (∀ f : StateFields, TakenFrame .state (offer (.state f) idle) (entry0 (.state f)) (taken idle)) ∧
    TakenFrame .state (offer (.state stateFrame) mute) (entry0 (.state stateFrame)) (taken mute) ∧
    (peer mute 3).liveness = .silent ∧ (peer idle 3).liveness ≠ .silent ∧
    (entry0 (.state stateFrame)).own = false ∧ (entry0 (.state stateFrame)).sender ≠ idle.cl.station ∧
    (roleOf stateFrame.role = some .unconfigured ∧ modeOf stateFrame.mode = some .recovering ∧
      rollResultMeaningful stateFrame.result stateFrame.cancelCause = true) ∧
    roleOf 3 = none ∧ modeOf 12 = none ∧ rollResultMeaningful 3 0 = false ∧
    rollResultMeaningful 2 6 = false ∧ { entry0 (.state stateFrame) with own := true }.own = true :=
  ⟨fun _ => takenFrame_offer (by rfl), takenFrame_offer (by decide), by decide⟩

theorem test_witness_StopFramesWriteTheStopTable :
    let f : StopFields := { summary := 3, effective := 3, timeFlag := true, cause := 0, param := 0,
                            causeMask := 1, time := 77 }
    let mute := withPeer 3 (fun e => { e with liveness := .silent }) idle
    TakenFrame .stopClaim (offer (.stopClaim f) idle) (entry0 (.stopClaim f)) (taken idle) ∧
    TakenFrame .stopRelease (offer (.stopRelease f) idle) (entry0 (.stopRelease f)) (taken idle) ∧
    TakenFrame .stopClaim (offer (.stopClaim f) mute) (entry0 (.stopClaim f)) (taken mute) ∧
    (peer mute 3).liveness = .silent ∧ (peer idle 3).liveness ≠ .silent ∧
    (entry0 (.stopClaim f)).own = false ∧ (entry0 (.stopClaim f)).sender ≠ idle.cl.station ∧
    (entry0 (.stopClaim f)).sender = (idle.setCl { idle.cl with station := 3 }).cl.station :=
  ⟨takenFrame_offer (by decide), takenFrame_offer (by decide), takenFrame_offer (by decide), by decide⟩

theorem claimsInv_of_empty {s : State} (h : s.su = { StopUnit.reset with driveLatch := true }) : ClaimsInv s := by
  refine ⟨?_, ?_, ?_, ?_, ?_⟩ <;> rw [h] <;> decide

/-- With a SEVER claim of zone 0 alone. -/
theorem claimsInv_severed {s : State} (h : s.su = { StopUnit.reset with
      driveLatch := true, own := [{ cause := .zone 0, cls := .sever }], effective := .sever }) : ClaimsInv s := by
  refine ⟨?_, ?_, ?_, ?_, ?_⟩ <;> rw [h] <;> decide

/-- A claim that raises the class and one that does not: of the link, of the own number and of a silent
participant. -/
theorem test_witness_own_claims_act :
    let below := fun (s : State) (cls : Cls) => ClaimsInv s ∧ clsRank s.su.effective < clsRank cls
    let atSever := fun (s : State) => ClaimsInv s ∧ clsRank .sever ≤ clsRank s.su.effective
    below (sending 15 .joined) .halt ∧ atSever (claimed (.zone 0) .sever (sending 15 .joined)) ∧
    below (onLine (.receiving mark0) idle) .sever ∧
    atSever (claimed (.zone 0) .sever (onLine (.receiving mark0) idle)) ∧
    (peer (onLine (.receiving mark0) idle) 2).liveness ≠ .silent ∧ idle.cl.station = 2 ∧
    (below playing .halt ∧ watchesPeers playing.tc.mode = true ∧ isParticipant playing 3 = true ∧
      ∀ a, (axisCh playing a).ctrl ≠ .console 3) ∧
    atSever (claimed (.zone 0) .sever playing) ∧ watchesPeers idle.tc.mode = false :=
  ⟨⟨claimsInv_of_empty rfl, by decide⟩, ⟨claimsInv_severed rfl, by decide⟩,
    ⟨claimsInv_of_empty rfl, by decide⟩, ⟨claimsInv_severed rfl, by decide⟩,
    by decide, rfl, ⟨⟨claimsInv_of_empty rfl, by decide⟩, by decide⟩,
    ⟨claimsInv_severed rfl, by decide⟩, by decide⟩

/-- A change of class by a STATE frame, and a mismatch examined at it. -/
theorem test_witness_StateFrameRecorded_class :
    let f := fun (c : BitVec 2) => { stateFields playing with summary := c, roll := 9 }
    let row := fun (c : BitVec 2) =>
      ({ cls := clsOf c, time := (f c).stopTime, timeFlag := (f c).timeFlag } : StopEntry)
    let halted := (claimed (.zone 0) .halt idle).setSu
      { idle.su with entries := idle.su.entries.set 3 (row 2), effective := .halt }
    let past := playing.setTc { playing.tc with grace := .over }
    let near := withPeer 2 (fun e => { e with roll := 9, mode := .playing }) past
    (clsRank idle.su.effective <
      clsRank (formEffective { idle.su with entries := idle.su.entries.set 3 (row 1) })) ∧
    clsRank (formEffective { halted.su with entries := halted.su.entries.set 3 (row 0) }) <
      clsRank halted.su.effective ∧
    formEffective { idle.su with entries := idle.su.entries.set 3 (row 0) } = idle.su.effective ∧
    (past.tc.grace = .over ∧ isParticipant past 3 = true ∧ past.tc.mode = .playing ∧
      some (peer past 2).roll ≠ some 9 ∧ inMask playContext.mask 2 = true) ∧
    ClaimsInv past ∧
    (near.tc.ctx = some { playContext with roll := some 9 } ∧
      ((stateEffect (offer (.state (f 0)) near)).su.own = [] ∧
        (stateEffect (offer (.state (f 0)) past)).su.own.map Claim.cause = [.peerMismatch])) :=
  ⟨by decide +kernel, by decide +kernel, by decide +kernel, by decide +kernel, claimsInv_of_empty rfl,
    by decide +kernel⟩

/-- A change of class by a STOP frame: a rise in every mode that it reaches, a fall, and no change. -/
theorem test_witness_StopFramesWriteTheStopTable_class :
    let f : BitVec 2 → StopFields := fun c =>
      { summary := c, effective := c, timeFlag := true, cause := 0, param := 0, causeMask := 1, time := 77 }
    let row : BitVec 2 → StopEntry := fun c => { cls := clsOf c, time := 77, timeFlag := true }
    let halted := (claimed (.zone 0) .halt idle).setSu
      { idle.su with entries := idle.su.entries.set 3 (row 2), effective := .halt }
    (∀ c ∈ [(1 : BitVec 2), 2, 3], ∀ s ∈ [idle, playing, recording 5, rolling .play, rolling .record],
      TakenFrame .stopClaim (offer (.stopClaim (f c)) s) (entry0 (.stopClaim (f c))) (taken s) ∧
      clsRank s.su.effective <
        clsRank (formEffective { s.su with entries := s.su.entries.set 3 (row c) })) ∧
    (ClaimsInv idle ∧ ClaimsInv playing ∧ ClaimsInv (recording 5) ∧ ClaimsInv (rolling .play)) ∧
    isParticipant playing 3 = true ∧
    (TakenFrame .stopRelease (offer (.stopRelease (f 0)) halted) (entry0 (.stopRelease (f 0))) (taken halted) ∧
      clsRank (formEffective { halted.su with entries := halted.su.entries.set 3 (row 0) }) <
        clsRank halted.su.effective) ∧
    formEffective { idle.su with entries := idle.su.entries.set 3 (row 0) } = idle.su.effective := by
  refine ⟨?_, ⟨claimsInv_of_empty rfl, claimsInv_of_empty rfl, claimsInv_of_empty rfl, claimsInv_of_empty rfl⟩,
    by decide +kernel, ⟨takenFrame_offer (by decide +kernel), by decide +kernel⟩, by decide +kernel⟩
  intro c hc s hs
  refine ⟨takenFrame_offer ?_, ?_⟩
  all_goals
    revert s hs
    revert c hc
    decide +kernel

/-- A roll window with a silent participant, below HALT and at it, in both forms. -/
theorem test_witness_SilentStationLetsGo_window :
    ClaimsInv (rolling .play) ∧ (rolling .play).su.effective = .none ∧ (rolling .record).tc.mode = .rolling ∧
    (rolling .record).tc.roll.mode = some .record ∧ (rolling .play).tc.roll.mode ≠ some .record ∧
    clsGe (claimed .duplicate .sever (rolling .play)).su.effective .halt := by
  refine ⟨claimsInv_of_empty rfl, ?_⟩
  decide

theorem test_witness_SilentStationLetsGo :
    let s := withAxis 0 (fun c => { c with ctrl := .console 3 }) playing
    (running s = true ∧ (peer s 3).liveness = .live ∧ (peer s 3).silence ≠ none) ∧
    (watchesPeers s.tc.mode = true ∧ isParticipant s 3 = true) ∧
    (rolling .play).tc.mode = .rolling ∧ isParticipant (rolling .play) 3 = true ∧
    (peer (rolling .play) 3).silence ≠ none := by decide

/-! ### Witnesses: the axis channels -/

/-- One axis named in a JOG or a GOTO. -/
def named (i : Axis) (v : BitVec 32) : Table (Option (BitVec 32)) 3 := (Table.fill 3 none).set i (some v)

theorem test_witness_JogSetsTheDemand :
    Delivered pickJog (ordered (.jog (named 0 30000)) idle) (cmd (.jog (named 0 30000))) (named 0 30000)
      (taken idle) ∧
    moveRefusal false 3 (namedValues (named 0 30000)) (taken idle) = none ∧
    (named 0 30000).get 1 = none ∧ (named 0 30000).get 0 = some 30000 :=
  ⟨delivered rfl (by decide), by decide⟩

theorem test_witness_GotoStartsItsSegments :
    Delivered pickGoto (ordered (.goto 750 (named 1 3000)) idle) (cmd (.goto 750 (named 1 3000)))
      (750, named 1 3000) (taken idle) ∧
    moveRefusal true 3 (namedValues (named 1 3000)) (taken idle) = none ∧
    (named 1 3000).get 0 = none ∧ (named 1 3000).get 1 = some 3000 :=
  ⟨delivered rfl (by decide), by decide⟩

/-- A target at the end of a lens map, one beyond it, and one of an arm axis beyond its travel. -/
theorem test_witness_targets_are_clamped :
    ¬ clampsTarget idle 1 4000 ∧ clampsTarget idle 1 4001 ∧ ¬ clampsTarget idle 0 200000 ∧
    clampsTarget idle 0 200001 ∧
    (let tight := idle.setCl { idle.cl with cfg := { config with axes :=
       ⟨[{ arm with smax := 9000 }, { focus with smax := 7000 }, AxisConfig.unused], rfl⟩ } }
     configured tight 0 = true ∧ (axisCh tight 0).state ≠ .fault ∧ clampsTarget tight 0 10000 ∧
       clampsTarget tight 1 4000) := by
  unfold clampsTarget
  decide +kernel

/-- The least of a range, by computation. -/
theorem least_of {n : Nat} {P : Fin n → Prop} [DecidablePred P] {k : Fin n}
    (h : decide (P k ∧ ∀ j, j < k → ¬ P j) = true) : Least P k :=
  of_decide_eq_true (p := P k ∧ ∀ j, j < k → ¬ P j) h

/-- Axis 0 overridden by station 3. -/
def axisOver : State := withAxis 0 (fun c => { c with state := .override, ctrl := .console 3 }) idle

/-- Axes 0 to 2 named in a JOG or a GOTO. -/
def namedAll : Table (Option (BitVec 32)) 3 := Table.fill 3 (some 100)

/-- Axes 0 and 1 named. -/
def namedTwo : Table (Option (BitVec 32)) 3 := namedAll.set 2 none

/-- The checks of R41, one after the other: each state fails its check and passes those before it. -/
theorem test_witness_moves_are_refused :
    let held := withAxis 1 (fun c => { c with ctrl := .console 4 }) idle
    let punched := axisOver
    let unmapped := idle.setLmu (idle.lmu.set 1 LensChannel.empty)
    let braking := withAxis 1 (fun c => { c with state := .braking }) idle
    (∀ s ∈ [idle, held, punched, claimed .duplicate .hold idle, idle.setSu StopUnit.reset, unmapped, braking],
      Delivered pickGoto (ordered (.goto 0 namedAll) s) (cmd (.goto 0 namedAll)) (0, namedAll) (taken s)) ∧
    Least (fun a => namedAll.get a ≠ none ∧ (axisCh idle a).state = .disabled) 2 ∧
    (∀ a, ¬ (namedTwo.get a ≠ none ∧ (axisCh held a).state = .disabled)) ∧
    Least (fun a => namedTwo.get a ≠ none ∧ (axisCh held a).ctrl ≠ .none ∧
      (axisCh held a).ctrl ≠ .console 3) 1 ∧
    Least (fun a => namedTwo.get a ≠ none ∧ true = true ∧ (axisCh punched a).state = .override) 0 ∧
    (axisCh punched 0).ctrl = .console 3 ∧ clsGe (claimed .duplicate .hold idle).su.effective .hold ∧
    (idle.setSu StopUnit.reset).su.driveLatch = false ∧ idle.su.driveLatch = true ∧
    Least (fun a => namedTwo.get a ≠ none ∧ true = true ∧ (axisCfg unmapped a).kind.isLens = true ∧
      activeMap unmapped a = []) 1 ∧
    Least (fun a => namedTwo.get a ≠ none ∧ (axisCh braking a).state = .braking) 1 :=
  ⟨fun s h => by
    refine delivered rfl ?_
    revert s h
    decide +kernel, least_of (by decide +kernel), by decide +kernel, least_of (by decide +kernel), least_of (by decide +kernel), by decide +kernel, by decide +kernel,
    by decide +kernel, by decide +kernel, least_of (by decide +kernel), least_of (by decide +kernel)⟩

theorem test_witness_ControlReleaseFreesAxes :
    (∀ st ∈ [AxisState.rest, .jog, .goto, .override, .braking, .severed, .fault],
      let s := withAxis 0 (fun c => { c with state := st, ctrl := .console 3 }) playing
      Delivered pickControlRelease (ordered (.controlRelease 1) s) (cmd (.controlRelease 1)) 1 (taken s) ∧
      (∀ a : Axis, (1 : BitVec 3).getLsbD a.val = true → heldByOther 3 (axisCh s a).ctrl = false) ∧
      (1 : BitVec 3).getLsbD (0 : Axis).val = true ∧ (axisCh s 0).ctrl = .console 3 ∧
      (axisCh s 0).state = st) ∧
    (1 : BitVec 3).getLsbD (1 : Axis).val = false ∧
    (let s := withAxis 0 (fun c => { c with ctrl := .console 4 }) idle
     Delivered pickControlRelease (ordered (.controlRelease 3) s) (cmd (.controlRelease 3)) 3 (taken s) ∧
       Least (fun a : Axis => (3 : BitVec 3).getLsbD a.val = true ∧ (axisCh s a).ctrl ≠ .none ∧
         (axisCh s a).ctrl ≠ .console 3) 0) :=
  ⟨fun st h => by
    refine ⟨delivered rfl ?_, ?_⟩
    all_goals
      revert st h
      decide, by decide, delivered rfl (by decide), least_of (by decide +kernel)⟩

theorem test_witness_FaultClearReturnsToRest :
    let bad := withAxis 1 (fun c => { c with state := .fault, faultEncoder := true, lossCount := 1 }) idle
    let good := withAxis 1 (fun c => { c with state := .fault, faultEncoder := true }) idle
    (∀ s ∈ [idle, bad, good],
      Delivered pickFaultClear (ordered (.faultClear 1) s) (cmd (.faultClear 1)) 1 (taken s)) ∧
    (∀ n ∈ [2, 3, 255],
      Delivered pickFaultClear (ordered (.faultClear n) idle) (cmd (.faultClear n)) n (taken idle)) ∧
    (axisCh idle 2).state = .disabled ∧ (axisCh idle 1).state ≠ .disabled ∧
    (axisCh idle 1).state ≠ .fault ∧ (axisCh bad 1).state = .fault ∧ (axisCh bad 1).lossCount ≠ 0 ∧
    (axisCh good 1).state = .fault ∧ (axisCh good 1).lossCount = 0 :=
  ⟨fun s h => by
    refine delivered rfl ?_
    revert s h
    decide, fun n h => by
    refine delivered rfl ?_
    revert n h
    decide, by decide⟩

theorem test_witness_TimersExpire :
    let q := idle.setLc { idle.lc with quiet := some 100 }
    let j := withAxis 2 (fun c => { c with jogTimer := some 50, idleTimer := some 2000 }) idle
    running q = true ∧ q.lc.link ≠ .fault ∧ q.lc.quiet ≠ none ∧ q.pt.stateTimer ≠ none ∧
    (axisCh j 2).jogTimer ≠ none ∧ (axisCh j 2).idleTimer ≠ none ∧
    pacesIn playing.tc.mode = true ∧ playing.pu.paceTimer ≠ none ∧ playing.lc.link ≠ .fault := by decide

/-- An encoder word for a position. -/
def encoderWord (p : BitVec 28) : BitVec 40 := let bits := p ++ 0#4; bits ++ encoderCheck bits

theorem test_witness_ServoUpdateWritesItsOutput :
    running State.reset = false ∧ (axisCh idle 2).state = .disabled ∧
    (running idle = true ∧ (axisCh idle 0).state ≠ .disabled ∧ (axisCfg idle 0).kind = .arm) ∧
    lossReaches (axisCfg idle 0) (axisCh idle 0) (latestPosition [encoderWord 10000]) = false ∧
    followReaches (axisCfg idle 0) idle.su.driveLatch (axisCh idle 0) (latestPosition [encoderWord 10000]) =
      false ∧
    latestPosition [] = none := by decide +kernel

/-- A lens axis that enters a fault, one that begins a segment, and one that goes on with its own, within the map
and one unit off either end of it. -/
theorem test_witness_ServoUpdateWritesItsOutput_lens :
    let inState := fun (st : AxisState) (f : AxisChannel → AxisChannel) =>
      withAxis 1 (fun c => f { c with state := st }) playing
    let lost := inState .follow fun c => { c with lossCount := 1 }
    let copied := inState .follow fun c => { c with segmentCopy := some (segmentOf entryA 1) }
    let target := fun (u : Int) => segmentOf { entryA with spans := ⟨[⟨0, 0, 0, 0⟩, ⟨u, u, 0, 0⟩, ⟨0, 0, 0, 0⟩], rfl⟩ } 1
    let moving := fun (u : Int) => inState .goto fun c => { c with segment := some (target u) }
    isLens playing 0 = false ∧
    (∀ s ∈ [lost, inState .follow id, copied, moving 1000, moving 4001],
      running s = true ∧ (axisCh s 1).state ≠ .disabled ∧ isLens s 1 = true) ∧
    faultsAt lost 1 [] ∧ beginsAt (inState .follow id) 1 ∧ ¬ beginsAt copied 1 ∧ ¬ beginsAt (moving 1000) 1 ∧
    (∀ s ∈ [inState .follow id, copied, moving 1000, moving 4001], ¬ faultsAt s 1 [encoderWord 5200]) ∧
    evaluatesAt (inState .follow id) 1 (segmentOf entryA 1) 0 ∧ evaluatesAt (moving 4001) 1 (target 4001) 0 ∧
    (∀ u ∈ [(1000 : Int), 4000], (forward focusMap (evalSegment (target u) 0)).2 = false) ∧
    (∀ u ∈ [(999 : Int), 4001], (forward focusMap (evalSegment (target u) 0)).2 = true) := by
  refine ⟨by decide, by decide, .inl (by decide), ⟨.inl rfl, _, rfl, by decide⟩, ?_, ?_, ?_, .inr (.inr ?_),
    .inl (by decide), by decide +kernel, by decide +kernel⟩
  · rintro ⟨-, g, hg, hn⟩
    exact hn hg
  · rintro ⟨h, -⟩
    revert h
    unfold followsAt
    decide
  · unfold faultsAt
    decide +kernel
  · exact ⟨.inl rfl, by decide, by decide⟩

theorem test_witness_ServoUpdateMovesByState :
    let word := latestPosition [encoderWord 10000]
    let quiet := fun (s : State) => running s = true ∧ (axisCh s 0).state ≠ .disabled ∧
      lossReaches (axisCfg s 0) (axisCh s 0) word = false ∧
      followReaches (axisCfg s 0) s.su.driveLatch (axisCh s 0) word = false
    let g : Segment := { t0 := 0, dur := 750, p0 := 10000, p1 := 20000, v0 := 0, v1 := 0,
                         zeroStart := true, zeroEnd := true }
    let inState := fun (st : AxisState) => withAxis 0 (fun c => { c with state := st, segment := some g }) playing
    (∀ st ∈ [AxisState.severed, .fault, .rest, .jog, .override, .braking, .goto, .follow, .rejoin],
      quiet (inState st) ∧ (axisCh (inState st) 0).state = st) ∧
    ((inState .rest).setSu { idle.su with driveLatch := false }).su.driveLatch = false ∧
    (inState .rest).su.driveLatch = true ∧ (axisCh (inState .goto) 0).segment = some g ∧
    ((withAxis 0 (fun c => { c with rejoinTime := 1 }) (inState .rejoin)).pu.t - 1 : TakeTime).toInt < 0 ∧
    (inState .follow).fd.queue = entryA :: [entryB] ∧ ((inState .follow).lmu.get 0).pending = none ∧
    (let empty := (inState .follow).setFd { playing.fd with queue := [] }
     empty.fd.queue = [] ∧ (axisCh empty 0).segmentCopy = none ∧
     (axisCh (withAxis 0 (fun c => { c with segmentCopy := some g }) empty) 0).segmentCopy = some g) := by decide +kernel

/-- FOLLOW with a pending map and with its own head, REJOIN at its end time, GOTO under HOLD and BRAKING that
tracks. -/
theorem test_witness_ServoUpdateMovesByState_more :
    let word := latestPosition [encoderWord 10000]
    let g := segmentOf entryA 0
    let inState := fun (st : AxisState) => withAxis 0 (fun c => { c with state := st, segment := some g }) playing
    (let s := (inState .follow).setLmu (idle.lmu.set 0 { LensChannel.empty with pending := some [⟨0, 0⟩] })
     (s.lmu.get 0).pending = some [⟨0, 0⟩] ∧ (axisCh s 0).segmentCopy ≠ some g ∧
       (s.fd.queue.head?.map fun e => segmentOf e 0) = some g) ∧
    (axisCh (withAxis 0 (fun c => { c with segmentCopy := some g }) (inState .follow)) 0).segmentCopy = some g ∧
    (let s := withAxis 0 (fun c => { c with rejoinTime := 1000 }) (inState .rejoin)
     (s.pu.t - (axisCh s 0).rejoinTime).toInt < 0 ∧
       0 ≤ ((s.setPu { s.pu with t := 1000 }).pu.t - (axisCh s 0).rejoinTime).toInt) ∧
    (let s := claimed .duplicate .hold (inState .goto)
     s.pu.rm = 0 ∧ clsGe s.su.effective .hold ∧ (axisCh s 0).segment = some g) ∧
    ((inState .goto).pu.tm - g.t0).toInt < 1024 * (g.dur : Int) ∧
    (let s := (inState .braking).setSu { idle.su with driveLatch := false }
     s.su.driveLatch = false ∧ (axisCh s 0).v8 = 0 ∧ (axisCh s 0).state = .braking ∧
       lossReaches (axisCfg s 0) (axisCh s 0) word = false) ∧
    (axisCh (withAxis 0 (fun c => { c with v8 := 500 }) (inState .braking)) 0).v8 ≠ 0 := by decide +kernel

/-- A segment of 40 ms from take time 0. -/
def shortSegment : Segment :=
  { t0 := 0, dur := 40, p0 := 9000, p1 := 10000, v0 := 0, v1 := 0, zeroStart := true, zeroEnd := true }

/-- The node with axis 0 in GOTO on that segment, held by the take, at a move clock and in a mode of positioning. -/
def arriving (m : Mode) (tm : TakeTime) : State :=
  let s := (withAxis 0 (fun c => { c with state := .goto, segment := some shortSegment, ctrl := .take })
    (inMode m { playContext with pendingRestart := some 7 } idle)).setPu { idle.pu with tm := tm }
  (s.setTc { s.tc with arrivals := ⟨[false, true, false], rfl⟩ }).setFd { s.fd with restart := some entryB }

/-- A complete GOTO one count outside the arrival window, on either side, and on its edge. -/
theorem test_witness_ServoUpdateMovesByState_complete :
    let s := arriving .cueing 40960
    (running s = true ∧ (axisCh s 0).state = .goto ∧ (axisCh s 0).segment = some shortSegment ∧
      ¬ (s.pu.rm = 0 ∧ clsGe s.su.effective .hold) ∧ 1 ≤ shortSegment.dur ∧
      1024 * (shortSegment.dur : Int) = (s.pu.tm - shortSegment.t0).toInt) ∧
    (∀ p ∈ [(10009 : Int), 9991], (axisCfg s 0).arrivalWindow < ((p - targetCount s 0 shortSegment.p1).natAbs : Int)) ∧
    (∀ p ∈ [(10008 : Int), 9992], ((p - targetCount s 0 shortSegment.p1).natAbs : Int) = (axisCfg s 0).arrivalWindow) ∧
    (latestPosition [encoderWord 10009] = some 10009 ∧ latestPosition [encoderWord 9991] = some 9991) ∧
    (∀ p ∈ [(10009 : Int), 9991], lossReaches (axisCfg s 0) (axisCh s 0) (some p) = false ∧
      followReaches (axisCfg s 0) s.su.driveLatch (axisCh s 0) (some p) = false) := by decide +kernel

/-- An arrival on the edge of the window, of a CUE and of a RECOVER, with the last axis, with another still to come
and under another controller; one tu too early and one count too far; and with the end under HOLD. -/
theorem test_witness_ArrivalEndsTheMove :
    let arrives := fun (s : State) (p : Int) => 1024 * (shortSegment.dur : Int) ≤ (s.pu.tm - shortSegment.t0).toInt ∧
      ((p - targetCount s 0 shortSegment.p1).natAbs : Int) ≤ (axisCfg s 0).arrivalWindow
    let held := fun (s : State) => claimed .duplicate .hold (s.setPu { s.pu with rm := 0 })
    let endsUnder := fun (s : State) => s.pu.rm = 0 ∧ clsGe s.su.effective .hold
    let lone := fun (s : State) => s.setTc { s.tc with arrivals := Table.fill 3 false }
    let cue := arriving .cueing 40960
    (∀ s ∈ [cue, arriving .recovering 40960, arriving .cueing 40959, lone cue, held cue,
        held (arriving .cueing 40959), withAxis 0 (fun c => { c with ctrl := .console 3 }) cue],
      running s = true ∧ (axisCh s 0).state = .goto ∧ (axisCh s 0).segment = some shortSegment ∧
      (∀ p ∈ [(10008 : Int), 10009], lossReaches (axisCfg s 0) (axisCh s 0) (some p) = false ∧
        followReaches (axisCfg s 0) s.su.driveLatch (axisCh s 0) (some p) = false)) ∧
    (latestPosition [encoderWord 10008] = some 10008 ∧ latestPosition [encoderWord 10009] = some 10009) ∧
    (arrives cue 10008 ∧ ¬ arrives cue 10009 ∧ ¬ arrives (arriving .cueing 40959) 10008) ∧
    (¬ endsUnder cue ∧ endsUnder (held cue) ∧ arrives (held cue) 10008 ∧
      ¬ arrives (held (arriving .cueing 40959)) 10008) ∧
    (axisCh (withAxis 0 (fun c => { c with ctrl := .console 3 }) cue) 0).ctrl ≠ .take ∧ (axisCh cue 0).ctrl = .take ∧
    (cue.tc.mode = .cueing ∧ (arriving .recovering 40960).tc.mode = .recovering ∧ cue.fd.restart = some entryB) ∧
    (∀ j, j ≠ 0 → configured cue j = true → cue.tc.arrivals.get j = true) ∧
    (configured (lone cue) 1 = true ∧ (lone cue).tc.arrivals.get 1 = false) := by decide +kernel

theorem test_witness_FaultsRaiseTheirClaims :
    let loss := withAxis 0 (fun c => { c with lossCount := 1 }) idle
    let far := withAxis 0 (fun c => { c with followCount := 2 }) idle
    let word := latestPosition [encoderWord 11000]
    running idle = true ∧ (axisCh idle 0).state ≠ .disabled ∧
    lossReaches (axisCfg loss 0) (axisCh loss 0) (latestPosition []) = true ∧
    lossReaches (axisCfg idle 0) (axisCh idle 0) (latestPosition []) = false ∧
    lossReaches (axisCfg far 0) (axisCh far 0) word = false ∧
    followReaches (axisCfg far 0) far.su.driveLatch (axisCh far 0) word = true ∧
    followReaches (axisCfg idle 0) idle.su.driveLatch (axisCh idle 0) word = false ∧
    (∀ s ∈ [loss, far], ClaimsInv s ∧ s.su.effective = .none) ∧
    (∀ s ∈ [claimed (.zone 0) .sever loss, claimed (.zone 0) .sever far], ClaimsInv s ∧ s.su.effective = .sever) := by
  refine ⟨by decide +kernel, by decide +kernel, by decide +kernel, by decide +kernel, by decide +kernel,
    by decide +kernel, by decide +kernel, ?_, ?_⟩
  · intro s h
    simp only [List.mem_cons, List.not_mem_nil, or_false] at h
    rcases h with rfl | rfl <;> exact ⟨claimsInv_of_empty rfl, rfl⟩
  · intro s h
    simp only [List.mem_cons, List.not_mem_nil, or_false] at h
    rcases h with rfl | rfl <;>
      exact ⟨claimsInv_severed rfl, rfl⟩

/-! ### Witnesses: the setpoint and the lens maps -/

theorem test_witness_SegmentPhaseAndBlend :
    ∀ e ∈ [(0 : BitVec 32), 1, 40959, 40960, 2097152000], (0xFFFFFF00 + e - 0xFFFFFF00).toInt = (e.toNat : Int) := by
  simp

theorem test_witness_SegmentPhaseAndBlend_ends :
    (0xFFFFFFFF : BitVec 32).toInt < 0 ∧ (40959 : BitVec 32).toInt < 1024 * 40 ∧
    (40960 : BitVec 32).toInt = 1024 * 40 ∧ 2097152000 ≤ 8192 * 250 * 1024 := by simp

theorem axisParams_arm : AxisParams arm := ⟨by decide, by decide, by decide, by decide⟩

theorem test_witness_LimiterBoundsTheSetpoint :
    AxisParams arm ∧
    (∀ p ∈ [(-50000 : Int), 10000, 200000], SetpointHolds arm { restAt p with v8 := 15360 }) ∧
    (let b := min arm.vmax8 0
     b < 100 - arm.amax8 ∧ -100 + arm.amax8 < -b) ∧
    256 * arm.smax < 256 * 200000 + 1 ∧ -256 * 50000 - 1 < 256 * arm.smin ∧
    (let v := (15360 : Int).sign * max 0 (((15360 : Int).natAbs : Int) - arm.ahalt8)
     0 < v ∧ 256 * arm.smin ≤ 256 * arm.smax - v + v ∧ 256 * arm.smax - v + v ≤ 256 * arm.smax ∧
       256 * arm.smax < 256 * arm.smax - v + 1 + v) ∧
    (let v := (-15360 : Int).sign * max 0 (((-15360 : Int).natAbs : Int) - arm.ahalt8)
     v < 0 ∧ 256 * arm.smin - v - 1 + v < 256 * arm.smin) := by
  refine ⟨axisParams_arm, ?_, by decide, by decide, by decide, by decide, by decide⟩
  intro p hp
  simp only [List.mem_cons, List.not_mem_nil, or_false] at hp
  rcases hp with rfl | rfl | rfl <;> exact ⟨by decide, by decide, by decide⟩

/-- The same lens with its ring running the other way. -/
def backwardMap : LensMap := [⟨1000, 7400⟩, ⟨2000, 5200⟩, ⟨4000, 2000⟩]

theorem test_witness_LensMapConversions :
    mapValid focusMap = true ∧ focusMap.head? = some ⟨1000, 2000⟩ ∧ focusMap.getLast? = some ⟨4000, 7400⟩ ∧
    mapValid backwardMap = true ∧ backwardMap.head? = some ⟨1000, 7400⟩ ∧
    backwardMap.getLast? = some ⟨4000, 2000⟩ ∧
    (999 : Int) < (⟨1000, 2000⟩ : LensPoint).unit ∧ (⟨4000, 7400⟩ : LensPoint).unit < 4001 ∧
    focusMap[1]? = some ⟨2000, 5200⟩ ∧ focusMap[2]? = some ⟨4000, 7400⟩ ∧
    (∀ u ∈ [(2001 : Int), 4000], 2000 ≤ u ∧ u ≤ 4000 ∧ ¬ (1000 ≤ u ∧ u ≤ 2000)) ∧
    (∀ c ∈ [(5201 : Int), 7400], 5200 ≤ c ∧ c ≤ 7400 ∧ ¬ (2000 ≤ c ∧ c ≤ 5200)) ∧
    (∀ r ∈ focusMap, 0 ≤ r.unit ∧ r.unit ≤ 65535 ∧ r.count.natAbs ≤ 2 ^ 31) ∧
    (2000 : Int) < 7400 := by decide

theorem test_witness_LensMapsAreWritten :
    let written := { (idle.lmu.get 1) with writer := some 3, shadow := ⟨
      [some ⟨1000, 2000⟩, some ⟨2000, 5200⟩] ++ List.replicate 14 none, rfl⟩ }
    let s := idle.setLmu (idle.lmu.set 1 written)
    (∀ index ∈ [0, 15],
      Delivered pickLensPoint (ordered (.lensPoint 1 index 0 30000) s) (cmd (.lensPoint 1 index 0 30000))
        (1, index, 0, 30000) (taken s)) ∧
    (Delivered pickLensCommit (ordered (.lensCommit 1 2) s) (cmd (.lensCommit 1 2)) (1, 2) (taken s) ∧
      (s.lmu.get 1).writer = some 3 ∧
      (s.lmu.get 1).shadow.rows.take 2 = [(⟨1000, 2000⟩ : LensPoint), ⟨2000, 5200⟩].map some ∧
      mapValid [⟨1000, 2000⟩, ⟨2000, 5200⟩] = true) ∧
    namedAxis (taken s) 1 = some 1 ∧ (axisCfg s 1).kind.isLens = true ∧
    (∀ st ∈ [AxisState.rest, .follow, .override, .rejoin],
      (axisCh (withAxis 1 (fun c => { c with state := st }) s) 1).state = st) ∧
    ((s.lmu.set 1 { written with writer := some 4 }).get 1).writer = some 4 ∧ (idle.lmu.get 1).writer = none :=
  ⟨fun index h => by
    refine delivered rfl ?_
    revert index h
    decide, ⟨delivered rfl (by decide), by decide⟩, by decide⟩

/-- The node with a shadow of axis 1 that station 3 wrote. -/
def shadowed (points : List (Option LensPoint)) (h : points.length = 16) : State :=
  idle.setLmu (idle.lmu.set 1 { (idle.lmu.get 1) with writer := some 3, shadow := ⟨points, h⟩ })

/-- The refusals of R74 and R75: each state and operand fails its check and passes those before it. -/
theorem test_witness_LensMapsAreWritten_refused :
    let rest := List.replicate 13 (none : Option LensPoint)
    let units := shadowed ([some ⟨1000, 2000⟩, some ⟨2000, 5200⟩, some ⟨2000, 6000⟩] ++ rest) rfl
    let equal := shadowed ([some ⟨1000, 2000⟩, some ⟨2000, 2000⟩, some ⟨3000, 6000⟩] ++ rest) rfl
    let up := shadowed ([some ⟨1000, 2000⟩, some ⟨2000, 5200⟩, some ⟨3000, 5200⟩] ++ rest) rfl
    let down := shadowed ([some ⟨1000, 2000⟩, some ⟨2000, 1200⟩, some ⟨3000, 1200⟩] ++ rest) rfl
    (∀ n ∈ [0, 1, 2], ∀ index ∈ [15, 16],
      Delivered pickLensPoint (ordered (.lensPoint n index 0 0) idle) (cmd (.lensPoint n index 0 0))
        (n, index, 0, 0) (taken idle)) ∧
    namedAxis (taken idle) 2 = none ∧ namedAxis (taken idle) 3 = none ∧ namedAxis (taken idle) 0 = some 0 ∧
    (axisCfg idle 0).kind.isLens = false ∧
    (∀ s ∈ [idle, units, equal, up, down], ∀ n ∈ [1, 2, 3, 4, 16, 17],
      Delivered pickLensCommit (ordered (.lensCommit 1 n) s) (cmd (.lensCommit 1 n)) (1, n) (taken s)) ∧
    (idle.lmu.get 1).writer ≠ some 3 ∧ (units.lmu.get 1).writer = some 3 ∧
    Least (fun j => (units.lmu.get 1).shadow.get j = none) 3 ∧
    (units.lmu.get 1).shadow.rows.take 3 =
      [(⟨1000, 2000⟩ : LensPoint), ⟨2000, 5200⟩, ⟨2000, 6000⟩].map some ∧
    ([(⟨1000, 2000⟩ : LensPoint), ⟨2000, 5200⟩].map LensPoint.unit).Pairwise (· < ·) ∧
    (equal.lmu.get 1).shadow.rows.take 3 =
      [(⟨1000, 2000⟩ : LensPoint), ⟨2000, 2000⟩, ⟨3000, 6000⟩].map some ∧
    ([(⟨1000, 2000⟩ : LensPoint), ⟨2000, 2000⟩, ⟨3000, 6000⟩].map LensPoint.unit).Pairwise (· < ·) ∧
    (up.lmu.get 1).shadow.rows.take 3 =
      [(⟨1000, 2000⟩ : LensPoint), ⟨2000, 5200⟩, ⟨3000, 5200⟩].map some ∧
    ([(⟨1000, 2000⟩ : LensPoint), ⟨2000, 5200⟩].map LensPoint.count).Pairwise (· < ·) ∧
    (down.lmu.get 1).shadow.rows.take 3 =
      [(⟨1000, 2000⟩ : LensPoint), ⟨2000, 1200⟩, ⟨3000, 1200⟩].map some ∧
    ([(⟨1000, 2000⟩ : LensPoint), ⟨2000, 1200⟩].map LensPoint.count).Pairwise (· > ·) := by
  refine ⟨?_, by decide +kernel, by decide +kernel, by decide +kernel, by decide +kernel, ?_, by decide +kernel, by decide +kernel, least_of (by decide +kernel),
    by decide +kernel, by decide +kernel, by decide +kernel, by decide +kernel, by decide +kernel, by decide +kernel, by decide +kernel, by decide +kernel⟩
  · intro n hn k hk
    refine delivered rfl ?_
    revert n hn
    revert k hk
    decide +kernel
  · intro s hs n hn
    refine delivered rfl ?_
    simp only [List.mem_cons, List.not_mem_nil, or_false] at hs
    revert n hn
    rcases hs with rfl | rfl | rfl | rfl | rfl <;> decide +kernel

/-! ### Witnesses: the take store -/

/-- The state of a take store with a mark in slot 0 of take 1. -/
def marked : State :=
  idle.setTs (setEntry 0
    { take1 with marks := take1.marks.set 0 (some { start := 1, stop := 3, count := 2 }) } store)

/-- A node whose axes may close over 5,000 counts. -/
def wide : State :=
  marked.setCl { marked.cl with cfg := { config with axes :=
    ⟨[{ arm with closureWindow := 5000 }, { focus with closureWindow := 5000 }, AxisConfig.unused], rfl⟩ } }

theorem test_witness_MarksAndCuePointsAreEdited :
    (slotOf 1 = some 0 ∧ (entryOf marked 0).state = .stored ∧ takeInUse marked 0 = false) ∧
    (Delivered pickMark (ordered (.mark 1 7 0 4 1) wide) (cmd (.mark 1 7 0 4 1))
        (1, (7 : Fin 8).val, { start := 0, stop := 4, count := 1 }) (taken wide) ∧
      markRefusal (taken wide) 0 7 { start := 0, stop := 4, count := 1 } = none) ∧
    (∀ k : Fin 8, Delivered pickUnmark (ordered (.unmark 1 k.val) marked) (cmd (.unmark 1 k.val)) (1, k.val)
      (taken marked)) ∧
    (entryOf marked 0).marks.get 0 ≠ none ∧ (entryOf marked 0).marks.get 7 = none ∧
    (Delivered pickCuePoints (ordered (.cuePoints 1 [1, 4]) marked) (cmd (.cuePoints 1 [1, 4])) (1, [1, 4])
        (taken marked) ∧
      [1, 4].Pairwise (· < ·) ∧ ∀ k ∈ [1, 4], 1 ≤ k ∧ k < (entryOf marked 0).count) :=
  ⟨by decide, ⟨delivered rfl (by decide), by decide⟩, fun k => by
    refine delivered rfl ?_
    revert k
    decide, by decide, by decide, ⟨delivered rfl (by decide), by decide⟩⟩

/-- The refusals of R90 to R93: each operand fails its check and passes those before it. -/
theorem test_witness_edits_are_refused :
    (∀ s ∈ [marked, wide, idle.setTs { marked.ts with bulk := .load 0 3 [] }], ∀ k ∈ [0, 7, 8], ∀ b ∈ [2, 3, 4, 5],
      Delivered pickMark (ordered (.mark 1 k 1 b 1) s) (cmd (.mark 1 k 1 b 1))
        (1, k, { start := 1, stop := b, count := 1 }) (taken s) ∧
      Delivered pickUnmark (ordered (.unmark 1 k) s) (cmd (.unmark 1 k)) (1, k) (taken s) ∧
      Delivered pickTrim (ordered (.trim 1 b) s) (cmd (.trim 1 b)) (1, b) (taken s) ∧
      Delivered pickCuePoints (ordered (.cuePoints 1 [1, 4, b]) s) (cmd (.cuePoints 1 [1, 4, b]))
        (1, [1, 4] ++ b :: []) (taken s)) ∧
    takeInUse (idle.setTs { marked.ts with bulk := .load 0 3 [] }) 0 = true ∧
    (slotOf 33 = none ∧ slotOf 2 = some 1 ∧ (entryOf marked 1).state ≠ .stored) ∧
    ¬ (1 < 5 ∧ 5 < (entryOf marked 0).count) ∧
    Least (fun i => configured marked i = true ∧ ((isLens marked i = true ∧ activeMap marked i = []) ∨
      (axisCfg marked i).closureWindow < (closureGap marked 0 1 4 i : Int))) 0 ∧
    (let bare := wide.setLmu (wide.lmu.set 1 LensChannel.empty)
     Least (fun i => configured bare i = true ∧ ((isLens bare i = true ∧ activeMap bare i = []) ∨
      (axisCfg bare i).closureWindow < (closureGap bare 0 1 4 i : Int))) 1 ∧
     isLens bare 1 = true ∧ activeMap bare 1 = []) ∧
    (∀ i, ¬ (configured wide i = true ∧ ((isLens wide i = true ∧ activeMap wide i = []) ∨
      (axisCfg wide i).closureWindow < (closureGap wide 0 1 4 i : Int)))) ∧
    (entryOf wide 0).marks.get 0 = some { start := 1, stop := 3, count := 2 } ∧
    marksCross { start := 1, stop := 4, count := 1 } { start := 1, stop := 3, count := 2 } ∧
    (∃ x ∈ [1, 4], 4 ≤ x) ∧ (entryOf marked 0).count ≤ 5 ∧ (2 : Nat) < 3 := by
  refine ⟨?_, by decide +kernel, by decide +kernel, by decide +kernel, least_of (by decide +kernel), ⟨least_of (by decide +kernel), by decide +kernel⟩, by decide +kernel,
    by decide +kernel, by unfold marksCross; decide +kernel, by decide +kernel, by decide +kernel, by decide +kernel⟩
  intro s hs k hk b hb
  refine ⟨delivered rfl ?_, delivered rfl ?_, delivered rfl ?_, delivered rfl ?_⟩
  all_goals
    revert b hb
    revert k hk
    revert s hs
    decide +kernel

/-- A chain of five nested marks, the new one the innermost. -/
theorem test_witness_MarksAndCuePointsAreEdited_depth :
    let m := fun (k : Nat) => ({ start := k, stop := 20 - k, count := 1 } : Mark)
    let marks := (((take1.marks.set 0 (some (m 1))).set 1 (some (m 2))).set 2 (some (m 3))).set 3 (some (m 4))
    let s := wide.setTs (setEntry 0 { take1 with marks := marks, count := 21 } store)
    (∀ k : Fin 4, (entryOf s 0).marks.get ⟨k.val, by omega⟩ = some (m (k.val + 1))) ∧
    ([1, 2, 3, 4, 5].map m).length = 5 ∧
    ([1, 2, 3, 4, 5].map m).Pairwise (fun a b => a.start < b.start ∧ b.stop < a.stop) ∧
    markRefusal (taken s) 0 4 (m 5) = some (.markInvalid, { name := .depth }) ∧
    markRefusal (taken s) 0 3 (m 5) = none ∧
    (let placed := fun (j : Fin 8) => if j.val = 3 then some (m 5) else (entryOf s 0).marks.get j
     ∀ i : Fin 8, ∀ a ∈ placed i,
       ((List.finRange 8).filter fun j =>
         (placed j).any fun b => decide (b.start < a.start ∧ a.stop < b.stop)).length ≤ 3) := by
  decide +kernel

theorem blocksInv_store : BlocksInv store :=
  ⟨by decide +kernel, by decide +kernel, by decide +kernel⟩

theorem test_witness_TrimCutsTheTake :
    (∀ last ∈ [3], Delivered pickTrim (ordered (.trim 1 last) marked) (cmd (.trim 1 last)) (1, last)
      (taken marked) ∧ 1 ≤ last ∧ last < (entryOf marked 0).count ∧
      (∀ k m, (entryOf marked 0).marks.get k = some m → m.stop ≤ last)) ∧
    BlocksInv marked.ts ∧ Pool.wf marked.ts.pool ∧
    (entryOf marked 0).count ≤ 128 * (entryOf marked 0).blocks.length := by
  refine ⟨?_, ⟨by decide +kernel, by decide +kernel, by decide +kernel⟩, by decide, by decide⟩
  intro last h
  obtain rfl : last = 3 := by simpa using h
  refine ⟨delivered rfl (by decide), by decide, by decide, ?_⟩
  intro k m hm
  fin_cases k
  · obtain rfl := Option.some.inj hm
    decide
  all_goals cases hm

theorem test_witness_DeleteReturnsTheBlocks :
    (slotOf 1 = some 0 ∧ (entryOf idle 0).state = .stored ∧ takeInUse idle 0 = false) ∧
    Delivered pickDelete (ordered (.delete 1) idle) (cmd (.delete 1)) 1 (taken idle) ∧
    (Delivered pickDelete (ordered (.delete 2) idle) (cmd (.delete 2)) 2 (taken idle) ∧
      slotOf 33 = none ∧ (entryOf idle 1).state ≠ .stored) ∧
    (let s := idle.setTs { store with bulk := .readOut 0 3 0 1 0 [] }
     Delivered pickDelete (ordered (.delete 1) (idle.setTs { store with bulk := .load 0 3 [] }))
       (cmd (.delete 1)) 1 (taken (idle.setTs { store with bulk := .load 0 3 [] })) ∧
     takeInUse s 0 = true ∧ takeInUse (idle.setTs { store with bulk := .load 0 3 [] }) 0 = true) ∧
    (Delivered pickArmRecord (ordered (.armRecord 1 5 0x000C 300 true) idle)
        (cmd (.armRecord 1 5 0x000C 300 true)) (1, 5, 0x000C, 300, true) (taken idle) ∧
      inMask 0x000C idle.cl.station = true ∧ armCheck 1 true (taken idle) = .ok 0) :=
  ⟨by decide, delivered rfl (by decide), ⟨delivered rfl (by decide), by decide⟩,
    ⟨delivered rfl (by decide), by decide⟩, ⟨delivered rfl (by decide), by decide, rfl⟩⟩

theorem test_witness_TakesAreReported :
    (∀ low ∈ [(0 : BitVec 8), 1, 32, 33],
      Delivered pickQueryDirectory (ordered (.query 3 low) idle) (cmd (.query 3 low)) low (taken idle)) ∧
    slotOf 0 = none ∧ slotOf 33 = none ∧ slotOf 1 = some 0 ∧ slotOf 32 = some 31 ∧
    (∀ x ∈ [(4, 1), (4, 2), (5, 1), (0, 0)],
      Delivered pickTakeRead (ordered (.takeRead 1 x.1 x.2) idle) (cmd (.takeRead 1 x.1 x.2)) (1, x.1, x.2)
        (taken idle)) ∧
    idle.tc.mode = .idle ∧ idle.ts.bulk = .none ∧ (entryOf idle 0).state = .stored :=
  ⟨fun low h => by
    refine delivered rfl ?_
    revert low h
    decide, by decide, by decide, by decide, by decide, fun x h => by
    refine delivered rfl ?_
    revert x h
    decide, by decide⟩

/-- The node in CUEING. -/
def cueing : State := inMode .cueing playContext idle

theorem test_witness_TakesAreReported_refused :
    (∀ s ∈ [cueing, idle.setTs { store with bulk := .load 0 3 [] }, idle], ∀ n ∈ [0, 2, 33],
      Delivered pickTakeRead (ordered (.takeRead n 0 5) s) (cmd (.takeRead n 0 5)) (n, 0, 5) (taken s)) ∧
    cueing.tc.mode ≠ .idle ∧ (idle.setTs { store with bulk := .load 0 3 [] }).ts.bulk ≠ .none ∧
    slotOf 0 = none ∧ slotOf 33 = none ∧ slotOf 2 = some 1 ∧ (entryOf idle 1).state ≠ .stored := by
  refine ⟨?_, by decide⟩
  intro s hs n hn
  refine delivered rfl ?_
  revert n hn
  revert s hs
  decide

/-- The node in the middle of a read-out, with frames held back. -/
def reading (next : Nat) (held : List KeyframeFields) : State :=
  idle.setTs { store with bulk := .readOut 0 3 next 5 0 held }

theorem test_witness_ReadOutSendsItsKeyframes :
    let f := keyframeFrame 0 0 Keyframe.zero
    (∀ next ∈ [0, 4], (reading next []).ts.bulk = .readOut 0 3 next 5 0 [] ∧ running (reading next []) = true ∧
      next < 5 ∧ portFreeForBulk (reading next []) = true ∧ fetchOldest (reading next []) 0 = true ∧
      readoutFits (reading next []) = true) ∧
    (let s := withTx (List.replicate 4 (tx (.keyframeData f) false)) (reading 3 [])
     portFreeForBulk s = true ∧ fetchOldest s 0 = true ∧ readoutFits s = false) ∧
    (∀ next ∈ [3, 5], (reading next [f]).ts.bulk = .readOut 0 3 next 5 0 (f :: []) ∧
      readoutFits (reading next [f]) = true) := by decide

/-- The node loading take 2 from station 3. -/
def loading (written : List Nat) : State :=
  idle.setTs { store with
    dir := store.dir.set 1 { armedEntry with state := .recording, count := 3 }, free := (List.range 64).drop 2,
    bulk := .load 1 3 written }

/-- A KEYFRAME-DATA frame. -/
def keyframe (take : BitVec 8) (index : BitVec 16) : KeyframeFields :=
  { take := take, index := index, axes := Table.fill 3 ⟨7, 9⟩ }

theorem test_witness_TakesAreLoaded :
    (∀ n ∈ [1, 128, 8064],
      Delivered pickLoadBegin (ordered (.takeLoadBegin 2 1 0x000C 5 n) idle)
        (cmd (.takeLoadBegin 2 1 0x000C 5 n)) (2, 1, 0x000C, 5, n) (taken idle) ∧
      (n + 127) / 128 ≤ idle.ts.free.length) ∧
    (idle.tc.mode = .idle ∧ idle.ts.bulk = .none ∧ slotOf 2 = some 1 ∧ (entryOf idle 1).state = .empty) ∧
    (∀ f ∈ [keyframe 2 0, keyframe 2 2, keyframe 2 3, keyframe 1 0],
      TakenFrame .keyframeData (offer (.keyframeData f) (loading [0])) (entry0 (.keyframeData f))
        (taken (loading [0]))) ∧
    ((loading [0]).ts.bulk = .load 1 3 [0] ∧ (entryOf (loading [0]) 1).count = 3 ∧
      (keyframe 2 2).index.toNat < 3 ∧ (keyframe 2 2).take.toNat = takeNumber 1) ∧
    (BlocksInv (loading [0]).ts ∧ Pool.wf (loading [0]).ts.pool ∧
      (entryOf (loading [0]) 1).count ≤ 128 * (entryOf (loading [0]) 1).blocks.length) ∧
    (TakenFrame .keyframeData (offer (.keyframeData (keyframe 2 0)) idle) (entry0 (.keyframeData (keyframe 2 0)))
        (taken idle) ∧ ∀ slot loader written, idle.ts.bulk ≠ .load slot loader written) ∧
    (configured (loading [0]) 0 = true ∧ (axisCfg (loading [0]) 0).kind.isLens = false ∧
      configured (loading [0]) 1 = true ∧ (axisCfg (loading [0]) 1).kind.isLens = true ∧
      configured (loading [0]) 2 = false) ∧
    (∀ w ∈ [[0, 2], [0, 1, 2]],
      Delivered pickLoadEnd (ordered (.takeLoadEnd 2) (loading w)) (cmd (.takeLoadEnd 2)) 2
        (taken (loading w))) ∧
    (1 ∉ [0, 2] ∧ (∀ j, j < 1 → j ∈ [0, 2]) ∧ ∀ k, k < 3 → k ∈ [0, 1, 2]) := by
  refine ⟨?_, by decide, ?_, by decide, ⟨⟨by decide +kernel, by decide +kernel, by decide +kernel⟩, by decide,
    by decide⟩, ⟨takenFrame_offer (by rfl), nofun⟩, by decide, ?_, by decide⟩
  · intro n h
    refine ⟨delivered rfl ?_, ?_⟩
    all_goals
      revert n h
      decide
  · intro f h
    exact takenFrame_offer (by rfl)
  · intro w h
    refine delivered rfl ?_
    revert w h
    decide

/-- The refusals of a load: each state and operand fails its check and passes those before it. -/
theorem test_witness_TakesAreLoaded_refused :
    let full := idle.setTs { store with free := [0] }
    (∀ s ∈ [cueing, loading [], full, idle], ∀ x ∈ [(0, 1), (33, 1), (1, 1), (2, 0), (2, 8193), (2, 129), (2, 128)],
      Delivered pickLoadBegin (ordered (.takeLoadBegin x.1 1 0x000C 5 x.2) s)
        (cmd (.takeLoadBegin x.1 1 0x000C 5 x.2)) (x.1, 1, 0x000C, 5, x.2) (taken s)) ∧
    cueing.tc.mode ≠ .idle ∧ (loading []).ts.bulk ≠ .none ∧ slotOf 33 = none ∧ slotOf 0 = none ∧
    slotOf 1 = some 0 ∧ (entryOf idle 0).state ≠ .empty ∧ slotOf 2 = some 1 ∧ (entryOf full 1).state = .empty ∧
    full.ts.free.length < (129 + 127) / 128 ∧ ¬ full.ts.free.length < (128 + 127) / 128 ∧
    (∀ s ∈ [idle, loading []], ∀ n ∈ [1, 3],
      Delivered pickLoadEnd (ordered (.takeLoadEnd n) s) (cmd (.takeLoadEnd n)) n (taken s)) ∧
    (loading []).ts.bulk = .load 1 3 [] ∧ takeNumber 1 = 2 := by
  refine ⟨?_, by decide, by decide, by decide, by decide, by decide, by decide, by decide, by decide, by decide,
    by decide, ?_, by decide⟩
  · intro s hs x hx
    refine delivered rfl ?_
    revert x hx
    revert s hs
    decide +kernel
  · intro s hs n hn
    refine delivered rfl ?_
    revert n hn
    revert s hs
    decide +kernel

/-- A sample of the two axes. -/
def sample (index : Nat) : RecorderSample := { index := index, pose := ⟨[11000, 2150, 0], rfl⟩ }

/-- The node recording, with samples waiting. -/
def sampled (count : Nat) (xs : List RecorderSample) (trip : Option TakeTime) : State :=
  (recording count).setTs { (recording count).ts with waiting := xs, taintTrip := trip }

theorem test_witness_RecorderWritesItsSamples :
    (∀ k ∈ [0, 1, 2, 127], (sampled 128 [sample k] none).ts.waiting = sample k :: [] ∧
      running (sampled 128 [sample k] none) = true ∧ feederWants (sampled 128 [sample k] none) = false ∧
      (sample k).index < 128 * (entryOf (sampled 128 [sample k] none) 1).blocks.length) ∧
    (sampled 128 [] none).tc.ctx = some (armContext 1 0x1234 0x000C) ∧
    BlocksInv (sampled 128 [] none).ts ∧ Pool.wf (sampled 128 [] none).ts.pool :=
  ⟨by decide, by decide, ⟨by decide +kernel, by decide +kernel, by decide +kernel⟩, by decide⟩

/-- A recording stands as recordings do, with its block full and without, whatever waits for the store port. -/
theorem recordingStands_sampled (xs : List RecorderSample) (trip : Option TakeTime) :
    ∀ n ∈ [1, 2, 3, 127, 128], RecordingStands (sampled n xs trip) 1 := by
  have hb : ∀ n ∈ [1, 2, 3, 127, 128], ∀ slot, ((sampled n [] none).ts.dir.get slot).state = .empty →
      ((sampled n [] none).ts.dir.get slot).blocks = [] := by decide +kernel
  have hr : ∀ n ∈ [1, 2, 3, 127, 128], 1 ≤ (entryOf (sampled n [] none) 1).count ∧
      (entryOf (sampled n [] none) 1).count ≤ 128 * (entryOf (sampled n [] none) 1).blocks.length := by decide
  have hc : (List.Perm ((sampled 1 [] none).ts.free ++ heldBlocks (sampled 1 [] none).ts) allBlocks) ∧
      (sampled 1 [] none).ts.free.Pairwise (· < ·) := by decide +kernel
  have hp : Pool.wf store.pool := by decide
  have hu : ∀ i, (axisCh idle i).state ≠ .override ∧ (axisCh idle i).state ≠ .rejoin := by decide
  exact fun n hn => ⟨⟨hc.1, hc.2, hb n hn⟩, hp, hr n hn, hu⟩

/-- The node recording, its block full, with the next keyframe due and no block free. -/
def blockless : State :=
  let s := (recording 128).setPu { (recording 128).pu with t := 5242880 }
  s.setTs { s.ts with dir := s.ts.dir.set 2 { take1 with blocks := (List.range 64).drop 2 }, free := [] }

theorem recordingStands_blockless : RecordingStands blockless 1 :=
  ⟨⟨by decide +kernel, by decide +kernel, by decide +kernel⟩, by decide, by decide, by decide⟩

theorem test_witness_TaintCutsTheRecording :
    let s := sampled 3 [sample 2] (some 600000)
    s.tc.ctx = some (armContext 1 0x1234 0x000C) ∧ s.ts.taintTrip = some 600000 ∧ s.tc.mode = .recording ∧
      (entryOf s 1).state = .recording ∧ feederWants s = false ∧ 1 ≤ (entryOf s 1).count ∧
      1 ≤ (entryOf (sampled 1 [] (some 0)) 1).count ∧ ClaimsInv s ∧
      ∀ n ∈ [1, 2, 3, 127, 128], RecordingStands (sampled n [sample 2] (some 600000)) 1 :=
  ⟨by decide, by decide, by decide, by decide, by decide, by decide, by decide, claimsInv_of_empty rfl,
    recordingStands_sampled _ _⟩

/-! ### Witnesses: the take controller and the roll -/

theorem test_witness_ArmRecordArmsTheSlot :
    (Delivered pickArmRecord (ordered (.armRecord 2 5 0x0008 40 false) idle)
        (cmd (.armRecord 2 5 0x0008 40 false)) (2, 5, 0x0008, 40, false) (taken idle) ∧
      inMask 0x0008 idle.cl.station = false) ∧
    (Delivered pickArmRecord (ordered (.armRecord 2 5 0x000C 5 false) idle)
        (cmd (.armRecord 2 5 0x000C 5 false)) (2, 5, 0x000C, 5, false) (taken idle) ∧
      inMask 0x000C idle.cl.station = true ∧ armCheck 2 false (taken idle) = .ok 1) :=
  ⟨⟨delivered rfl (by decide), by decide⟩, ⟨delivered rfl (by decide), by decide, rfl⟩⟩

/-- The refusals of R102: each state and operand fails its check and passes those before it. -/
theorem test_witness_ArmRecordArmsTheSlot_refused :
    let unmapped := idle.setLmu (idle.lmu.set 1 LensChannel.empty)
    let full := idle.setTs { store with free := [] }
    (∀ s ∈ [idle, playing, idle.setTs { store with bulk := .load 0 3 [] }, unmapped, full],
      ∀ n ∈ [0, 1, 2, 32, 33],
      Delivered pickArmRecord (ordered (.armRecord n 5 0x000C 40 false) s) (cmd (.armRecord n 5 0x000C 40 false))
        (n, 5, 0x000C, 40, false) (taken s)) ∧
    inMask 0x000C idle.cl.station = true ∧ slotOf 33 = none ∧
    ¬ ((entryOf idle 0).state = .empty ∨ ((entryOf idle 0).state = .stored ∧ false = true)) ∧
    Least (fun i => isLens unmapped i = true ∧ activeMap unmapped i = []) 1 ∧
    (∀ i, ¬ (isLens idle i = true ∧ activeMap idle i = [])) ∧
    (full.ts.free = [] ∧ (entryOf full 1).state = .empty) := by
  refine ⟨?_, by decide +kernel, by decide +kernel, by decide +kernel, least_of (by decide +kernel), by decide +kernel, by decide +kernel⟩
  intro s hs n hn
  refine delivered rfl ?_
  revert n hn
  revert s hs
  decide +kernel

/-- The refusals of R103: each state and operand fails its check and passes those before it. -/
theorem test_witness_CueBeginsPositioning_refused :
    let short := idle.setTs (setEntry 0 { take1 with count := 1 } store)
    let inside := idle.setTs (setEntry 0
      { take1 with marks := take1.marks.set 5 (some { start := 1, stop := 3, count := 0 }) } store)
    let unmapped := idle.setLmu (idle.lmu.set 1 LensChannel.empty)
    let stopped := claimed .duplicate .hold idle
    (∀ s ∈ [idle, playing, short, inside, unmapped, stopped],
      Delivered pickCue (ordered (.cue 1 0xABCD .once (some 0) 0) s) (cmd (.cue 1 0xABCD .once (some 0) 0))
        (1, 0xABCD, .once, some 0, 0) (taken s) ∧ ignoresCue s 1 = false) ∧
    (∀ b ∈ [CommandBody.cue 1 0xABCD .loop none 0, .cue 2 0xABCD .once none 0, .cue 33 0xABCD .once none 0,
        .cue 1 0xABCE .once none 0, .cue 1 0xABCD .once (some 1) 0],
      running idle = true ∧ offerable (ordered b idle) [] [] (entry0 (.command 2 7 b)) = true ∧
        (pickCue b).isSome = true ∧ commandRefusal (taken idle) (cmd b) = none) ∧
    ¬ (playing.tc.mode = .idle) ∧ slotOf 33 = none ∧ (entryOf idle 1).state ≠ .stored ∧
    (entryOf idle 0).stamp ≠ 0xABCE ∧ (entryOf short 0).count < 2 ∧ 2 ≤ (entryOf idle 0).count ∧
    ((entryOf idle 0).cues[1]? = none ∧ (entryOf idle 0).cues[0]? = some 2 ∧ 2 + 1 < (entryOf idle 0).count) ∧
    Least (fun i => isLens unmapped i = true ∧ activeMap unmapped i = []) 1 ∧
    ((entryOf inside 0).marks.get 5 = some { start := 1, stop := 3, count := 0 } ∧
      ∀ j, j < 5 → (entryOf inside 0).marks.get j = none) ∧
    Least (fun i => configured idle i = true ∧ ((isLens idle i = true ∧ activeMap idle i = []) ∨
      (axisCfg idle i).closureWindow < (closureGap idle 0 0 4 i : Int))) 0 ∧
    stopped.su.effective ≠ .none := by
  refine ⟨?_, by decide +kernel, by decide +kernel, by decide +kernel, by decide +kernel, by decide +kernel, by decide +kernel, by decide +kernel, by decide +kernel, least_of (by decide +kernel),
    by decide +kernel, least_of (by decide +kernel), by decide +kernel⟩
  intro s hs
  refine ⟨delivered rfl ?_, ?_⟩
  all_goals
    revert s hs
    decide +kernel

/-- The node as station 4, which take 1 does not want. -/
def outsider : State := idle.setCl { idle.cl with station := 4 }

/-- The node without axes. -/
def axisless : State :=
  (idle.setCl { idle.cl with cfg := { config with axisCount := 0 } }).setAx AxisBlock.reset

theorem test_witness_CueBeginsPositioning :
    (Delivered pickCue (ordered (.cue 1 0xABCD .step (some 0) 0) idle)
        (cmd (.cue 1 0xABCD .step (some 0) 0)) (1, 0xABCD, .step, some 0, 0) (taken idle) ∧
      ignoresCue idle 1 = false ∧ cueCheck 1 0xABCD .step (some 0) (taken idle) = .ok (0, 2) ∧
      configured idle 0 = true ∧ configured idle 2 = false ∧ (axisCh idle 0).state ≠ .fault ∧
      (idle.lmu.get 0).pending = none) ∧
    (Delivered pickCue (ordered (.cue 1 0xABCD .once none 65535) axisless)
        (cmd (.cue 1 0xABCD .once none 65535)) (1, 0xABCD, .once, none, 65535) (taken axisless) ∧
      ignoresCue axisless 1 = false ∧ cueCheck 1 0xABCD .once none (taken axisless) = .ok (0, 0) ∧
      ∀ i, configured axisless i = false) ∧
    (let s := withAxis 0 (fun c => { c with state := .fault }) idle
     cueCheck 1 0xABCD .once none (taken s) = .ok (0, 0) ∧ (axisCh s 0).state = .fault) ∧
    (let s := idle.setCl { idle.cl with station := 4 }
     ∃ c x s1, Delivered pickCue (offer (.command 4 7 (.cue 1 0xABCD .once none 0)) s) c x s1 ∧ x.1 = 1 ∧
       ignoresCue s 1 = true) :=
  ⟨⟨delivered rfl (by decide), by decide, rfl, by decide⟩, ⟨delivered rfl (by decide), by decide, rfl, by decide⟩,
    ⟨rfl, by decide⟩,
    ⟨{ sender := 3, target := 4, tag := 7, kind := .cue }, (1, 0xABCD, .once, none, 0), taken outsider,
      ⟨⟨_, take_offer (s := outsider) rfl (by decide), rfl⟩, by decide⟩, rfl, by decide⟩⟩

/-- A CUE that has to wait, with its other operands as they would be accepted, and the grant, with its reads
before and behind other work. -/
theorem test_witness_CueBeginsPositioning_waits :
    (∀ s ∈ [leftover, cueHeld idle],
      Delivered pickCue (ordered (.cue 1 0xABCD .once none 0) s) (cmd (.cue 1 0xABCD .once none 0))
        (1, 0xABCD, .once, none, 0) (taken s) ∧ ignoresCue s 1 = false ∧ s.tc.mode = .idle ∧
        s.ts.bulk = .none) ∧
    punchWants leftover = true ∧ (cueHeld idle).tc.cues ≠ [] ∧
    (let s := cueHeld (rx [.command 2 7 (.delete 1)])
     takeOffer (picksCommand pickCue) s = none ∧ s.tc.cues = waitingCue :: [] ∧
       Block.ts ∈ ownersOf (.command 2 7 (.delete 1)) ∧
       ¬ waitingCue.since ≤ (entry0 (.command 2 7 (.delete 1))).serial) ∧
    (let s := cueHeld idle
     takeOffer (picksCommand pickCue) s = none ∧ running s = true ∧ feederWants s = false ∧
       recorderWants s = false ∧ punchWants s = false ∧ s.lc.rxq = [] ∧ fetchSince s = none) := by
  refine ⟨?_, rfl, nofun, by decide +kernel, by decide +kernel⟩
  intro s hs
  refine ⟨delivered rfl ?_, ?_⟩
  all_goals
    revert s hs
    decide +kernel

theorem test_witness_WrapEndsTheTake :
    (∀ m ∈ [Mode.idle, .cueing, .ready, .armed, .recovering, .rolling, .halted, .playing, .held, .recording],
      Delivered pickWrap (ordered .wrap (inMode m playContext idle)) (cmd .wrap) ()
        (taken (inMode m playContext idle))) ∧
    (playing.tc.mode = .playing ∧ playing.pu.r = 0 ∧ wrapPending playing = false) ∧
    (let s := playing.setPu { playing.pu with r := 1 }
     s.tc.ctx = some { playContext with roll := some 9 } ∧ playContext.wrapPending = false ∧ s.pu.r ≠ 0) ∧
    ((recording 5).tc.mode = .recording ∧ (recording 5).tc.ctx = some (armContext 1 0x1234 0x000C) ∧
      (recording 5).ts.taintTrip = none ∧ (entryOf (recording 8192) 1).count = 8192 ∧
      (entryOf (recording 128) 1).count % 128 = 0 ∧ (entryOf (recording 127) 1).count % 128 ≠ 0) ∧
    (∀ m, ClaimsInv (ordered .wrap (inMode m playContext idle))) ∧ ClaimsInv (ordered .wrap (recording 5)) ∧
    (let s := withAxis 0 (fun c => { c with state := .override, ctrl := .console 3 })
        (playing.setPu { playing.pu with r := 1 })
     (axisCh s 0).state = .override ∧ s.tc.mode = .playing ∧ s.pu.r ≠ 0) ∧
    (∀ n ∈ [1, 2, 3, 127, 128], RecordingStands (ordered .wrap (recording n)) 1) ∧
    RecordingStands (ordered .wrap blockless) 1 ∧ blockless.ts.free = [] ∧ (entryOf blockless 1).count = 128 :=
  ⟨fun m h => by
    refine delivered rfl ?_
    revert m h
    decide, by decide, by decide, by decide, fun _ => claimsInv_of_empty rfl, claimsInv_of_empty rfl, by decide,
    fun n hn => let h := recordingStands_sampled [] none n hn; ⟨h.blocks, h.pool, h.room, h.unpunched⟩,
    let h := recordingStands_blockless; ⟨h.blocks, h.pool, h.room, h.unpunched⟩, by decide, by decide⟩

/-- A ROLL of take 1. -/
def rollFrame (mode : BitVec 8) : RollFields :=
  { number := 9, take := 1, stamp := 0xABCD, signature := 18, mode := mode, startSeq := 7 }

theorem test_witness_RollIsAnswered :
    let ready := inMode .ready playContext idle
    let mute := withPeer 3 (fun e => { e with liveness := .unknown }) ready
    let stamped := { rollFrame 0 with stamp := 0xABCE }
    let signed := { rollFrame 0 with signature := 19 }
    (∀ f ∈ [rollFrame 0, rollFrame 1, rollFrame 2, rollFrame 3, stamped, signed],
      ∀ s ∈ [idle, ready, mute, rolling .play, outsider],
      TakenFrame .roll (offer (.roll f) s) (entry0 (.roll f)) (taken s)) ∧
    rollModeOf 3 = none ∧ rollModeOf 2 = some .resumeFrom ∧ rollModeOf 0 = some .play ∧
    ¬ partOfRoll outsider 1 ∧ partOfRoll idle 1 ∧ partOfRoll ready 1 ∧ (rolling .play).tc.mode = .rolling ∧
    (idle.tc.ctx = none ∧ idle.tc.mode = .idle) ∧ readyForRoll ready .play (rollFrame 0) ∧
    (ready.tc.ctx = some playContext ∧ playContext.stamp ≠ stamped.stamp ∧ playContext.stamp = signed.stamp ∧
      playContext.signature ≠ signed.signature ∧ playContext.stamp = (rollFrame 0).stamp ∧
      playContext.signature = (rollFrame 0).signature) ∧
    (isParticipant mute 3 = true ∧ (peer mute 3).liveness ≠ .live) ∧
    ∀ n, isParticipant ready n = true → (peer ready n).liveness = .live := by
  refine ⟨?_, rfl, rfl, rfl, ?_, ⟨by decide, 0, rfl, by decide, by decide⟩,
    ⟨by decide, 0, rfl, by decide, by decide⟩, rfl, ⟨rfl, rfl⟩,
    ⟨playContext, rfl, fun _ => by decide, nofun, nofun, by decide, by decide, by decide⟩, by decide, by decide,
    by decide⟩
  · intro f hf s hs
    refine takenFrame_offer ?_
    revert s hs
    revert f hf
    decide
  · rintro ⟨-, slot, h, -, hm⟩
    obtain rfl : slot = 0 := Fin.ext (by simpa using h.symm)
    revert hm
    decide

theorem test_witness_RollIsAnswered_queue :
    let ready := inMode .ready playContext idle
    (∀ n ∈ [5, 7], (taken (withTx (List.replicate n (tx (.rollAccept 1) false)) ready)).lc.txq.length = n) ∧
    (taken ready).lc.link ≠ .fault ∧ (taken (sending 0 .fault)).lc.link = .fault := by decide

theorem test_witness_RollAnswersAreCounted :
    (∀ s ∈ [rolling .play, rolling .record, idle],
      TakenFrame .rollAccept (offer (.rollAccept 9) s) (entry0 (.rollAccept 9)) (taken s) ∧
      TakenFrame .rollRefuse (offer (.rollRefuse 9 2) s) (entry0 (.rollRefuse 9 2)) (taken s)) ∧
    ((rolling .play).tc.mode = .rolling ∧ (rolling .play).tc.roll.window ≠ none ∧
      9 = (rolling .play).tc.roll.number ∧ isParticipant (rolling .play) 3 = true) ∧
    ¬ idle.tc.mode = .rolling := by
  refine ⟨?_, by decide⟩
  intro s hs
  constructor <;> refine takenFrame_offer ?_
  all_goals
    revert s hs
    decide

theorem test_witness_WindowExpiryStartsTheRoll :
    let full := fun (s : State) => s.setTc { s.tc with roll := { s.tc.roll with accepted := 0x000C } }
    let record := full (armed.setTc { armed.tc with mode := .rolling, roll := (rolling .record).tc.roll })
    ((rolling .play).tc.mode = .rolling ∧ (rolling .play).tc.roll.window ≠ none ∧
      (rolling .play).tc.ctx = some playContext) ∧
    (inMask playContext.mask 2 = true ∧ inMask (rolling .play).tc.roll.accepted 2 = false ∧
      ∀ m, m < 2 → inMask playContext.mask m = true → inMask (rolling .play).tc.roll.accepted m = true) ∧
    (∀ n : Station, inMask playContext.mask n = true →
      inMask (full (rolling .play)).tc.roll.accepted n = true) ∧
    (full (rolling .play)).tc.roll.mode = some .play ∧ (axisCh (full (rolling .play)) 0).state ≠ .fault ∧
    (record.tc.mode = .rolling ∧ record.tc.roll.window ≠ none ∧ record.tc.ctx = some (armContext 1 0x1234 0x000C) ∧
      (∀ n : Station, inMask 0x000C n = true → inMask record.tc.roll.accepted n = true) ∧
      record.tc.roll.mode = some .record ∧ (entryOf record 1).state = .armed ∧ (entryOf record 1).count = 0) := by
  decide

theorem test_witness_WindowExpiryStartsTheRoll_resume :
    let s := inMode .rolling { playContext with recovery := true, restartSeq := some 7 } (rolling .resumeFrom)
    let s := s.setFd { s.fd with restart := some entryA, suspended := true }
    let s := s.setTc { s.tc with roll := { s.tc.roll with accepted := 0x000C, startSeq := 7 } }
    (s.tc.mode = .rolling ∧ s.tc.roll.window ≠ none ∧ s.tc.ctx.isSome = true) ∧
    (∀ n : Station, inMask playContext.mask n = true → inMask s.tc.roll.accepted n = true) ∧
    s.tc.roll.mode = some .resumeFrom ∧ s.fd.restart = some entryA := by decide

theorem test_witness_MismatchIsFound :
    let s := playing.setTc { playing.tc with grace := .running 16 }
    (s.tc.grace = .running 16 ∧ s.tc.ctx = some { playContext with roll := some 9 } ∧ s.tc.mode = .playing) ∧
    ClaimsInv s ∧
    (inMask playContext.mask 3 = true ∧ some (peer s 3).roll ≠ some 9) ∧
    (let t := withPeer 2 (fun e => { e with roll := 9, mode := .halted })
        (withPeer 3 (fun e => { e with roll := 9, mode := .rolling }) s)
     ClaimsInv t ∧ ∀ n : Station, inMask playContext.mask n = true →
       some (peer t n).roll = some 9 ∧ ((peer t n).mode = .rolling ∨ (peer t n).mode = .halted)) :=
  ⟨by decide, claimsInv_of_empty rfl, by decide, claimsInv_of_empty rfl, by decide⟩

/-! ### Witnesses: the feeder and the pace unit -/

/-- The node in a STEP playback. -/
def stepping (slot : AdvanceSlot) (wait : Bool) (q : List QueueEntry) : State :=
  let s := inMode .playing { playContext with mode := .step } playing
  s.setFd { s.fd with slot := slot, sectionWait := wait, queue := q }

theorem test_witness_PlaybackIsCommanded :
    (∀ s ∈ [idle, playing, stepping .held false [], stepping .applied true [], stepping .empty true [],
        stepping .empty false [entryA, { entryB with sectionEnd := .waiting }], stepping .empty false [entryA]],
      Delivered pickAdvance (ordered .advance s) (cmd .advance) () (taken s) ∧
      Delivered pickBreak (ordered .brk s) (cmd .brk) () (taken s)) ∧
    (inPlay idle.tc.mode = false ∧ inPlay playing.tc.mode = true ∧
      playing.tc.ctx.map PlayContext.mode ≠ some .step ∧
      (stepping .empty true []).tc.ctx.map PlayContext.mode = some .step ∧
      { entryB with sectionEnd := .waiting }.sectionEnd = .waiting ∧ (∀ b ∈ [entryA], b.sectionEnd ≠ .waiting)) ∧
    (let p : Pass := { start := 1, stop := 3, remaining := 1, breakRequested := false }
     (playing.setFd { playing.fd with stack := [p] }).fd.stack = p :: [] ∧ playing.fd.stack = [] ∧
       (inMode .playing { playContext with mode := .loop } playing).tc.ctx.map PlayContext.mode = some .loop ∧
       playing.tc.ctx.map PlayContext.mode ≠ some .loop) ∧
    (let held := inMode .held playContext idle
     (∀ s ∈ [idle, held, claimed .duplicate .sever held],
       Delivered pickResume (ordered .resume s) (cmd .resume) () (taken s)) ∧
     idle.tc.mode ≠ .held ∧ held.tc.mode = .held ∧ held.su.effective = .none ∧
       (claimed .duplicate .sever held).su.effective ≠ .none) ∧
    (∀ v ∈ [0, 1024, 1025], Delivered pickMasterRate (ordered (.masterRate v) playing) (cmd (.masterRate v)) v
      (taken playing)) := by
  refine ⟨?_, by decide, by decide, ⟨?_, by decide⟩, ?_⟩
  · intro s hs
    constructor <;> refine delivered rfl ?_
    all_goals
      revert s hs
      decide
  all_goals
    intro s hs
    refine delivered rfl ?_
    revert s hs
    decide

/-- A MASTER-RATE of 992 or of 0 moves the local ceiling by 32 and more, one of 993 does not. -/
theorem test_witness_PlaybackIsCommanded_announces :
    let s := playing.setPu { playing.pu with announced := 1024 }
    let at' := fun (v : Nat) => s.setPu { s.pu with master := v }
    pacesIn s.tc.mode = true ∧ (taken s).lc.link ≠ .fault ∧
    ((localCeiling (at' 992) : Int) - (s.pu.announced : Int)).natAbs = 32 ∧
    ((localCeiling (at' 993) : Int) - (s.pu.announced : Int)).natAbs = 31 := by decide

/-- The node building in a mode, with marks, a stack and a cursor. -/
def building (m : PlayMode) (k : Nat) (stack : List Pass) (pose : Option Keyframe) : State :=
  let s := inMode .playing { playContext with mode := m } (playing.setTs marked.ts)
  s.setFd { s.fd with
    stack := stack, cursor := { arrival := k, source := k, t0 := 81920, atRest := false, pose := pose } }

theorem test_witness_FeederBuildsTheNextEntry :
    let q := frameAt 10800 20000 2100 0
    let m : Mark := { start := 1, stop := 3, count := 2 }
    (∀ k ∈ [0, 1, 2, 3], feederWants (building .loop k [] none) = true ∧
      (building .loop k [] none).fd.cursor.pose = none ∧ (building .loop k [] none).fd.sourceRead = none ∧
      (building .loop k [] (some q)).fd.cursor.pose.or (building .loop k [] (some q)).fd.sourceRead = some q) ∧
    (building .step 1 [] none).tc.ctx = some { playContext with mode := .step } ∧
    ((entryOf (building .once 1 [] none) 0).marks.get 0 = some m ∧ m.start = 1) ∧
    (2 ∈ (entryOf (building .step 1 [] none) 0).cues ∧ 3 + 1 = (entryOf (building .loop 3 [] none) 0).count - 1) ∧
    (∃ p ∈ (building .once 1 [{ start := 1, stop := 3, remaining := 2, breakRequested := false }] none).fd.stack.head?,
      p.start = m.start ∧ p.stop = m.stop) := by decide

theorem test_witness_FeederBuildsTheNextEntry_marks (j : Fin 8) (n : Mark)
    (hn : (entryOf (building .once 1 [] none) 0).marks.get j = some n) (_h : n.start = 1) : j = 0 := by
  fin_cases j
  · rfl
  all_goals cases hn

theorem test_witness_PaceStepMovesTheClocks :
    let s := playing.setPu { playing.pu with r := 100 }
    (running s = true ∧ ClaimsInv s) ∧ (running idle = true ∧ ClaimsInv idle) ∧
    (running (recording 1) = true ∧ ClaimsInv (recording 1) ∧ (recording 1).tc.mode = .recording ∧
      (recording 1).pu.slices = []) ∧
    (s.tc.mode = .playing ∧ s.fd.sectionWait = false ∧ holdPoint s.fd = none ∧ s.pu.slices = []) ∧
    (let shifted := s.setPu { s.pu with slices := [-93, 5] }
     ClaimsInv shifted ∧ shifted.pu.slices = -93 :: [5]) ∧
    (let waiting := s.setFd { s.fd with sectionWait := true }
     ClaimsInv waiting ∧ waiting.fd.sectionWait = true) ∧
    (let held := s.setFd { s.fd with queue := [{ entryA with sectionEnd := .waiting }] }
     ClaimsInv held ∧ holdPoint held.fd = some 40960) ∧
    (let wrapping := inMode .playing { playContext with wrapPending := true } playing
     ClaimsInv wrapping ∧ wrapPending wrapping = true) ∧
    (let stopped := playing.setSu { playing.su with
       own := [{ cause := .peerMismatch, cls := .hold }], effective := .hold }
     ClaimsInv stopped ∧ stopped.su.effective = .hold ∧ wrapPending stopped = false ∧
       ∀ e ∈ stopped.fd.queue, e.final = false) :=
  ⟨⟨by decide, claimsInv_of_empty rfl⟩, ⟨by decide, claimsInv_of_empty rfl⟩,
    ⟨by decide, claimsInv_of_empty rfl, by decide⟩, by decide, ⟨claimsInv_of_empty rfl, by decide⟩,
    ⟨claimsInv_of_empty rfl, by decide⟩, ⟨claimsInv_of_empty rfl, by decide⟩,
    ⟨claimsInv_of_empty rfl, by decide⟩, ⟨⟨by decide, by decide, by decide, by decide, by decide⟩, by decide⟩⟩

/-- Steps at which the strain ceiling and the cue input move the local ceiling by 32 or more, and one at which the
playback with WRAP pending ends. -/
theorem test_witness_PaceStepMovesTheClocks_ends :
    let strained := playing.setPu { playing.pu with strain := 992, clampReport := true }
    let cued := playing.setCl { playing.cl with cfg := { config with cueMode := .runLevel } }
    let wrapping := inMode .playing { playContext with wrapPending := true } playing
    let step := paceStepEffect false { reportFirst := true, updates := [] }
    (running strained = true ∧ strained.pu.announced = 1024 ∧ (step strained).pu.announced = 976 ∧
      ClaimsInv strained) ∧
    (cued.pu.cueTerm = 1024 ∧ (step cued).pu.announced = 0 ∧ ClaimsInv cued) ∧
    (ClaimsInv wrapping ∧ wrapping.tc.mode ≠ .idle ∧ (step wrapping).tc.mode = .idle) :=
  ⟨⟨by decide +kernel, by decide +kernel, by decide +kernel, claimsInv_of_empty rfl⟩,
    ⟨by decide +kernel, by decide +kernel, claimsInv_of_empty rfl⟩, claimsInv_of_empty rfl, by decide +kernel⟩

theorem test_witness_ShiftIsSliced :
    let s := fun (sum : Int) (n : Nat) (pending : List Int) =>
      playing.setPu { playing.pu with offsetSum := sum, offsetCount := n, slices := pending }
    (inPlay playing.tc.mode = true ∧ playing.pu.alignTimer ≠ none ∧ playing.pu.offsetCount = 0) ∧
    ((s 64 1 [5]).pu.offsetCount ≠ 0 ∧ (s 64 1 [5]).pu.slices ≠ []) ∧
    (s 64 1 []).pu.slices = [] ∧
    (max (-2048) (min 2048 (rndDiv 31 (2 * 1)))).natAbs = 16 ∧
    (max (-2048) (min 2048 (rndDiv 30 (2 * 1)))).natAbs < 16 ∧
    max (-2048) (min 2048 (rndDiv (-8192) (2 * 1))) = -2048 := by decide

theorem test_witness_PinEdgesAreTaken :
    let cue := fun (m : CueInputMode) (s : State) => s.setCl { s.cl with cfg := { config with cueMode := m } }
    running idle = true ∧ idle.tc.mode ≠ .recording ∧ idle.tc.mode ≠ .playing ∧
    playing.tc.mode = .playing ∧ playing.pu.marker = none ∧
    (playing.setPu { playing.pu with marker := some { time := 0, seq := 0 } }).pu.marker ≠ none ∧
    idle.cl.cfg.cueMode = .none ∧ (cue .advanceEdge (stepping .empty false [])).cl.cfg.cueMode = .advanceEdge ∧
    inPlay (stepping .empty false []).tc.mode = true ∧
    (stepping .empty false []).tc.ctx.map PlayContext.mode = some .step ∧ (cue .runLevel idle).cl.cfg.cueMode ≠ .none ∧
    (idle.cl.cfg.inputs.get 0).mode = .level ∧ (idle.cl.cfg.inputs.get 1).mode = .edge ∧
    idle.tc.mode ≠ .unconfigured ∧ (inMode .unconfigured playContext idle).tc.mode = .unconfigured := by decide

/-! ### Witnesses: the guard and the stop unit -/

theorem test_witness_GuardSampleIsTaken :
    let line := fun (n : Nat) => idle.setSu { idle.su with lineOpen := true, closedRun := n }
    running idle = true ∧ filterChanges idle 0xFD = false ∧
    (let s := idle.setGu { idle.gu with inputs := idle.gu.inputs.set 0 { GuardInput.reset with run := 2 } }
     filterChanges s 0xFD = true ∧ (s.cl.cfg.inputs.get 0).filterLength = (s.gu.inputs.get 0).run + 1) ∧
    ((line 9).su.lineOpen = true ∧ (line 9).su.openLatch = false ∧ 9 ≤ (line 9).su.closedRun) ∧
    (line 8).su.closedRun < 9 ∧ idle.su.lineOpen = false ∧ idle.tc.mode ≠ .unconfigured ∧
    (zoneOf idle 0).armed = true ∧ (zoneOf idle 2).armed = false ∧
    (zoneOf idle 1).state = .clear ∧ actionClass (zoneCfg idle 1).action = some .halt ∧
    (let held := fun (st : ZoneState) => idle.setGu { idle.gu with
        zones := idle.gu.zones.set 1 { (zoneOf idle 1) with state := st, edges := 2 } }
     (zoneOf (held .occupied) 1).state = .occupied ∧ (zoneOf (held .vacated) 1).state = .vacated) := by decide

/-- The trip record of zone 1 in a playback: the stop line is sampled after the zones, or opens before them. -/
theorem test_witness_GuardSampleIsTaken_trip :
    let s := playing.setGu { playing.gu with
      zones := playing.gu.zones.set 1 { zoneOf playing 1 with edges := 2 } }
    let modeOf := fun (closed first : Bool) =>
      (zoneOf (guardSample 0xFD closed first s) 1).trip.map fun t => (t.mode, t.seq)
    (zoneOf s 1).trip = none ∧ (zoneCfg s 0).action = .scale ∧ s.su.lineOpen = false ∧
    (zoneOf s 1).state = .clear ∧ (∀ y : Zone, y < 1 → y = 0) ∧
    modeOf false false = some (.playing, 7) ∧ modeOf true true = some (.playing, 7) ∧
    modeOf false true = some (.halted, 7) := by decide +kernel

/-- A sample at which zone 1 raises the class, with none released, and one at which zone 0 alone is occupied and
moves the ceiling by 512. -/
theorem test_witness_GuardSampleIsTaken_class :
    let edge := fun (z : Zone) (e : BitVec 8) => playing.setGu { playing.gu with
      zones := playing.gu.zones.set z { zoneOf playing z with edges := e } }
    let scale := playing.setGu { playing.gu with
      inputs := playing.gu.inputs.set 0 { GuardInput.reset with filtered := true } }
    let t := guardSample 0xFD true false (edge 1 2)
    let u := guardSample 0xFD true false scale
    (ClaimsInv (edge 1 2) ∧ (∀ z, (zoneOf (edge 1 2) z).state ≠ .occupied) ∧
      (edge 1 2).su.lineOpen = false ∧ (edge 1 2).su.effective = .none ∧ t.su.effective = .halt) ∧
    ((∀ z, (zoneCfg scale z).action ≠ .scale → (zoneOf u z).state = (zoneOf scale z).state) ∧
      scale.su.own = [] ∧ u.su.lineOpen = scale.su.lineOpen ∧
      scale.gu.ceiling = 1024 ∧ u.gu.ceiling = 512 ∧ pacesIn scale.tc.mode = true) := by
  refine ⟨⟨claimsInv_of_empty rfl, ?_⟩, ?_⟩
  all_goals decide +kernel

/-- An edge that was latched before zone 1 was armed, and one that was latched since. -/
theorem test_witness_edges_and_arming :
    let pin := fun (since : BitVec 8) => idle.setGu { idle.gu with
      inputs := idle.gu.inputs.set 1 { GuardInput.reset with latch := true, armedSince := since } }
    (∀ z ∈ [(0 : BitVec 8), 2], ((pin z).gu.inputs.get 1).latch = true ∧
      (((pin z).gu.inputs.get 1).armedSince.getLsbD (1 : Zone).val = true ↔ z = 2)) ∧
    (zoneCfg idle 1).mask.getLsbD (1 : Input).val = true := by decide

theorem test_witness_ZonesAreCommanded :
    (Delivered pickZoneArm (ordered (.zoneArm 0xFF) idle) (cmd (.zoneArm 0xFF)) 0xFF (taken idle) ∧
      Delivered pickZoneDisarm (ordered (.zoneDisarm 1) idle) (cmd (.zoneDisarm 1)) 1 (taken idle) ∧
      Delivered pickZoneAck (ordered (.zoneAck 2) idle) (cmd (.zoneAck 2)) 2 (taken idle)) ∧
    ((0xFF : BitVec 8).getLsbD (7 : Zone).val = true ∧ (1 : BitVec 8).getLsbD (1 : Zone).val = false ∧
      (zoneOf idle 7).armed = false ∧ (zoneOf idle 7).state = .clear ∧ (zoneOf idle 0).armed = true) ∧
    ClaimsInv (ordered (.zoneArm 0xFF) idle) ∧
    (∀ st ∈ [ZoneState.clear, .vacated, .occupied],
      (zoneOf (idle.setGu { idle.gu with
        zones := idle.gu.zones.set 1 { (zoneOf idle 1) with state := st } }) 1).state = st) :=
  ⟨⟨delivered rfl (by decide), delivered rfl (by decide), delivered rfl (by decide)⟩, by decide,
    claimsInv_of_empty rfl, by decide⟩

theorem test_witness_StopsAreCleared :
    (takeOffer (picksCommand pickStopClear) (ordered (.stopClear 16) idle) =
        some (entry0 (.command 2 7 (.stopClear 16)), taken idle) ∧
      commandOf pickStopClear (entry0 (.command 2 7 (.stopClear 16))) = some (cmd (.stopClear 16), 16)) ∧
    (∀ n : Station, Delivered pickStopClear (ordered (.stopClear n.val) idle) (cmd (.stopClear n.val)) n.val
      (taken idle)) ∧
    (2 = idle.cl.station ∧ (peer idle 3).liveness = .live ∧ (peer idle 15).liveness = .unknown) ∧
    (let mute := withPeer 3 (fun e => { e with liveness := .silent, silence := none }) idle
     (peer mute 3).liveness = .silent ∧ 3 ≠ mute.cl.station ∧ ClaimsInv mute) ∧
    (∀ s ∈ [idle, claimed .duplicate .sever idle],
      Delivered pickRearm (ordered .rearm s) (cmd .rearm) () (taken s)) ∧
    (claimed .duplicate .sever idle).su.effective = .sever ∧ idle.su.effective ≠ .sever := by
  refine ⟨⟨take_ordered rfl (by decide), commandOf_ordered rfl⟩, ?_, by decide,
    ⟨by decide, by decide, claimsInv_of_empty rfl⟩, ?_, by decide⟩
  · intro n
    refine delivered rfl ?_
    revert n
    decide
  · intro s hs
    refine delivered rfl ?_
    revert s hs
    decide

/-- The node halted at sequence number 7. -/
def halted (s : State) : State :=
  inMode .halted { playContext with roll := some 9, haltSeq := some 7 } (s.setFd playing.fd)

theorem test_witness_RecoverBeginsPositioning_taken :
    ∀ n ∈ [(7 : BitVec 16), 6, 5], ∀ s ∈ [idle, halted idle, claimed .duplicate .halt (halted idle), halted (idle.setSu StopUnit.reset),
      halted axisless], Delivered pickRecover (ordered (.recover n) s) (cmd (.recover n)) n (taken s) := by
  intro n hn s hs
  refine delivered rfl ?_
  simp only [List.mem_cons, List.not_mem_nil, or_false] at hn hs
  rcases hn with rfl | rfl | rfl <;> rcases hs with rfl | rfl | rfl | rfl | rfl <;> decide

theorem test_witness_RecoverBeginsPositioning :
    ((halted idle).tc.mode = .halted ∧ (halted idle).su.effective = .none ∧ (halted idle).su.driveLatch = true ∧
      ((halted idle).tc.ctx.bind PlayContext.haltSeq).getD 0 = 7) ∧
    ((claimed .duplicate .halt (halted idle)).su.effective ≠ .none ∧
      (halted (idle.setSu StopUnit.reset)).su.driveLatch = false) ∧
    (∀ e ∈ (halted idle).fd.queue ++ (halted idle).fd.retired.toList, e.seq ≠ 6) ∧
    ((halted idle).fd.queue ++ (halted idle).fd.retired.toList = [] ++ entryA :: [entryB] ∧ entryA.seq = 7) ∧
    (∃ i, configured (halted idle) i = true) ∧ (∀ i, configured (halted axisless) i = false) ∧
    (axisCh (halted idle) 0).state ≠ .fault ∧
    (axisCh (withAxis 0 (fun c => { c with state := .fault }) (halted idle)) 0).state = .fault ∧
    (halted idle).tc.ctx = some { playContext with roll := some 9, haltSeq := some 7 } ∧
    ((halted idle).lmu.get 0).pending = none := by decide

/-! ### Witnesses: punching, and START -/

/-- The node playing with axis 0 in a state. -/
def axisIn (st : AxisState) (ctrl : Controller) : State :=
  withAxis 0 (fun c => { c with state := st, ctrl := ctrl }) playing

theorem test_witness_PunchesAreWritten_in :
    (∀ s ∈ [idle, playing, axisIn .follow .take, claimed .duplicate .halt (axisIn .follow .take),
        (axisIn .follow .take).setSu StopUnit.reset], ∀ n ∈ [0, 2],
      Delivered pickPunchIn (ordered (.punchIn n true) s) (cmd (.punchIn n true)) (n, true) (taken s)) ∧
    idle.tc.mode ≠ .playing ∧ playing.tc.mode = .playing ∧ namedAxis (taken playing) 3 = none ∧
    namedAxis (taken playing) 2 = none ∧ namedAxis (taken playing) 0 = some 0 ∧
    (axisCh playing 0).state ≠ .follow ∧ (axisCh (axisIn .follow .take) 0).state = .follow ∧
    (claimed .duplicate .halt (axisIn .follow .take)).su.effective ≠ .none ∧
    ((axisIn .follow .take).setSu StopUnit.reset).su.driveLatch = false ∧
    (axisIn .follow .take).tc.ctx = some { playContext with roll := some 9 } ∧
    ((axisIn .follow .take).su.effective = .none ∧ (axisIn .follow .take).su.driveLatch = true) := by
  refine ⟨?_, by decide⟩
  intro s hs n hn
  refine delivered rfl ?_
  revert n hn
  revert s hs
  decide

theorem test_witness_PunchesAreWritten_out :
    let punched := axisIn .override (.console 3)
    (∀ s ∈ [idle, playing, punched], ∀ n ∈ [0, 2],
      Delivered pickPunchOut (ordered (.punchOut n) s) (cmd (.punchOut n)) n (taken s)) ∧
    inPlay idle.tc.mode = false ∧ inPlay punched.tc.mode = true ∧ (axisCh playing 0).state ≠ .override ∧
    (axisCh punched 0).state = .override ∧ (axisCh punched 0).ctrl = .console 3 ∧
    (rejoinTarget punched = some entryB ∧ 0 < (endTime entryB - punched.pu.t).toInt ∧
      ∀ b ∈ punched.fd.queue, (endTime b - punched.pu.t).toInt < 1024 * (punched.cl.cfg.rejoinTime : Int)) ∧
    (let late := punched.setPu { punched.pu with t := endTime entryB }
     rejoinTarget late = some entryB ∧ (endTime entryB - late.pu.t).toInt = 0) ∧
    (let soon := punched.setCl { punched.cl with cfg := { config with rejoinTime := 80 } }
     soon.fd.queue = [entryA] ++ entryB :: [] ∧
       (∀ b ∈ [entryA], (endTime b - soon.pu.t).toInt < 1024 * (soon.cl.cfg.rejoinTime : Int)) ∧
       1024 * (soon.cl.cfg.rejoinTime : Int) = (endTime entryB - soon.pu.t).toInt) := by
  refine ⟨?_, by decide⟩
  intro s hs n hn
  refine delivered rfl ?_
  revert n hn
  revert s hs
  decide

/-- The punch writer's sample for keyframe k of take 1. -/
def punchAt (k : Nat) : State :=
  let s := inMode .held playContext idle
  { s with
    fd := { s.fd with finalBuilt := true },
    ax := { s.ax with
      punches := [{ ident := 0, axis := 0, console := 3, take := 0, writing := true, lastWritten := none,
                    counted := false, ended := false }],
      samples := [{ ident := 0, keyframe := k, pos := 12000 }] } }

theorem test_witness_PunchesAreWritten_write :
    (∀ k ∈ [0, 1, 2, 4], (punchAt k).ax.samples = { ident := 0, keyframe := k, pos := 12000 } :: [] ∧
      running (punchAt k) = true ∧ feederWants (punchAt k) = false ∧ recorderWants (punchAt k) = false ∧
      ((punchAt k).ax.punches.find? (fun q => q.ident == 0)).isSome = true ∧
      (∀ q ∈ (punchAt k).ax.punches, q.ended = false) ∧ (entryOf (punchAt k) 0).state = .stored ∧
      k < (entryOf (punchAt k) 0).count) ∧
    BlocksInv (punchAt 0).ts ∧ Pool.wf (punchAt 0).ts.pool ∧
    (entryOf (punchAt 0) 0).count ≤ 128 * (entryOf (punchAt 0) 0).blocks.length :=
  ⟨by decide, blocksInv_store, by decide, by decide⟩

/-- A hold point with a slice at hand, reached and not; a head whose end T has reached; a keyframe that is due,
with room and without. -/
theorem test_witness_PaceStepMovesTheClocks_more :
    let s := playing.setPu { playing.pu with r := 100, slices := [20, 20] }
    let hold := s.setFd { s.fd with queue := [{ entryA with sectionEnd := .waiting }] }
    (ClaimsInv hold ∧ holdPoint hold.fd = some 40960 ∧ hold.pu.slices = 20 :: [20]) ∧
    ((40960 - 40840 : BitVec 32).toInt = 120 ∧ (40960 - 40839 : BitVec 32).toInt = 121) ∧
    (inPlay s.tc.mode = true ∧ s.fd.suspended = false ∧ s.fd.queue = [] ++ entryA :: [entryB]) ∧
    (1024 * (entryA.dur : Int) = (40960 - entryA.t0 : TakeTime).toInt ∧ entryA.final = false) ∧
    (let last := s.setFd { s.fd with queue := [entryA, { entryB with final := true }] }
     last.fd.queue = [entryA] ++ { entryB with final := true } :: [] ∧ last.su.effective ≠ .hold ∧
       ClaimsInv last) ∧
    ((activePunch (punchAt 1) 0).isSome = true ∧ ((activePunch (punchAt 1) 0).filter PunchRecord.writing).isSome = true) ∧
    (∀ n ∈ [1, 128, 8192], (recording n).tc.mode = .recording ∧ (recording n).ts.taintTrip = none ∧
      (entryOf (recording n) 1).state = .recording ∧ (entryOf (recording n) 1).count = n ∧
      (recording n).ts.free ≠ []) ∧
    (let u := blockless
     RecordingStands u 1 ∧ running u = true ∧ ClaimsInv u ∧ u.tc.mode = .recording ∧
       u.tc.ctx = some (armContext 1 0x1234 0x000C) ∧ u.ts.taintTrip = none ∧ (entryOf u 1).state = .recording ∧
       (u.pu.t - BitVec.ofNat 32 ((entryOf u 1).count * (entryOf u 1).interval * 1024)).toInt = 0 ∧
       (entryOf u 1).count % 128 = 0 ∧ (entryOf u 1).count ≠ 0 ∧ u.ts.free = []) := by
  refine ⟨⟨claimsInv_of_empty rfl, by decide⟩, by simp, by decide, by decide +kernel,
    ⟨rfl, by decide, claimsInv_of_empty rfl⟩, by decide, by decide +kernel,
    recordingStands_blockless, by decide, claimsInv_of_empty rfl, by decide +kernel⟩

/-- The punch writer's last sample of a punch that has ended, or one of several. -/
def endedAt (k : Nat) (more : List PunchSample) : State :=
  let s := punchAt k
  s.setAx { s.ax with
    punches := s.ax.punches.map (fun p => { p with ended := true, writing := false }),
    samples := s.ax.samples ++ more }

theorem test_witness_PunchesAreWritten_ended :
    let p : PunchRecord := { ident := 0, axis := 0, console := 3, take := 0, writing := false, lastWritten := none,
                             counted := false, ended := true }
    (∀ k ∈ [1, 2, 4], (endedAt k []).ax.samples = { ident := 0, keyframe := k, pos := 12000 } :: [] ∧
      (endedAt k []).ax.punches = [] ++ p :: [] ∧ running (endedAt k []) = true ∧
      feederWants (endedAt k []) = false ∧ recorderWants (endedAt k []) = false ∧
      (entryOf (endedAt k []) 0).state = .stored ∧ k < (entryOf (endedAt k []) 0).count) ∧
    (let more := [({ ident := 0, keyframe := 2, pos := 12100 } : PunchSample)]
     (endedAt 1 more).ax.samples = { ident := 0, keyframe := 1, pos := 12000 } :: more ∧
       ∀ q ∈ (endedAt 1 more).ax.punches, q.ended = true → ∃ y ∈ more, y.ident = q.ident) ∧
    BlocksInv (endedAt 1 []).ts ∧ Pool.wf (endedAt 1 []).ts.pool ∧
    (entryOf (endedAt 1 []) 0).count ≤ 128 * (entryOf (endedAt 1 []) 0).blocks.length :=
  ⟨by decide +kernel, by decide +kernel, blocksInv_store, by decide +kernel, by decide +kernel⟩

/-- The take of a punch's samples is tainted meanwhile, recorded over by an ARM-RECORD. -/
def taintedUnder (s : State) : State := s.setTs (setEntry 0 { entryOf s 0 with taint := some 0 } s.ts)

/-- No write into a tainted take, with the punch going on, with a further sample of it, and at its end; none beyond
the last keyframe. -/
theorem test_witness_PunchesAreWritten_none :
    let more := [({ ident := 0, keyframe := 2, pos := 12100 } : PunchSample)]
    (∀ s ∈ [taintedUnder (punchAt 1), taintedUnder (endedAt 1 []), taintedUnder (endedAt 1 more), punchAt 5],
      (∃ x rest p, s.ax.samples = x :: rest ∧ s.ax.punches = [] ++ p :: [] ∧ p.ident = x.ident ∧
        ¬ punchTakes s p.take x.keyframe) ∧
      running s = true ∧ feederWants s = false ∧ recorderWants s = false) ∧
    ((punchAt 5).ax.punches.all (fun p => !p.ended) ∧ (endedAt 1 []).ax.punches.all PunchRecord.ended) ∧
    punchTakes (punchAt 1) 0 1 ∧ ¬ punchTakes (taintedUnder (punchAt 1)) 0 1 := by
  refine ⟨?_, by decide +kernel⟩
  intro s hs
  simp only [List.mem_cons, List.not_mem_nil, or_false] at hs
  rcases hs with rfl | rfl | rfl | rfl <;>
    exact ⟨⟨_, _, _, rfl, rfl, rfl, by decide +kernel⟩, by decide +kernel⟩

/-- PUNCH-OUT with a keyframe written and no sample waiting, with one waiting, with nothing written, and in
HALTED. -/
theorem test_witness_PunchesAreWritten_fixup :
    let p := fun (b : Option Nat) => ({ ident := 0, axis := 0, console := 3, take := 0, writing := true, lastWritten := b,
                                        counted := true, ended := false } : PunchRecord)
    let punched := axisIn .override (.console 3)
    let s := fun (b : Option Nat) (xs : List PunchSample) =>
      punched.setAx { punched.ax with punches := [p b], samples := xs }
    (∀ b ∈ [none, some 1, some 4], ∀ xs ∈ [[], [({ ident := 0, keyframe := 4, pos := 9 } : PunchSample)]],
      Delivered pickPunchOut (ordered (.punchOut 0) (s b xs)) (cmd (.punchOut 0)) 0 (taken (s b xs)) ∧
      (s b xs).ax.punches = [] ++ p b :: []) ∧
    (BlocksInv (s (some 4) []).ts ∧ (entryOf (s (some 4) []) 0).state = .stored ∧
      (entryOf (s (some 4) []) 0).count = 5 ∧ ¬ punchTakes (taintedUnder (s (some 4) [])) 0 4) ∧
    (Delivered pickPunchOut (ordered (.punchOut 0) (halted idle)) (cmd (.punchOut 0)) 0 (taken (halted idle)) ∧
      (halted idle).tc.mode = .halted ∧ namedAxis (taken (halted idle)) 0 = some 0) := by
  refine ⟨?_, ⟨blocksInv_store, by decide +kernel, by decide +kernel⟩, ⟨delivered rfl (by decide +kernel), by decide +kernel, by decide +kernel⟩⟩
  intro b hb xs hx
  refine ⟨delivered rfl ?_, rfl⟩
  simp only [List.mem_cons, List.not_mem_nil, or_false] at hb hx
  rcases hb with rfl | rfl | rfl <;> rcases hx with rfl | rfl <;> decide +kernel

/-- A memory that does not answer. -/
def noPins : StartPins := { straps := 9, cueLow := false, markLow := false, loopClosed := true }

theorem test_witness_ResetsAndTheEndOfStart :
    Delivered pickReset (ordered .reset idle) (cmd .reset) () (taken idle) ∧
    (State.reset.tc.mode = .start ∧ State.reset.cl.pinLow = false ∧ State.reset.lc.link ≠ .fault ∧
      State.reset.lc.txq = []) ∧
    ¬ (idle.tc.mode = .start ∧ idle.cl.pinLow = false) ∧
    ([] : List (BitVec 8)).head? ≠ some 0x5C ∧ ([0x5C, 9] : List (BitVec 8)).head? = some 0x5C :=
  ⟨delivered rfl (by decide), by decide, by decide, by decide, by decide⟩

theorem test_witness_EncodedPayloadDecodes :
    encodePayload paceFrame = some [0, 5, 1024, 2000] ∧ encodePayload (.rollRefuse 9 4) = some [0x0904] ∧
    (∀ v ∈ [false, true], unstuff (false :: true :: false :: List.replicate 6 v) = .violation v) ∧
    ¬ sixInRow false ([false, true] ++ List.replicate 5 false) ∧
    ¬ sixInRow true ([false, true] ++ List.replicate 5 false) := by
  unfold sixInRow
  decide

theorem test_witness_StepsKeepTheInvariants :
    step { State.reset with pending := [.powerOnReset] } = .next State.reset ∧
    QueuesInv State.reset ∧ RatesInv State.reset ∧ ContextInv State.reset ∧ ClaimsInv State.reset ∧
    LatchInv State.reset ∧ BlocksInv State.reset.ts ∧ Pool.wf State.reset.ts.pool ∧ SetpointInv State.reset := by
  refine ⟨rfl, ⟨by decide, .nil, by decide, by decide⟩, ⟨by decide, by decide, by decide, by decide, by decide,
    by decide, by decide⟩, rfl, ⟨by decide, by decide, by decide, by decide, by decide⟩, nofun,
    ⟨by decide +kernel, by decide +kernel, by decide +kernel⟩, by decide,
    ⟨by decide, fun i h => absurd h (by revert i; decide), fun i h => absurd h (by revert i; decide)⟩⟩

/-! ### The checks of WellFormed refuse -/

theorem test_wf_image :
    imageWf [] = true ∧ imageWf (List.replicate 490 0) = true ∧ imageWf (List.replicate 489 0) = false ∧
    (Instr.endOfStart [0x5C] noPins).wf = false := by decide +kernel

/-- A line with one bit more than a frame of 15 words with its stuff bits. -/
def longFrame : LineFrame := { line := List.replicate 342 false, fields := paceFrame }

theorem test_wf_frame :
    (Instr.frameArrives (lineFrame 3 paceFrame)).wf = true ∧ longFrame.wf = false ∧
    ({ line := [], fields := .command 0 0 (.stopClear 65536) } : LineFrame).wf = false ∧
    contradictory.wf = false := by decide +kernel

/-- No axis has two servo updates at one publication. -/
theorem test_wf_pace_order :
    (Instr.paceStep true ⟨false, [⟨1, [], false⟩, ⟨1, [], true⟩]⟩).wf = false ∧
    (Instr.paceStep true ⟨false, [⟨1, [], false⟩, ⟨0, [], true⟩]⟩).wf = true := by decide

theorem test_wf_bodies :
    ([.stopClear 65536, .armRecord 256 0 0 0 true, .armRecord 0 0 0 65536 true, .cue 256 0 .once none 0,
      .cue 0 0 .once (some 256) 0, .cue 0 0 .once none 65536, .punchIn 256 true, .punchOut 256, .masterRate 65536,
      .mark 256 0 0 0 0, .mark 0 256 0 0 0, .mark 0 0 65536 0 0, .mark 0 0 0 65536 0, .mark 0 0 0 0 256,
      .unmark 256 0, .unmark 0 256, .cuePoints 256 [], .cuePoints 0 [8192], .cuePoints 0 (List.replicate 17 1)] ++
     [.trim 256 0, .trim 0 65536, .delete 256, .lensPoint 256 0 0 0, .lensPoint 0 256 0 0, .lensPoint 0 0 65536 0,
      .lensPoint 0 0 0 2147483648, .lensPoint 0 0 0 (-2147483649), .lensCommit 256 0, .lensCommit 0 256,
      .faultClear 256, .takeRead 256 0 0, .takeRead 0 65536 0, .takeRead 0 0 65536, .takeLoadBegin 256 0 0 0 0,
      .takeLoadBegin 0 0 0 65536 0, .takeLoadBegin 0 0 0 0 65536, .takeLoadEnd 256] : List CommandBody).all
        (fun b => !b.wf) = true ∧
    (CommandBody.cuePoints 255 (List.replicate 16 8191)).wf = true := by decide +kernel

/-- A directory report of an EMPTY entry. -/
def directory : DirectoryFields :=
  { tag := 0, state := .empty, stamp := 0, mask := 0, interval := 0, count := 0, signature := 0, editCount := 0,
    taint := none, endCause := none, marks := 0, cuePoints := 0, freeBlocks := 0 }

theorem test_wf_payloads :
    (Payload.directoryEntry directory).wf = true ∧
    (Payload.directoryEntry { directory with interval := 65536 }).wf = false ∧
    (Payload.directoryEntry { directory with count := 65536 }).wf = false ∧
    (Payload.directoryEntry { directory with cuePoints := 256 }).wf = false ∧
    (Payload.directoryEntry { directory with freeBlocks := 256 }).wf = false ∧
    (Payload.counters 0 { Counters.zero with crcErrors := 65536 }).wf = false ∧
    (Payload.counters 0 { Counters.zero with malformed := 65536 }).wf = false ∧
    (Payload.counters 0 { Counters.zero with txFailures := 65536 }).wf = false ∧
    (Payload.counters 0 { Counters.zero with txDrops := 65536 }).wf = false ∧
    (Payload.counters 0 { Counters.zero with rxDrops := 65536 }).wf = false ∧
    (Payload.counters 0 { Counters.zero with alignSkips := 65536 }).wf = false ∧
    (Payload.counters 0 { Counters.zero with advanceOverruns := 65536 }).wf = false := by decide

/-! ### The table has no bits -/

theorem test_no_word_spells_a_command (s : State) :
    decodeTableWord 16 0 = none ∧ s.withFetchWord 16 0 = s := ⟨rfl, rfl⟩

/-! ### Frames as words: written out from R2, R188 and R189 -/

/-- PACE of station 5: class 3, sender 5, kind 0, length 4 is 011 0101 00000 0100. -/
theorem test_pace_header : frameHeader 5 .pace 4 = 0b0110101000000100 := by decide

/-- The CRC of R2 is that of CCITT from 0xFFFF: over the bytes "12345678" it is 0xA12B. -/
theorem test_frame_crc : frameCrc 0x3132 [0x3334, 0x3536, 0x3738] = 0xA12B := by decide +kernel

/-- A JOG of axes 0 and 2: target and tag, the axis set 101, then two demands of two words. -/
theorem test_jog_words :
    decodePayload .jog [0x0207, 0b101, 0x0000, 0x7530, 0xFFFF, 0xEC78] paceFrame =
      some (.command 2 7 (.jog ⟨[some 30000, none, some (-5000)], rfl⟩)) := by decide

/-- R1: a stuff bit follows five equal bits and begins a new run; a receiver takes it out again, and finds a sixth
equal bit. -/
theorem test_stuff_bits :
    stuff [false, false, false, false, false, true, true, true, true, false] =
      [false, false, false, false, false, true, true, true, true, true, false, false] ∧
    unstuff [false, false, false, false, false, true, true, true, true, true, false, false] =
      .bits [false, false, false, false, false, true, true, true, true, false] ∧
    unstuff [false, true, true, true, true, true, true] = .violation true := by decide

/-- An encoder word with its error bit set, or a wrong check code, is not valid. -/
theorem test_encoder_word :
    encoderPosition (encoderWord (-5)) = some (-5) ∧ encoderPosition (encoderWord 5 ^^^ 1) = none ∧
    (let bits := 5#28 ++ 0b1000#4
     encoderPosition (bits ++ encoderCheck bits)) = none := by decide +kernel

/-- A CUE-POINTS of take 1 with 2 and 5 from R188: target and tag, take and count, then two indices of 13 bits
and six zeros: 0000000000010 0000000000101 000000. A count that the length does not fit is malformed. -/
theorem test_cue_points_words :
    let ws : List Word16 := [0x0207, 0x0102, 0b0000000000010000, 0b0000000101000000]
    let frame := fun (ws : List Word16) =>
      ({ line := sentLine (frameHeader 3 .cuePoints ws.length) ws, fields := paceFrame } : LineFrame)
    decodePayload .cuePoints ws paceFrame = some (.command 2 7 (.cuePoints 1 [2, 5])) ∧
    encodePayload (.command 2 7 (.cuePoints 1 [2, 5])) = some ws ∧
    checkFrame (frame ws) = .valid .cuePoints ∧
    checkFrame (frame [0x0207, 0x0103, 0b0000000000010000, 0b0000000101000000]) = .malformed := by decide +kernel

/-! ### Worked cases of chapter 4 -/

/-- The segment of case A. -/
def segmentA : Segment :=
  { t0 := 0, dur := 40, p0 := 10000, p1 := 10800, v0 := 15000, v1 := 25000, zeroStart := false, zeroEnd := false }

theorem test_case_A_B : evalSegment segmentA 20480 = 10350 ∧ evalSegment segmentA 7000 = 10108 := by decide +kernel

theorem test_case_C : limiter arm 4608 2583040 4000 = { p8 := 2587091, v8 := 4051, clamped := true } := by
  decide +kernel

theorem test_case_D :
    let a := { arm with smax := 10200 }
    limiter a 4608 2583040 4000 = { p8 := 2584734, v8 := 1694, clamped := true } ∧
    limiter a 26466 2584734 1694 = { p8 := 2586377, v8 := 1643, clamped := true } ∧
    limiter a 24823 2586377 1643 = { p8 := 2587968, v8 := 1591, clamped := true } := by decide +kernel

theorem test_jogging_onto_a_limit :
    let a := { arm with smax := 10200 }
    let step := fun (p8 v8 : Int) => ((limiter a 15360 p8 v8).p8, (limiter a 15360 p8 v8).v8)
    step 2610944 0 = (2610995, 51) ∧ step 2610995 51 = (2611097, 102) ∧ step 2611097 102 = (2611199, 102) ∧
    step 2611199 102 = (2611200, 1) ∧ step 2611200 1 = (2611200, 0) := by decide +kernel

theorem test_halt_from_speed :
    brakingStep arm 2587091 4051 = (2591040, 3949) ∧ brakingStep arm 2591040 3949 = (2594887, 3847) ∧
    brakingStep arm 2665520 73 = (2665520, 0) := by decide

theorem test_derived_constants :
    (arm.vmax8, arm.amax8, arm.ahalt8) = (15360, 51, 102) ∧
    (let b := deriveAxis arm 2; (b.vmax8, b.amax8, b.ahalt8)) = (30720, 204, 409) ∧
    (deriveAxis { arm with amax := 1000 } 1).amax8 = 1 ∧ (deriveAxis { arm with amax := 1000 } 2).amax8 = 1 := by
  decide

theorem test_rounding_and_velocity :
    rndDiv 2587264 256 = 10107 ∧ rndDiv (-640) 256 = -3 ∧ wantedOfDemand 30000 512 1 = 3840 ∧
    countVelocity 4051 1 = 15824 ∧ countVelocity 4051 2 = 7912 ∧ countVelocity 2048 1 = 8000 := by decide

/-! ### Worked conversions of chapter 5 -/

theorem test_focus_map :
    forward focusMap 3000 = (6300, false) ∧ forward focusMap 2000 = (5200, false) ∧
    forward focusMap 800 = (2000, true) ∧ forward focusMap 65535 = (7400, true) ∧
    inverse focusMap 6000 = 2727 ∧ inverse focusMap 1500 = 1000 ∧ forward focusMap 2727 = (6000, false) := by decide

/-- The iris map with decreasing counts. -/
def irisMap : LensMap := [⟨0, 9000⟩, ⟨20, 6000⟩, ⟨40, 3600⟩, ⟨70, 1000⟩]

theorem test_iris_map :
    forward irisMap 45 = (3167, false) ∧ inverse irisMap 3000 = 47 ∧ forward irisMap 47 = (2993, false) ∧
    inverse irisMap 500 = 70 ∧ inverse irisMap 9500 = 0 ∧ outsideSpan irisMap 500 = true := by decide

/-! ### Worked sequences: one step each -/

/-- What a step answers, where it answers a next state. -/
def after (i : Instr) (s : State) : State :=
  match exec i s with
  | .next t => t
  | _ => s

/-- The punch writer does not write into a tainted take (R89). -/
theorem test_punch_write_tainted :
    let s := taintedUnder (punchAt 1)
    let t := after .punchWrite s
    t.ax.samples = [] ∧ t.ax.punches = s.ax.punches ∧ t.ts = s.ts ∧
      (after .punchWrite (punchAt 1)).ts ≠ (punchAt 1).ts := by decide +kernel

/-- A dominant run of six ends the reception and is counted nowhere. -/
theorem test_dominant_run :
    after (.frameArrives { badCrc with line := List.replicate 6 false }) (onLine (.receiving mark0) idle) =
      idle := by decide +kernel

/-- The command's answer is the only frame queued. -/
def answered (b : CommandBody) (r : AnswerResult) (d : Detail) : List TxFrame :=
  [tx (.answer { station := 3, kind := b.kind, tag := 7, result := r, detail := d }) false]

/-- Section 3's positioning: 30,000 counts and 1,100 counts of lens take 750 ms. -/
theorem test_positioning_duration :
    let a := { arm with vmax := 60000 }
    let f := { focus with vmax := 20000 }
    let s := (withAxis 1 (fun _ => restAt 5200) (withAxis 0 (fun _ => restAt 41520) idle)).setCl
      { idle.cl with cfg := { config with axes := ⟨[a, f, AxisConfig.unused], rfl⟩ } }
    positionDuration s 600 [(0, 71520), (1, 3000)] = 750 ∧ presentUnits s 1 = 2000 ∧
      targetCount s 1 3000 = 6300 := by decide +kernel

theorem test_jog_sets_the_demand :
    let t := after .jog (ordered (.jog (named 0 70000)) idle)
    (axisCh t 0).state = .jog ∧ (axisCh t 0).demand = 60000 ∧ (axisCh t 0).ctrl = .console 3 ∧
    t.lc.txq = answered (.jog (named 0 70000)) .doneClamped {} := by decide +kernel

theorem test_jog_of_another_console_is_refused :
    let s := withAxis 0 (fun c => { c with state := .jog, ctrl := .console 1 }) idle
    (after .jog (ordered (.jog (named 0 (-5000))) s)).lc.txq =
      answered (.jog (named 0 0)) (.refused .notController) { number := some 0 } := by decide +kernel

/-- The signatures of section 6.4's sequence. -/
theorem test_edit_signatures :
    let empty : Table (Option Mark) 8 := Table.fill 8 none
    let m0 := empty.set 0 (some ⟨10, 50, 3⟩)
    let m2 := m0.set 2 (some ⟨20, 40, 0⟩)
    let m1 := m2.set 1 (some ⟨25, 35, 1⟩)
    editSignature m0 [] = 175 ∧ editSignature m2 [] = 595 ∧ editSignature m2 [20, 40] = 1175 ∧
    editSignature m1 [20, 40] = 1445 ∧ editSignature m0 [20, 40] = 755 ∧ editSignature m1 [] = 865 := by decide

/-- Section 6.3's recording cut back: keyframes of 10 ms, a trip at 3,063,000, and keyframe 249 is the last
that stays, in two blocks. -/
theorem test_taint_keeps_keyframe_249 :
    let e := { armedEntry with state := .recording, interval := 10, count := 300, blocks := [5, 6, 7] }
    let s := (recording 1).setTs { setEntry 1 e (recording 1).ts with
      free := (List.range 64).drop 8, taintTrip := some 3063000 }
    (entryOf (after .taint s) 1).count = 250 ∧ (entryOf (after .taint s) 1).blocks = [5, 6] ∧
    (after .taint s).ts.free = (List.range 64).drop 7 ∧ (after .taint s).tc.mode = .idle := by decide +kernel

/-- Section 7.7's window: five offsets of 1,172 in all shift the clock by 117 in 64 slices. -/
theorem test_alignment_window :
    let s := playing.setPu { playing.pu with offsetSum := 1172, offsetCount := 5 }
    (after .alignmentWindowEnd s).pu.slices = List.replicate 11 1 ++ List.replicate 53 2 ∧
    slicesOf (-40) = List.replicate 24 0 ++ List.replicate 40 (-1) := by decide +kernel

/-- Section 7.7's slow step: r·p of 20 against a slice of -32 moves nothing and leaves -12. -/
theorem test_negative_slice :
    let s := (withPeer 2 (fun e => { e with ceiling := 20 }) (withPeer 3 (fun e => { e with ceiling := 20 }) playing))
    let s := s.setPu { s.pu with r := 20, slices := [-32, -32] }
    let t := after (.paceStep false ⟨false, []⟩) s
    t.pu.slices = [-12, -32] ∧ t.pu.t = 0 ∧ t.pu.r = 20 := by decide +kernel

/-- A hold point that T has passed is reached in HELD and at rate 0 too. -/
theorem test_passed_hold_point :
    let late := fun (m : Mode) => ((inMode m { playContext with mode := .step } idle).setFd
      { playing.fd with queue := [{ entryA with sectionEnd := .waiting }] }).setPu { idle.pu with t := 41000 }
    (∀ m ∈ [Mode.playing, .held], (after (.paceStep false ⟨false, []⟩) (late m)).pu.t = 40960 ∧
      (after (.paceStep false ⟨false, []⟩) (late m)).fd.sectionWait = true) := by decide +kernel

/-- Section 8's mark: at its end with one repeat left it goes back to its start. -/
theorem test_mark_repeats :
    let p : Pass := { start := 1, stop := 3, remaining := 2, breakRequested := false }
    let t := after .feederReadDone (building .loop 2 [p] (some (frameAt 11600 20000 2200 0)))
    t.fd.stack = [{ p with remaining := 1 }] ∧ t.fd.cursor.arrival = 1 ∧ t.fd.cursor.source = 3 ∧
    t.fd.queue.length = 3 ∧ t.fd.nextSeq = 10 := by decide +kernel

/-- Section 8's STEP: the segment that ends at the cue point waits and comes to rest. -/
theorem test_cue_point_waits :
    let t := after .feederReadDone (building .step 1 [] (some (frameAt 10800 20000 2100 0)))
    t.fd.queue.getLast?.map QueueEntry.sectionEnd = some .waiting ∧
    t.fd.queue.getLast?.map QueueEntry.zeroEnd = some true := by decide +kernel

/-- Section 10's mat: at the third active sample zone 0 is occupied, trips once and scales to 512. -/
theorem test_mat_scales :
    let s := idle.setGu { idle.gu with inputs := idle.gu.inputs.set 0 { GuardInput.reset with run := 2 } }
    let t := after (.guardSample 0xFD true false) s
    (zoneOf t 0).state = .occupied ∧ (zoneOf t 0).trip.map Trip.causes = some 1 ∧ t.gu.ceiling = 512 ∧
    localCeiling t = 512 := by decide +kernel

/-- An edge at the curtain halts, and the STOP-CLAIM stands at the head of the transmit queue. -/
theorem test_curtain_halts :
    let t := after (.guardSample 0xFF true false) idle
    (zoneOf t 1).state = .occupied ∧ t.su.effective = .halt ∧ (axisCh t 0).state = .braking ∧
    t.lc.txq.head?.map (fun f => f.payload.kind) = some .stopClaim := by decide +kernel

/-- Table R152: a zone with an ACK latch stands VACATED when its input goes, and ZONE-ACK clears it. -/
theorem test_ack_latch :
    let s := claimed (.zone 1) .halt (idle.setGu { idle.gu with
      zones := idle.gu.zones.set 1 { (zoneOf idle 1) with state := .occupied },
      inputs := idle.gu.inputs.set 1 { GuardInput.reset with level := true } })
    let t := after (.guardSample 0xFC true false) s
    (zoneOf t 1).state = .vacated ∧ t.su.effective = .halt ∧
    (zoneOf (after .zoneAck (ordered (.zoneAck 2) t)) 1).state = .clear ∧
    (after .zoneAck (ordered (.zoneAck 2) t)).su.effective = .none := by decide +kernel

/-- R153: an edge latched before ZONE-ARM is not carried into the zone. -/
theorem test_edge_before_arming :
    let s := idle.setGu { idle.gu with
      zones := idle.gu.zones.set 1 ZoneRecord.reset,
      inputs := idle.gu.inputs.set 1 { GuardInput.reset with latch := true } }
    let t := after (.guardSample 0xFC true false) (after .zoneArm (ordered (.zoneArm 2) s))
    (zoneOf t 1).armed = true ∧ (zoneOf t 1).state = .clear ∧ (t.gu.inputs.get 1).latch = false := by decide +kernel

/-- R50: at the T of a retirement, an update before it evaluates the old head, at its end, and one after it the
next; with a FINAL head the early update comes before the return to IDLE. -/
theorem test_update_before_retirement :
    let at' := fun (q : List QueueEntry) => withAxis 0 (fun c => { c with state := .follow, ctrl := .take })
      ((playing.setFd { playing.fd with queue := q }).setPu { playing.pu with t := 41000 })
    let early := Instr.paceStep false ⟨false, [⟨0, [encoderWord 10000], false⟩]⟩
    let t := after early (at' [entryA, entryB])
    (axisCh t 0).segmentCopy = some (segmentOf entryA 0) ∧ t.fd.queue = [entryB] ∧
    (axisCh (after (.servoUpdate 0 [encoderWord 10000] false) t) 0).segmentCopy = some (segmentOf entryB 0) ∧
    (let u := after early (at' [{ entryA with final := true }])
     let v := after (.paceStep false ⟨false, []⟩) (at' [{ entryA with final := true }])
     (axisCh u 0).state = .rest ∧ u.tc.mode = .idle ∧ (axisCh u 0).v8 ≠ 0 ∧
       (axisCh v 0).state = .rest ∧ v.tc.mode = .idle ∧ (axisCh v 0).v8 = 0) := by decide +kernel

/-- R33: an axis that tracks has a following counter of 0: one that SEVER reaches, and one that a return to IDLE
puts in REST with the drive latch clear. -/
theorem test_tracking_zeroes_the_following_count :
    (classChannel config .none .sever { restAt 5 with followCount := 2 }).followCount = 0 ∧
    (let s := withAxis 0 (fun c => { c with state := .goto, ctrl := .take, followCount := 2 })
       (inMode .cueing playContext (idle.setSu StopUnit.reset))
     let t := after .wrap (ordered .wrap s)
     (axisCh t 0).state = .rest ∧ (axisCh t 0).followCount = 0) := by decide +kernel

/-- R106: a station under HOLD refuses a ROLL with NOT-READY, its own STATE as the line last heard it or not. -/
theorem test_roll_under_hold_is_refused :
    let s := claimed .duplicate .hold (inMode .ready playContext idle)
    (after .roll (offer (.roll (rollFrame 0)) s)).lc.txq = [tx (.rollRefuse 9 0) false] := by decide +kernel

/-- Section 12's rejoin point: the first entry at least the rejoin time away; 228,800 tu are 224 ms. -/
theorem test_rejoin_point :
    let entry := fun (k : Nat) => { entryA with t0 := BitVec.ofNat 32 (40960 * k), seq := BitVec.ofNat 16 k }
    let s := (playing.setFd { playing.fd with queue := [24, 25, 26, 27, 28, 29, 30, 31].map entry }).setPu
      { playing.pu with t := 1000000 }
    let s := s.setCl { s.cl with cfg := { config with rejoinTime := 200 } }
    (rejoinTarget s).map QueueEntry.seq = some 29 ∧ (rejoinTarget s).map endTime = some 1228800 ∧
    ceilDiv 228800 1024 = 224 := by decide +kernel

/-- Section 1.5's full queue: an ANSWER is dropped, a STOP-CLAIM displaces the last read-out frame. -/
theorem test_full_transmit_queue :
    let kd := fun (n : BitVec 16) => tx (.keyframeData (keyframe 1 n)) false
    let counters := tx (.counters 7 Counters.zero) false
    let status := tx (.state stateFrame) false
    let q := [tx stopFrame false, tx stopFrame false, status, counters, kd 10, kd 11, kd 12, kd 13]
    queueFrame (.answer { station := 3, kind := .zoneAck, tag := 7, result := .done, detail := {} }) q = (q, true) ∧
    queueFrame stopFrame q =
      ([tx stopFrame false, tx stopFrame false, tx stopFrame false, status, counters, kd 10, kd 11, kd 12], true) := by
  decide +kernel

/-! ### Reset and START -/

/-- A blank memory: UNCONFIGURED under the straps, the first strap pin the most significant. -/
theorem test_blank_memory :
    let t := after (.endOfStart [] noPins) State.reset
    t.tc.mode = .unconfigured ∧ t.cl.station = 9 ∧ t.lc.txq.map (fun f => f.payload.kind) = [.state] ∧
    (axisCh t 0).state = .disabled := by decide +kernel

/-- An image with station 7, 4 Mbit/s, p = 2, one axis, and zeros or out-of-range values elsewhere. -/
def image : List (BitVec 8) :=
  [0x5C, 7, 0, 1, 2, 1, 9, 0, 0xFF, 0xFF] ++ List.replicate 78 0 ++
    [9, 0, 200, 0, 0x7F, 0xFF, 0xFF, 0xFF, 0, 0, 0, 0] ++ List.replicate 390 0

/-- Section 13.2's clampings: Smin to 134,217,726 and Smax above it, Vmax to 4, codes to the highest. -/
theorem test_image_is_clamped :
    let t := after (.endOfStart image noPins) State.reset
    image.length = 490 ∧ t.tc.mode = .idle ∧ t.cl.station = 7 ∧ t.cl.cfg.cueMode = .runLevel ∧
    (axisCfg t 0).kind = .zoom ∧ (axisCfg t 0).feCount = 1 ∧ (axisCfg t 0).lossLimit = 15 ∧
    (axisCfg t 0).smin = 134217726 ∧ (axisCfg t 0).smax = 134217727 ∧ (axisCfg t 0).vmax = 4 ∧
    (axisCfg t 0).vmax8 = 2 ∧ t.cl.cfg.jogTimeout = 20 ∧ t.cl.cfg.taintSpan = 0 ∧
    (t.cl.cfg.inputs.get 0).filterLength = 1 ∧ (axisCh t 0).state = .rest ∧ (axisCh t 1).state = .disabled := by
  decide +kernel

/-- A station reset keeps the stored take and its block; a power-on reset empties the store. -/
theorem test_resets :
    entryOf (after .stationReset idle) 0 = take1 ∧ (after .stationReset idle).ts.free = (List.range 64).drop 1 ∧
    (after .stationReset idle).tc.mode = .start ∧ (after .stationReset idle).cl.pinLow = true ∧
    entryOf (after .powerOnReset idle) 0 = TakeEntry.empty := by decide +kernel

end Sys2Proof.Tests
end

section
/-! PROOFS. The arithmetic of the setpoint (chapter 4): rounding, the phase of a segment, its basis, tangents and
blend, the limiter and the halt braking step. -/

namespace Sys2Proof.Machine

/-! ### Rounding (spec/00_scope.md, "Numbers and rounding") -/

/-- The magnitude of rnd(n/d), from the magnitudes of n and d. -/
def nearestQuot (n d : Nat) : Nat := (2 * n + d) / (2 * d)

theorem rndDiv_eq (n d : Int) : rndDiv n d = n.sign * d.sign * nearestQuot n.natAbs d.natAbs := rfl

/-- d times the rounded quotient lies in the interval (n - d/2, n + d/2], doubled to stay in the naturals. -/
theorem mul_nearestQuot_mem (n : Nat) {d : Nat} (hd : 0 < d) :
    2 * (d * nearestQuot n d) ≤ 2 * n + d ∧ 2 * n < 2 * (d * nearestQuot n d) + d := by
  have hlow : 2 * d * nearestQuot n d ≤ 2 * n + d := Nat.mul_div_le _ _
  have hhigh : 2 * n + d < 2 * d * nearestQuot n d + 2 * d := Nat.lt_mul_div_succ _ (by omega)
  rw [mul_assoc] at hlow hhigh
  omega

@[simp] theorem rndDiv_zero (d : Int) : rndDiv 0 d = 0 := by simp [rndDiv]

theorem rndDiv_neg_left (n d : Int) : rndDiv (-n) d = -rndDiv n d := by simp [rndDiv_eq]

theorem rndDiv_neg_right (n d : Int) : rndDiv n (-d) = -rndDiv n d := by simp [rndDiv_eq]

/-- The divisor's sign cancels: only its magnitude counts in d · rnd(n/d). -/
theorem mul_rndDiv (n d : Int) :
    d * rndDiv n d = n.sign * ((d.natAbs * nearestQuot n.natAbs d.natAbs : Nat) : Int) := by
  calc d * rndDiv n d = n.sign * ((d * d.sign) * nearestQuot n.natAbs d.natAbs) := by rw [rndDiv_eq]; ring
    _ = n.sign * ((d.natAbs * nearestQuot n.natAbs d.natAbs : Nat) : Int) := by
      rw [Int.mul_sign_self, Nat.cast_mul]

theorem natAbs_mul_rndDiv {n : Int} (hn : n ≠ 0) (d : Int) :
    (d * rndDiv n d).natAbs = d.natAbs * nearestQuot n.natAbs d.natAbs := by
  rw [mul_rndDiv, Int.natAbs_mul, Int.natAbs_sign_of_ne_zero hn, one_mul, Int.natAbs_natCast]

/-- What rounding misses, in magnitudes: d · rnd(n/d) and n have one sign. -/
theorem natAbs_mul_rndDiv_sub {n : Int} (hn : n ≠ 0) (d : Int) :
    (d * rndDiv n d - n).natAbs =
      (((d.natAbs * nearestQuot n.natAbs d.natAbs : Nat) : Int) - n.natAbs).natAbs := by
  have hfactor : d * rndDiv n d - n =
      n.sign * (((d.natAbs * nearestQuot n.natAbs d.natAbs : Nat) : Int) - n.natAbs) := by
    rw [mul_sub, ← mul_rndDiv, Int.sign_mul_natAbs]
  rw [hfactor, Int.natAbs_mul, Int.natAbs_sign_of_ne_zero hn, one_mul]

theorem rndDiv_nearest (n : Int) {d : Int} (hd : d ≠ 0) :
    2 * (d * rndDiv n d - n).natAbs ≤ d.natAbs := by
  rcases eq_or_ne n 0 with rfl | hn
  · simp
  · have hmem := mul_nearestQuot_mem n.natAbs (Int.natAbs_pos.mpr hd)
    rw [natAbs_mul_rndDiv_sub hn]
    omega

theorem rndDiv_tie_away (n : Int) {d : Int} (hd : d ≠ 0) (htie : 2 * (d * rndDiv n d - n).natAbs = d.natAbs) :
    n.natAbs ≤ (d * rndDiv n d).natAbs := by
  rcases eq_or_ne n 0 with rfl | hn
  · simp
  · have hmem := mul_nearestQuot_mem n.natAbs (Int.natAbs_pos.mpr hd)
    rw [natAbs_mul_rndDiv_sub hn] at htie
    rw [natAbs_mul_rndDiv hn]
    omega

theorem rndDiv_mul_left (x : Int) {d : Int} (hd : d ≠ 0) : rndDiv (d * x) d = x := by
  have hnear := rndDiv_nearest (d * x) hd
  rw [← mul_sub, Int.natAbs_mul] at hnear
  have hpos := Int.natAbs_pos.mpr hd
  have hzero : (rndDiv (d * x) d - x).natAbs = 0 := by
    by_contra hne
    have := Nat.mul_le_mul_left d.natAbs (Nat.one_le_iff_ne_zero.mpr hne)
    omega
  omega

/-! ### The phase (R51) -/

theorem phase_of_le_start {clock t0 : TakeTime} {dur : Nat} (he : (clock - t0).toInt ≤ 0) :
    phase clock t0 dur = 0 := if_pos he

theorem phase_of_end_le {clock t0 : TakeTime} {dur : Nat} (hdur : 1 ≤ dur)
    (he : 1024 * (dur : Int) ≤ (clock - t0).toInt) : phase clock t0 dur = 65536 := by
  have hpos : ¬ (clock - t0).toInt ≤ 0 := by omega
  rw [phase, tdiff, if_neg hpos, if_pos he]

theorem phase_of_inside {clock t0 : TakeTime} {dur : Nat} (hpos : 0 < (clock - t0).toInt)
    (he : (clock - t0).toInt < 1024 * (dur : Int)) : phase clock t0 dur = (clock - t0).toInt * 64 / dur := by
  rw [phase, tdiff, if_neg (by omega), if_neg (by omega)]

theorem phase_inside_floor {clock t0 : TakeTime} {dur : Nat} (hdur : 1 ≤ dur) (hpos : 0 < (clock - t0).toInt)
    (he : (clock - t0).toInt < 1024 * (dur : Int)) :
    dur * phase clock t0 dur ≤ (clock - t0).toInt * 64 ∧
      (clock - t0).toInt * 64 < dur * (phase clock t0 dur + 1) := by
  rw [phase_of_inside hpos he]
  have hd : (0 : Int) < dur := by omega
  exact ⟨Int.mul_ediv_self_le hd.ne', by rw [mul_add, mul_one]; exact Int.lt_mul_ediv_self_add hd⟩

theorem phase_mem (clock t0 : TakeTime) {dur : Nat} (hdur : 1 ≤ dur) :
    0 ≤ phase clock t0 dur ∧ phase clock t0 dur ≤ 65536 := by
  rcases le_or_gt (clock - t0).toInt 0 with hle | hpos
  · simp [phase_of_le_start hle]
  rcases le_or_gt (1024 * (dur : Int)) (clock - t0).toInt with hend | hin
  · simp [phase_of_end_le hdur hend]
  · rw [phase_of_inside hpos hin]
    have hd : (0 : Int) < dur := by omega
    exact ⟨Int.ediv_nonneg (by omega) hd.le, Int.ediv_le_of_le_mul hd (by omega)⟩

theorem toInt_takeTime_lt (e : TakeTime) : (e.toInt * 64).natAbs < 2 ^ 63 := by
  have hlow := BitVec.le_toInt e
  have hhigh := BitVec.toInt_lt (x := e)
  omega

/-- The signed difference is right across the wrap of the clock, for every length below 2^31 tu. -/
theorem toInt_takeTime_add_sub (t0 : TakeTime) {d : Nat} (hd : d < 2 ^ 31) :
    (t0 + BitVec.ofNat 32 d - t0).toInt = d := by
  have hnat : (BitVec.ofNat 32 d).toNat = d := by rw [BitVec.toNat_ofNat]; omega
  rw [BitVec.add_comm, BitVec.add_sub_cancel, BitVec.toInt_eq_toNat_of_lt (by omega), hnat]

/-! ### The basis (R52) -/

/-- s2 of R52. -/
def phaseSq (s : Int) : Int := s * s / 65536

/-- s3 of R52. -/
def phaseCube (s : Int) : Int := phaseSq s * s / 65536

/-- h01 of R52, the weight of the way from P0 to P1. -/
def weightEnd (s : Int) : Int := 3 * phaseSq s - 2 * phaseCube s

/-- h10 of R52, the weight of the tangent at the start. -/
def weightStartTangent (s : Int) : Int := phaseCube s - 2 * phaseSq s + s

/-- h11 of R52, the weight of the tangent at the end. -/
def weightEndTangent (s : Int) : Int := phaseCube s - phaseSq s

/-- The sum Q of R54. -/
def blendSum (p0 p1 m0 m1 s : Int) : Int :=
  weightEnd s * (p1 - p0) + weightStartTangent s * m0 + weightEndTangent s * m1

theorem blend_eq (p0 p1 m0 m1 s : Int) : blend p0 p1 m0 m1 s = p0 + rndDiv (blendSum p0 p1 m0 m1 s) 65536 := by
  have hEnd : 65536 - (65536 - 3 * phaseSq s + 2 * phaseCube s) = weightEnd s := by unfold weightEnd; ring
  rw [blendSum, ← hEnd]
  rfl

theorem phaseSq_floor (s : Int) : 65536 * phaseSq s ≤ s * s ∧ s * s < 65536 * (phaseSq s + 1) := by
  unfold phaseSq; omega

theorem phaseCube_floor (s : Int) :
    65536 * phaseCube s ≤ phaseSq s * s ∧ phaseSq s * s < 65536 * (phaseCube s + 1) := by
  unfold phaseCube; omega

/-- A phase scales a natural down: the floor of x·s/65,536 lies between 0 and x. -/
theorem scaled_mem {x s : Int} (hx : 0 ≤ x) (h0 : 0 ≤ s) (h1 : s ≤ 65536) :
    0 ≤ x * s / 65536 ∧ x * s / 65536 ≤ x := by
  have hnonneg := mul_nonneg hx h0
  have hle := mul_le_mul_of_nonneg_left h1 hx
  omega

section Basis
variable {s : Int} (h0 : 0 ≤ s) (h1 : s ≤ 65536)
include h0 h1

theorem phaseSq_mem : 0 ≤ phaseSq s ∧ phaseSq s ≤ s := scaled_mem h0 h0 h1

theorem phaseCube_mem : 0 ≤ phaseCube s ∧ phaseCube s ≤ phaseSq s := scaled_mem (phaseSq_mem h0 h1).1 h0 h1

/-- s2 - s3 and s - s2 are the ceilings of s2·(1 - s) and s·(1 - s) in Q16, and s2 is at most s. -/
theorem weightStartTangent_nonneg : 0 ≤ weightStartTangent s := by
  have hsq := phaseSq_floor s
  have hcube := phaseCube_floor s
  have hmono : 0 ≤ (s - phaseSq s) * (65536 - s) :=
    mul_nonneg (by linarith [(phaseSq_mem h0 h1).2]) (by linarith)
  have hscaled : 0 < 65536 * (phaseCube s - 2 * phaseSq s + s + 1) := by linarith
  unfold weightStartTangent
  omega

theorem weightEndTangent_nonpos : weightEndTangent s ≤ 0 := by
  unfold weightEndTangent
  linarith [(phaseCube_mem h0 h1).2]

theorem natAbs_weights_le :
    (weightEnd s).natAbs ≤ 3 * 65536 ∧ (weightStartTangent s).natAbs ≤ 65536 ∧
      (weightEndTangent s).natAbs ≤ 65536 := by
  have hsq := phaseSq_mem h0 h1
  have hcube := phaseCube_mem h0 h1
  have hstart := weightStartTangent_nonneg h0 h1
  unfold weightEnd weightStartTangent weightEndTangent at *
  omega

end Basis

@[simp] theorem phaseSq_zero : phaseSq 0 = 0 := by decide
@[simp] theorem phaseCube_zero : phaseCube 0 = 0 := by decide
@[simp] theorem phaseSq_end : phaseSq 65536 = 65536 := by decide
@[simp] theorem phaseCube_end : phaseCube 65536 = 65536 := by decide

/-! ### The blend (R54) -/

@[simp] theorem blendSum_zero (p0 p1 m0 m1 : Int) : blendSum p0 p1 m0 m1 0 = 0 := by
  simp [blendSum, weightEnd, weightStartTangent, weightEndTangent]

@[simp] theorem blendSum_end (p0 p1 m0 m1 : Int) : blendSum p0 p1 m0 m1 65536 = 65536 * (p1 - p0) := by
  simp [blendSum, weightEnd, weightStartTangent, weightEndTangent]

@[simp] theorem blend_zero (p0 p1 m0 m1 : Int) : blend p0 p1 m0 m1 0 = p0 := by simp [blend_eq]

@[simp] theorem blend_end (p0 p1 m0 m1 : Int) : blend p0 p1 m0 m1 65536 = p1 := by
  simp [blend_eq, rndDiv_mul_left]

theorem natAbs_mul_le {a b : Int} {m n : Nat} (ha : a.natAbs ≤ m) (hb : b.natAbs ≤ n) :
    (a * b).natAbs ≤ m * n := by
  rw [Int.natAbs_mul]
  exact Nat.mul_le_mul ha hb

/-- The products of R54, with room: each stays below 2^50. -/
theorem natAbs_blend_products_le {p0 p1 m0 m1 s : Int} (h0 : 0 ≤ s) (h1 : s ≤ 65536)
    (hp0 : p0.natAbs ≤ 2 ^ 31) (hp1 : p1.natAbs ≤ 2 ^ 31) (hm0 : m0.natAbs ≤ 549747360)
    (hm1 : m1.natAbs ≤ 549747360) :
    (weightEnd s * (p1 - p0)).natAbs ≤ 2 ^ 50 ∧ (weightStartTangent s * m0).natAbs ≤ 2 ^ 50 ∧
      (weightEndTangent s * m1).natAbs ≤ 2 ^ 50 := by
  obtain ⟨hEnd, hStartTangent, hEndTangent⟩ := natAbs_weights_le h0 h1
  have hway : (p1 - p0).natAbs ≤ 2 ^ 32 := by omega
  exact ⟨(natAbs_mul_le hEnd hway).trans (by norm_num), (natAbs_mul_le hStartTangent hm0).trans (by norm_num),
    (natAbs_mul_le hEndTangent hm1).trans (by norm_num)⟩

theorem evalSegment_of_le_start (g : Segment) {clock : TakeTime} (he : (clock - g.t0).toInt ≤ 0) :
    evalSegment g clock = g.p0 := by
  rw [evalSegment, phase_of_le_start he, blend_zero]

theorem evalSegment_of_end_le {g : Segment} {clock : TakeTime} (hdur : 1 ≤ g.dur)
    (he : 1024 * (g.dur : Int) ≤ (clock - g.t0).toInt) : evalSegment g clock = g.p1 := by
  rw [evalSegment, phase_of_end_le hdur he, blend_end]

/-- Settles O23: rounding from the interval of the rounded quotient, the phase by its three cases, and the blend
from the bounds of its weights. -/
theorem segmentPhaseAndBlend : Obligations.SegmentPhaseAndBlend := by
  refine ⟨fun n d hd => ⟨rndDiv_nearest n hd, rndDiv_tie_away n hd, rndDiv_neg_left n d, rndDiv_neg_right n d⟩,
    fun clock t0 dur hdur => ⟨phase_of_le_start, phase_of_end_le hdur, phase_inside_floor hdur,
      (phase_mem clock t0 hdur).1, (phase_mem clock t0 hdur).2, toInt_takeTime_lt _⟩,
    fun t0 d hd => toInt_takeTime_add_sub t0 (by omega), ?_,
    fun g clock hdur => ⟨evalSegment_of_le_start g, evalSegment_of_end_le hdur⟩⟩
  intro p0 p1 m0 m1 s h0 h1
  refine ⟨blend_eq p0 p1 m0 m1 s, ?_, ?_, ?_⟩
  · rintro rfl
    exact ⟨blendSum_zero p0 p1 m0 m1, blend_zero p0 p1 m0 m1⟩
  · rintro rfl
    exact ⟨blendSum_end p0 p1 m0 m1, blend_end p0 p1 m0 m1⟩
  · intro hp0 hp1 hm0 hm1
    obtain ⟨hEnd, hStartTangent, hEndTangent⟩ := natAbs_blend_products_le h0 h1 hp0 hp1 hm0 hm1
    have hsum : (blendSum p0 p1 m0 m1 s).natAbs < 2 ^ 52 := by unfold blendSum; omega
    have hround := rndDiv_nearest (blendSum p0 p1 m0 m1 s) (d := 65536) (by decide)
    have hblend : (blend p0 p1 m0 m1 s).natAbs < 2 ^ 63 := by rw [blend_eq]; omega
    exact ⟨hEnd.trans_lt (by norm_num), hStartTangent.trans_lt (by norm_num), hEndTangent.trans_lt (by norm_num),
      hsum.trans (by norm_num), hblend⟩

/-! ### The tangents (R53) -/

/-- 65,535 ms at 8,388,607 units a second is 549,747,359.745 units. -/
theorem natAbs_tangent_le {dur : Nat} {v : Int} (zero : Bool) (hdur : dur ≤ 65535) (hv : v.natAbs ≤ 8388607) :
    (tangent dur v zero).natAbs ≤ 549747360 := by
  cases zero with
  | true => simp [tangent]
  | false =>
    have hprod : ((dur : Int) * v).natAbs ≤ 65535 * 8388607 := natAbs_mul_le (by simpa using hdur) hv
    have hround := rndDiv_nearest (dur * v) (d := 1000) (by decide)
    simp only [tangent, Bool.false_eq_true, if_false]
    omega

/-- Settles O24: the weights are those of `blendSum`, h00 being 65,536 less h01. -/
theorem basisWeightsAndTangents : Obligations.BasisWeightsAndTangents := by
  refine ⟨?_, fun dur v zero => ⟨rfl, natAbs_tangent_le zero⟩, fun _ _ => rfl⟩
  intro p0 p1 m0 m1 s h0 h1
  obtain ⟨hsqLow, hsqHigh⟩ := phaseSq_floor s
  obtain ⟨hcubeLow, hcubeHigh⟩ := phaseCube_floor s
  obtain ⟨hsq0, hsqLe⟩ := phaseSq_mem h0 h1
  obtain ⟨hcube0, hcubeLe⟩ := phaseCube_mem h0 h1
  refine ⟨phaseSq s, phaseCube s, 65536 - weightEnd s, weightEnd s, weightStartTangent s, weightEndTangent s,
    hsqLow, hsqHigh, hcubeLow, hcubeHigh, hsq0, hsqLe.trans h1, hcube0, hcubeLe.trans (hsqLe.trans h1),
    by unfold weightEnd; ring, by ring, rfl, rfl, weightEndTangent_nonpos h0 h1, weightStartTangent_nonneg h0 h1,
    ?_, ?_, blend_eq p0 p1 m0 m1 s⟩
  · rintro rfl
    simp [weightEnd, weightStartTangent, weightEndTangent]
  · rintro rfl
    simp [weightEnd, weightStartTangent, weightEndTangent]

/-! ### The integer square root (R59) -/

/-- With the digits from bit k - 1 down still to find, the root lies in [r, r + 2^k). -/
theorem isqrtBits_spec (n k r : Nat) (hlow : r * r ≤ n) (hhigh : n < (r + 2 ^ k) * (r + 2 ^ k)) :
    isqrtBits n k r * isqrtBits n k r ≤ n ∧ n < (isqrtBits n k r + 1) * (isqrtBits n k r + 1) := by
  induction k generalizing r with
  | zero => exact ⟨hlow, hhigh⟩
  | succ k ih =>
    rw [isqrtBits]
    split
    case isTrue hdigit =>
      exact ih (r + 2 ^ k) hdigit (by rwa [add_assoc, ← two_mul, ← pow_succ'])
    case isFalse hdigit => exact ih r hlow (not_le.mp hdigit)

theorem isqrt_spec (n : Nat) : isqrt n * isqrt n ≤ n ∧ n < (isqrt n + 1) * (isqrt n + 1) := by
  refine isqrtBits_spec n _ 0 (Nat.zero_le n) ?_
  calc n < 2 ^ (n.log2 + 1) := Nat.lt_log2_self
    _ ≤ 2 ^ ((n.log2 / 2 + 1) + (n.log2 / 2 + 1)) := Nat.pow_le_pow_right (by norm_num) (by omega)
    _ = (0 + 2 ^ (n.log2 / 2 + 1)) * (0 + 2 ^ (n.log2 / 2 + 1)) := by rw [zero_add, pow_add]

/-! ### The braking bound (R59) -/

/-- The root of R59 toward a limit at Q8 distance d. -/
def brakeRoot (a : AxisConfig) (d : Int) : Int := isqrt (2 * a.amax8 * max 0 d).toNat

theorem brakeBound_eq (a : AxisConfig) (d : Int) : brakeBound a d = min a.vmax8 (brakeRoot a d) := rfl

theorem brakeRoot_nonneg (a : AxisConfig) (d : Int) : 0 ≤ brakeRoot a d := Int.natCast_nonneg _

theorem brakeRoot_spec {a : AxisConfig} (ha : AxisParams a) (d : Int) :
    brakeRoot a d * brakeRoot a d ≤ 2 * a.amax8 * max 0 d ∧
      2 * a.amax8 * max 0 d < (brakeRoot a d + 1) * (brakeRoot a d + 1) := by
  have hnonneg : 0 ≤ 2 * a.amax8 * max 0 d :=
    mul_nonneg (by linarith [ha.amax]) (le_max_left 0 d)
  obtain ⟨hlow, hhigh⟩ := isqrt_spec (2 * a.amax8 * max 0 d).toNat
  zify [Int.toNat_of_nonneg hnonneg] at hlow hhigh
  exact ⟨hlow, hhigh⟩

theorem brakeBound_nonneg {a : AxisConfig} (ha : AxisParams a) (d : Int) : 0 ≤ brakeBound a d :=
  le_min (by linarith [ha.vmax]) (brakeRoot_nonneg a d)

theorem brakeBound_le_vmax (a : AxisConfig) (d : Int) : brakeBound a d ≤ a.vmax8 := min_le_left _ _

/-- A speed under the braking bound can be shed within the distance d. -/
theorem mul_self_le_of_le_brakeBound {a : AxisConfig} (ha : AxisParams a) {d v : Int} (hd : 0 ≤ d) (hv : 0 ≤ v)
    (hle : v ≤ brakeBound a d) : v * v ≤ 2 * a.amax8 * d := by
  have hroot : v ≤ brakeRoot a d := hle.trans (min_le_right _ _)
  calc v * v ≤ brakeRoot a d * brakeRoot a d := mul_self_le_mul_self hv hroot
    _ ≤ 2 * a.amax8 * max 0 d := (brakeRoot_spec ha d).1
    _ = 2 * a.amax8 * d := by rw [max_eq_right hd]

/-! ### Limit placement (R60) -/

section Placement
variable {a : AxisConfig} {p8 v : Int}

theorem placeOnLimit_inside (hlow : 256 * a.smin ≤ p8 + v) (hhigh : p8 + v ≤ 256 * a.smax) :
    placeOnLimit a p8 v = (p8 + v, v) := by
  simp [placeOnLimit, clampInt, hlow, hhigh]

theorem placeOnLimit_above (ha : AxisParams a) (habove : 256 * a.smax < p8 + v) :
    placeOnLimit a p8 v = (256 * a.smax, 256 * a.smax - p8) := by
  have hclamp : clampInt (256 * a.smin) (256 * a.smax) (p8 + v) = 256 * a.smax := by
    have := ha.travel
    unfold clampInt
    omega
  simp [placeOnLimit, hclamp, habove.ne']

theorem placeOnLimit_below (ha : AxisParams a) (hbelow : p8 + v < 256 * a.smin) :
    placeOnLimit a p8 v = (256 * a.smin, 256 * a.smin - p8) := by
  have hclamp : clampInt (256 * a.smin) (256 * a.smax) (p8 + v) = 256 * a.smin := by
    have := ha.travel
    unfold clampInt
    omega
  simp [placeOnLimit, hclamp, hbelow.ne]

/-- What a placement can do from within the travel: it moves by the velocity that it answers, ends within the
travel, and only shortens the way. -/
structure Placed (a : AxisConfig) (p8 v : Int) (r : Int × Int) : Prop where
  /-- Not below the lower limit. -/
  low : 256 * a.smin ≤ r.1
  /-- Not above the upper limit. -/
  high : r.1 ≤ 256 * a.smax
  /-- The setpoint moves by the new velocity. -/
  moved : r.1 = p8 + r.2
  /-- Upwards, no further than asked. -/
  forward : 0 ≤ v → 0 ≤ r.2 ∧ r.2 ≤ v
  /-- Downwards, no further than asked. -/
  backward : v ≤ 0 → v ≤ r.2 ∧ r.2 ≤ 0

theorem placeOnLimit_placed (ha : AxisParams a) (hlow : 256 * a.smin ≤ p8) (hhigh : p8 ≤ 256 * a.smax) (v : Int) :
    Placed a p8 v (placeOnLimit a p8 v) := by
  have htravel := ha.travel
  rcases lt_or_ge (256 * a.smax) (p8 + v) with habove | hle
  · rw [placeOnLimit_above ha habove]
    constructor <;> dsimp only <;> omega
  rcases lt_or_ge (p8 + v) (256 * a.smin) with hbelow | hge
  · rw [placeOnLimit_below ha hbelow]
    constructor <;> dsimp only <;> omega
  · rw [placeOnLimit_inside hge hle]
    constructor <;> dsimp only <;> omega

theorem Placed.natAbs_le {r : Int × Int} (h : Placed a p8 v r) : r.2.natAbs ≤ v.natAbs := by
  have hforward := h.forward
  have hbackward := h.backward
  omega

end Placement

/-! ### The limiter (R58 to R61) -/

/-- The velocity that the limiter forms before the limit placement (R58, R59). -/
def limiterVelocity (a : AxisConfig) (w p8 v8 : Int) : Int :=
  clampInt (-brakeBound a (p8 - 256 * a.smin)) (brakeBound a (256 * a.smax - p8))
    (clampInt (v8 - a.amax8) (v8 + a.amax8) w)

theorem limiter_eq (a : AxisConfig) (w p8 v8 : Int) :
    limiter a w p8 v8 =
      { p8 := (placeOnLimit a p8 (limiterVelocity a w p8 v8)).1
        v8 := (placeOnLimit a p8 (limiterVelocity a w p8 v8)).2
        clamped := (placeOnLimit a p8 (limiterVelocity a w p8 v8)).2 ≠ w } := rfl

theorem limiter_clamped_eq_false_iff (a : AxisConfig) (w p8 v8 : Int) :
    (limiter a w p8 v8).clamped = false ↔ (limiter a w p8 v8).v8 = w := by
  simp [limiter_eq]

section LimiterVelocity
variable {a : AxisConfig} (ha : AxisParams a) (w p8 v8 : Int)
include ha

theorem limiterVelocity_mem :
    -brakeBound a (p8 - 256 * a.smin) ≤ limiterVelocity a w p8 v8 ∧
      limiterVelocity a w p8 v8 ≤ brakeBound a (256 * a.smax - p8) := by
  have hup := brakeBound_nonneg ha (256 * a.smax - p8)
  have hdown := brakeBound_nonneg ha (p8 - 256 * a.smin)
  unfold limiterVelocity clampInt
  omega

/-- R59: the braking bound toward the upper limit prevails over the window. -/
theorem limiterVelocity_of_up_lt (hlt : brakeBound a (256 * a.smax - p8) < v8 - a.amax8) :
    limiterVelocity a w p8 v8 = brakeBound a (256 * a.smax - p8) := by
  have hup := brakeBound_nonneg ha (256 * a.smax - p8)
  have hdown := brakeBound_nonneg ha (p8 - 256 * a.smin)
  unfold limiterVelocity clampInt
  omega

/-- R59: the braking bound toward the lower limit prevails over the window. -/
theorem limiterVelocity_of_lt_down (hlt : v8 + a.amax8 < -brakeBound a (p8 - 256 * a.smin)) :
    limiterVelocity a w p8 v8 = -brakeBound a (p8 - 256 * a.smin) := by
  have hamax := ha.amax
  unfold limiterVelocity clampInt
  omega

/-- The velocity leaves the window upwards only where the lower braking bound asks for less speed. -/
theorem limiterVelocity_nonpos_of_gt (hgt : v8 + a.amax8 < limiterVelocity a w p8 v8) :
    limiterVelocity a w p8 v8 ≤ 0 := by
  have hamax := ha.amax
  have hdown := brakeBound_nonneg ha (p8 - 256 * a.smin)
  unfold limiterVelocity clampInt at *
  omega

/-- The velocity leaves the window downwards only where the upper braking bound asks for less speed. -/
theorem limiterVelocity_nonneg_of_lt (hlt : limiterVelocity a w p8 v8 < v8 - a.amax8) :
    0 ≤ limiterVelocity a w p8 v8 := by
  have hup := brakeBound_nonneg ha (256 * a.smax - p8)
  unfold limiterVelocity clampInt at *
  omega

end LimiterVelocity

/-- R60: the setpoint moves by `limiterVelocity`, or is placed on the limit that it would pass. -/
theorem limiter_placed {a : AxisConfig} (ha : AxisParams a) (w p8 v8 : Int) :
    let v := limiterVelocity a w p8 v8
    let r := limiter a w p8 v8
    (256 * a.smin ≤ p8 + v → p8 + v ≤ 256 * a.smax → r.p8 = p8 + v ∧ r.v8 = v) ∧
      (256 * a.smax < p8 + v → r.p8 = 256 * a.smax ∧ r.v8 = 256 * a.smax - p8) ∧
      (p8 + v < 256 * a.smin → r.p8 = 256 * a.smin ∧ r.v8 = 256 * a.smin - p8) := by
  refine ⟨fun hlow hhigh => ?_, fun habove => ?_, fun hbelow => ?_⟩
  · simp [limiter_eq, placeOnLimit_inside hlow hhigh]
  · simp [limiter_eq, placeOnLimit_above ha habove]
  · simp [limiter_eq, placeOnLimit_below ha hbelow]

/-- From inside the law of the setpoint the limiter keeps it, moves by its new velocity, keeps that velocity under
the braking bounds, and leaves the acceleration window only to slow down. -/
theorem limiter_keeps_law {a : AxisConfig} {c : AxisChannel} (w : Int) (ha : AxisParams a)
    (hc : SetpointHolds a c) :
    let r := limiter a w c.p8 c.v8
    256 * a.smin ≤ r.p8 ∧ r.p8 ≤ 256 * a.smax ∧ (r.v8.natAbs : Int) ≤ a.vmax8 ∧ r.p8 = c.p8 + r.v8 ∧
      (0 ≤ r.v8 → r.v8 * r.v8 ≤ 2 * a.amax8 * (256 * a.smax - c.p8)) ∧
      (r.v8 ≤ 0 → r.v8 * r.v8 ≤ 2 * a.amax8 * (c.p8 - 256 * a.smin)) ∧
      (c.v8 + a.amax8 < r.v8 → r.v8 ≤ 0) ∧ (r.v8 < c.v8 - a.amax8 → 0 ≤ r.v8) := by
  obtain ⟨hlow, hhigh, -⟩ := hc
  intro r
  obtain ⟨hplacedLow, hplacedHigh, hmoved, hforward, hbackward⟩ :
      Placed a c.p8 (limiterVelocity a w c.p8 c.v8) (r.p8, r.v8) := placeOnLimit_placed ha hlow hhigh _
  obtain ⟨hdown, hup⟩ := limiterVelocity_mem ha w c.p8 c.v8
  have hwindowUp := limiterVelocity_nonpos_of_gt ha w c.p8 c.v8
  have hwindowDown := limiterVelocity_nonneg_of_lt ha w c.p8 c.v8
  have hupVmax := brakeBound_le_vmax a (256 * a.smax - c.p8)
  have hdownVmax := brakeBound_le_vmax a (c.p8 - 256 * a.smin)
  have hup0 := brakeBound_nonneg ha (256 * a.smax - c.p8)
  have hdown0 := brakeBound_nonneg ha (c.p8 - 256 * a.smin)
  dsimp only at hforward hbackward
  refine ⟨hplacedLow, hplacedHigh, by omega, hmoved, fun hv => ?_, fun hv => ?_, by omega, by omega⟩
  · exact mul_self_le_of_le_brakeBound ha (by omega) hv (by omega)
  · rw [← neg_mul_neg]
    exact mul_self_le_of_le_brakeBound ha (by omega) (by omega) (by omega)

/-! ### The halt braking step (R63) -/

theorem natAbs_brakingVelocity_le (a : AxisConfig) (v8 : Int) :
    ((brakingVelocity a v8).natAbs : Int) ≤ max 0 ((v8.natAbs : Int) - a.ahalt8) := by
  rcases Int.sign_trichotomy v8 with hsign | hsign | hsign <;>
    simp only [brakingVelocity, hsign, one_mul, zero_mul, neg_one_mul] <;> omega

theorem brakingVelocity_nonneg (a : AxisConfig) {v8 : Int} (h : 0 ≤ v8) : 0 ≤ brakingVelocity a v8 :=
  mul_nonneg (Int.sign_nonneg_iff.mpr h) (le_max_left _ _)

theorem brakingVelocity_nonpos (a : AxisConfig) {v8 : Int} (h : v8 ≤ 0) : brakingVelocity a v8 ≤ 0 :=
  mul_nonpos_of_nonpos_of_nonneg (Int.sign_nonpos_iff.mpr h) (le_max_left _ _)

/-- From inside the law of the setpoint the braking step keeps it, never gains speed and never turns about. -/
theorem brakingStep_keeps_law {a : AxisConfig} {c : AxisChannel} (ha : AxisParams a) (hc : SetpointHolds a c) :
    let r := brakingStep a c.p8 c.v8
    256 * a.smin ≤ r.1 ∧ r.1 ≤ 256 * a.smax ∧ r.1 = c.p8 + r.2 ∧
      (r.2.natAbs : Int) ≤ max 0 ((c.v8.natAbs : Int) - a.ahalt8) ∧ 0 ≤ r.2 * c.v8 ∧
      (c.v8 = 0 → r = (c.p8, 0)) := by
  obtain ⟨hlow, hhigh, -⟩ := hc
  intro r
  have hplaced : Placed a c.p8 (brakingVelocity a c.v8) r := placeOnLimit_placed ha hlow hhigh _
  have hspeed : (r.2.natAbs : Int) ≤ max 0 ((c.v8.natAbs : Int) - a.ahalt8) :=
    (Int.ofNat_le.mpr hplaced.natAbs_le).trans (natAbs_brakingVelocity_le a c.v8)
  have hsign : 0 ≤ r.2 * c.v8 := by
    rcases le_total 0 c.v8 with hv | hv
    · exact mul_nonneg (hplaced.forward (brakingVelocity_nonneg a hv)).1 hv
    · exact mul_nonneg_of_nonpos_of_nonpos (hplaced.backward (brakingVelocity_nonpos a hv)).2 hv
  refine ⟨hplaced.low, hplaced.high, hplaced.moved, hspeed, hsign, fun hv => ?_⟩
  have hrest : brakingVelocity a c.v8 = 0 := by simp [brakingVelocity, hv]
  have hstill : placeOnLimit a c.p8 0 = (c.p8, 0) := by
    simpa using placeOnLimit_inside (a := a) (p8 := c.p8) (v := 0) (by simpa using hlow) (by simpa using hhigh)
  simpa [r, brakingStep, hrest] using hstill

/-- Settles O25: the limiter and the braking step are limit placements of `limiterVelocity` and
`brakingVelocity`. -/
theorem limiterBoundsTheSetpoint : Obligations.LimiterBoundsTheSetpoint := by
  refine ⟨?_, fun a c w ha hc => limiter_keeps_law w ha hc,
    fun a p8 v8 ha => ⟨placeOnLimit_inside, placeOnLimit_above ha, placeOnLimit_below ha⟩,
    fun a c ha hc => brakingStep_keeps_law ha hc⟩
  intro a w p8 v8 ha
  obtain ⟨hupLow, hupHigh⟩ := brakeRoot_spec ha (256 * a.smax - p8)
  obtain ⟨hdownLow, hdownHigh⟩ := brakeRoot_spec ha (p8 - 256 * a.smin)
  obtain ⟨hinside, habove, hbelow⟩ := limiter_placed ha w p8 v8
  exact ⟨brakeRoot a (256 * a.smax - p8), brakeRoot a (p8 - 256 * a.smin), brakeRoot_nonneg a _, hupLow, hupHigh,
    brakeRoot_nonneg a _, hdownLow, hdownHigh, limiterVelocity_of_up_lt ha w p8 v8,
    limiterVelocity_of_lt_down ha w p8 v8, hinside, habove, hbelow, limiter_clamped_eq_false_iff a w p8 v8⟩

end Sys2Proof.Machine
end

section
/-! PROOFS. The conversions of a lens map (chapter 5). Both walk a map to the lowest interval that contains a key: the
unit for the forward conversion, the count along the direction of the map for the inverse one. -/

namespace Sys2Proof.Machine

/-! ### Rounding keeps order and stays inside an interpolated interval -/

theorem rndDiv_mono {n n' d : Int} (hd : 0 < d) (h : n ≤ n') : rndDiv n d ≤ rndDiv n' d := by
  rcases h.eq_or_lt with rfl | hlt
  · exact le_rfl
  have hnear := rndDiv_nearest n hd.ne'
  have hnear' := rndDiv_nearest n' hd.ne'
  by_contra hgt
  have hstep : d * (rndDiv n' d + 1) ≤ d * rndDiv n d := mul_le_mul_of_nonneg_left (by omega) hd.le
  rw [mul_add, mul_one] at hstep
  omega

/-- c lies between a and b, both included, whichever is the lesser. -/
def Between (a b c : Int) : Prop := min a b ≤ c ∧ c ≤ max a b

theorem rndDiv_between_of_pos {t d : Int} (y : Int) (hd : 0 < d) (h0 : 0 ≤ t) (h1 : t ≤ d) :
    Between 0 y (rndDiv (t * y) d) := by
  have hzero : rndDiv 0 d = 0 := rndDiv_zero d
  have hend : rndDiv (d * y) d = y := rndDiv_mul_left y hd.ne'
  unfold Between
  rcases le_total 0 y with hy | hy
  · have hlow : rndDiv 0 d ≤ rndDiv (t * y) d := rndDiv_mono hd (mul_nonneg h0 hy)
    have hhigh : rndDiv (t * y) d ≤ rndDiv (d * y) d := rndDiv_mono hd (mul_le_mul_of_nonneg_right h1 hy)
    omega
  · have hlow : rndDiv (d * y) d ≤ rndDiv (t * y) d := rndDiv_mono hd (mul_le_mul_of_nonpos_right h1 hy)
    have hhigh : rndDiv (t * y) d ≤ rndDiv 0 d := rndDiv_mono hd (mul_nonpos_of_nonneg_of_nonpos h0 hy)
    omega

/-- A part t of a way d, scaled to a way y, is a part of y: d may have either sign. -/
theorem rndDiv_between {t d : Int} (y : Int) (hd : d ≠ 0) (ht : Between 0 d t) : Between 0 y (rndDiv (t * y) d) := by
  unfold Between at ht
  rcases lt_or_gt_of_ne hd with hneg | hpos
  · have hflip : rndDiv (t * y) d = rndDiv (-t * y) (-d) := by
      rw [neg_mul, rndDiv_neg_left, rndDiv_neg_right, neg_neg]
    rw [hflip]
    exact rndDiv_between_of_pos y (by omega) (by omega) (by omega)
  · exact rndDiv_between_of_pos y hpos (by omega) (by omega)

/-- The interpolation of R70 and R71 between the points (x0, y0) and (x1, y1). -/
theorem interpolate_between {x0 x1 x : Int} (y0 y1 : Int) (hne : x0 ≠ x1) (hx : Between x0 x1 x) :
    Between y0 y1 (y0 + rndDiv ((x - x0) * (y1 - y0)) (x1 - x0)) := by
  have hway := rndDiv_between (t := x - x0) (d := x1 - x0) (y1 - y0) (by omega) (by unfold Between at *; omega)
  unfold Between at *
  omega

theorem natAbs_mul_lt_of_small {a b : Int} (ha : a.natAbs ≤ 65535) (hb : b.natAbs ≤ 2 ^ 32) :
    (a * b).natAbs < 2 ^ 63 := by
  have hle : a.natAbs * b.natAbs ≤ 65535 * 2 ^ 32 := Nat.mul_le_mul ha hb
  rw [Int.natAbs_mul]
  omega

/-! ### Maps that rise in a key -/

/-- A key of the points strictly rises along the map. -/
def Rises (key : LensPoint → Int) (m : LensMap) : Prop := (m.map key).Pairwise (· < ·)

section Rises
variable {key : LensPoint → Int} {m : LensMap} {i j : Nat} {p q first last : LensPoint}

theorem Rises.lt (h : Rises key m) (hp : m[i]? = some p) (hq : m[j]? = some q) (hij : i < j) : key p < key q := by
  obtain ⟨hi, rfl⟩ := List.getElem?_eq_some_iff.mp hp
  obtain ⟨hj, rfl⟩ := List.getElem?_eq_some_iff.mp hq
  exact List.pairwise_iff_getElem.mp (List.pairwise_map.mp h) i j hi hj hij

theorem Rises.le (h : Rises key m) (hp : m[i]? = some p) (hq : m[j]? = some q) (hij : i ≤ j) : key p ≤ key q := by
  rcases hij.eq_or_lt with rfl | hlt
  · obtain rfl : p = q := Option.some.inj (hp.symm.trans hq)
    exact le_rfl
  · exact (h.lt hp hq hlt).le

theorem Rises.first_le (h : Rises key m) (hfirst : m.head? = some first) (hp : m[i]? = some p) :
    key first ≤ key p :=
  h.le (List.head?_eq_getElem? ▸ hfirst) hp (Nat.zero_le i)

theorem Rises.le_last (h : Rises key m) (hlast : m.getLast? = some last) (hp : m[i]? = some p) :
    key p ≤ key last := by
  obtain ⟨hi, -⟩ := List.getElem?_eq_some_iff.mp hp
  exact h.le hp (List.getLast?_eq_getElem? ▸ hlast) (by omega)

theorem Rises.first_lt_last (h : Rises key m) (hlen : 2 ≤ m.length) (hfirst : m.head? = some first)
    (hlast : m.getLast? = some last) : key first < key last :=
  h.lt (List.head?_eq_getElem? ▸ hfirst) (List.getLast?_eq_getElem? ▸ hlast) (by omega)

end Rises

/-- A count along the direction of a map: as it is where counts increase, negated where they decrease. -/
def along (increasing : Bool) (c : Int) : Int := if increasing then c else -c

/-- The count of a point along the direction of the map. -/
def countKey (increasing : Bool) (p : LensPoint) : Int := along increasing p.count

theorem along_le_along (increasing : Bool) (a b : Int) :
    along increasing a ≤ along increasing b ↔ if increasing then a ≤ b else b ≤ a := by
  cases increasing <;> simp [along]

theorem along_lt_along (increasing : Bool) (a b : Int) :
    along increasing a < along increasing b ↔ if increasing then a < b else b < a := by
  cases increasing <;> simp [along]

section Direction
variable {increasing : Bool} {a b : Int} (h : along increasing a < along increasing b)
include h

theorem between_iff_along (c : Int) :
    Between a b c ↔ along increasing a ≤ along increasing c ∧ along increasing c ≤ along increasing b := by
  rw [along_lt_along] at h
  rw [along_le_along, along_le_along, Between]
  cases increasing <;> simp only [Bool.false_eq_true, if_true, if_false] at h ⊢ <;> omega

theorem along_lt_start_iff (c : Int) : along increasing c < along increasing a ↔ a < b ∧ c < a ∨ b < a ∧ a < c := by
  rw [along_lt_along] at h ⊢
  cases increasing <;> simp only [Bool.false_eq_true, if_true, if_false] at h ⊢ <;> omega

theorem along_end_lt_iff (c : Int) : along increasing b < along increasing c ↔ a < b ∧ b < c ∨ b < a ∧ c < b := by
  rw [along_lt_along] at h ⊢
  cases increasing <;> simp only [Bool.false_eq_true, if_true, if_false] at h ⊢ <;> omega

end Direction

theorem unitsIncrease_iff_isChain : ∀ m : LensMap, unitsIncrease m = true ↔ (m.map LensPoint.unit).IsChain (· < ·)
  | [] => by simp [unitsIncrease]
  | [p] => by simp [unitsIncrease]
  | p :: q :: rest => by simpa [unitsIncrease] using fun _ => unitsIncrease_iff_isChain (q :: rest)

theorem countsRun_iff_isChain (increasing : Bool) :
    ∀ m : LensMap, countsRun increasing m = true ↔ (m.map (countKey increasing)).IsChain (· < ·)
  | [] => by simp [countsRun]
  | [p] => by simp [countsRun]
  | p :: q :: rest => by
    have ih := countsRun_iff_isChain increasing (q :: rest)
    have hstep : countKey increasing p < countKey increasing q ↔
        (if increasing then decide (p.count < q.count) else decide (q.count < p.count)) = true := by
      rw [countKey, countKey, along_lt_along]
      cases increasing <;> simp
    rw [countsRun, Bool.and_eq_true, ih, ← hstep, List.map_cons, List.map_cons, List.map_cons,
      List.isChain_cons_cons]

/-- A valid map (R69) has two points or more, rises in unit, and runs in count in one direction. -/
theorem mapValid_rises {m : LensMap} (h : mapValid m = true) :
    2 ≤ m.length ∧ Rises LensPoint.unit m ∧ ∃ increasing, Rises (countKey increasing) m := by
  simp only [mapValid, Bool.and_eq_true, Bool.or_eq_true, decide_eq_true_eq, unitsIncrease_iff_isChain,
    countsRun_iff_isChain, List.isChain_iff_pairwise] at h
  obtain ⟨⟨⟨hlen, -⟩, hunits⟩, hcounts⟩ := h
  exact ⟨hlen, hunits, hcounts.elim (⟨true, ·⟩) (⟨false, ·⟩)⟩

/-! ### The lowest interval that contains a key -/

/-- Points i and i + 1 of a map are p and q, and no lower interval of the map contains x. -/
structure LowestInterval (key : LensPoint → Int) (m : LensMap) (x : Int) (i : Nat) (p q : LensPoint) : Prop where
  start : m[i]? = some p
  stop : m[i + 1]? = some q
  start_le : key p ≤ x
  le_stop : x ≤ key q
  lowest : ∀ (j : Nat) (r t : LensPoint), j < i → m[j]? = some r → m[j + 1]? = some t → ¬ (key r ≤ x ∧ x ≤ key t)

/-- The interval at which the walk of a conversion stops: the first one that x does not pass. -/
def reached (key : LensPoint → Int) : LensPoint → LensMap → Int → Option (LensPoint × LensPoint)
  | _, [], _ => none
  | p, q :: rest, x => if x ≤ key q then some (p, q) else reached key q rest x

section Walk
variable {key : LensPoint → Int} {x : Int}

theorem LowestInterval.tail {h h' : LensPoint} {rest : LensMap} {i : Nat} {p q : LensPoint}
    (hlow : LowestInterval key (h :: h' :: rest) x (i + 1) p q) : LowestInterval key (h' :: rest) x i p q where
  start := hlow.start
  stop := hlow.stop
  start_le := hlow.start_le
  le_stop := hlow.le_stop
  lowest j r t hj hr ht := hlow.lowest (j + 1) r t (by omega) hr ht

theorem LowestInterval.cons {h h' : LensPoint} {rest : LensMap} {i : Nat} {p q : LensPoint} (hpass : key h' < x)
    (hlow : LowestInterval key (h' :: rest) x i p q) : LowestInterval key (h :: h' :: rest) x (i + 1) p q where
  start := hlow.start
  stop := hlow.stop
  start_le := hlow.start_le
  le_stop := hlow.le_stop
  lowest
    | 0, r, t, _, _, ht => by
      obtain rfl : h' = t := Option.some.inj ht
      omega
    | j + 1, r, t, hj, hr, ht => hlow.lowest j r t (by omega) hr ht

/-- From a point at or below x, the walk stops at the lowest interval that contains x. -/
theorem reached_of_lowest {h : LensPoint} {rest : LensMap} {i : Nat} {p q : LensPoint} (hx : key h ≤ x)
    (hlow : LowestInterval key (h :: rest) x i p q) : reached key h rest x = some (p, q) := by
  induction rest generalizing h i with
  | nil => exact absurd hlow.stop (by simp)
  | cons h' rest ih =>
    cases i with
    | zero =>
      obtain rfl : h = p := Option.some.inj hlow.start
      obtain rfl : h' = q := Option.some.inj hlow.stop
      exact if_pos hlow.le_stop
    | succ i =>
      have hnot := hlow.lowest 0 h h' (by omega) rfl rfl
      have hpass : key h' < x := by omega
      rw [reached, if_neg (by omega), ih hpass.le hlow.tail]

theorem reached_of_beyond {h : LensPoint} {rest : LensMap} (hbeyond : ∀ r ∈ rest, key r < x) :
    reached key h rest x = none := by
  induction rest generalizing h with
  | nil => rfl
  | cons h' rest ih =>
    rw [List.forall_mem_cons] at hbeyond
    rw [reached, if_neg (by omega), ih hbeyond.2]

theorem exists_lowestInterval_cons {h h' last : LensPoint} {rest : LensMap} (hx : key h ≤ x)
    (hlast : (h' :: rest).getLast? = some last) (hle : x ≤ key last) :
    ∃ i p q, LowestInterval key (h :: h' :: rest) x i p q := by
  induction rest generalizing h h' with
  | nil =>
    obtain rfl : h' = last := by simpa using hlast
    exact ⟨0, h, h', rfl, rfl, hx, hle, by simp⟩
  | cons h'' rest ih =>
    rcases le_or_gt x (key h') with hstop | hpass
    · exact ⟨0, h, h', rfl, rfl, hx, hstop, by simp⟩
    · obtain ⟨i, p, q, hlow⟩ := ih hpass.le (by simpa using hlast)
      exact ⟨i + 1, p, q, hlow.cons hpass⟩

end Walk

/-- A lowest interval by "between" the counts is one by the order along the direction of the map. -/
theorem LowestInterval.of_between {m : LensMap} {increasing : Bool} (hcounts : Rises (countKey increasing) m)
    {c : Int} {i : Nat} {p q : LensPoint} (hp : m[i]? = some p) (hq : m[i + 1]? = some q)
    (hc : Between p.count q.count c)
    (hlowest : ∀ (j : Nat) (r t : LensPoint), j < i → m[j]? = some r → m[j + 1]? = some t →
      ¬ Between r.count t.count c) :
    LowestInterval (countKey increasing) m (along increasing c) i p q where
  start := hp
  stop := hq
  start_le := ((between_iff_along (hcounts.lt hp hq (by omega)) c).mp hc).1
  le_stop := ((between_iff_along (hcounts.lt hp hq (by omega)) c).mp hc).2
  lowest j r t hj hr ht hrt :=
    hlowest j r t hj hr ht ((between_iff_along (hcounts.lt hr ht (by omega)) c).mpr hrt)

theorem LowestInterval.between {m : LensMap} {increasing : Bool} {c : Int} {i : Nat} {p q : LensPoint}
    (hlow : LowestInterval (countKey increasing) m (along increasing c) i p q)
    (hcounts : Rises (countKey increasing) m) : Between p.count q.count c :=
  (between_iff_along (hcounts.lt hlow.start hlow.stop (by omega)) c).mpr ⟨hlow.start_le, hlow.le_stop⟩

theorem forwardFrom_eq (p : LensPoint) (rest : LensMap) (u : Int) {last : LensPoint}
    (hlast : (p :: rest).getLast? = some last) :
    forwardFrom p rest u = (reached LensPoint.unit p rest u).elim (last.count, decide (u ≠ last.unit))
      fun (a, b) => (a.count + rndDiv ((u - a.unit) * (b.count - a.count)) (b.unit - a.unit), false) := by
  induction rest generalizing p with
  | nil =>
    obtain rfl : p = last := by simpa using hlast
    rfl
  | cons q rest ih =>
    rw [forwardFrom, reached]
    split
    · rfl
    · exact ih q (by simpa using hlast)

theorem inverseFrom_cons (increasing : Bool) (p q : LensPoint) (rest : LensMap) (c : Int) :
    inverseFrom increasing p (q :: rest) c =
      if along increasing c ≤ countKey increasing q then
        (p.unit + rndDiv ((c - p.count) * (q.unit - p.unit)) (q.count - p.count), some (p, q))
      else inverseFrom increasing q rest c := by
  simp only [inverseFrom, countKey, along_le_along]

theorem inverseFrom_eq (increasing : Bool) (p : LensPoint) (rest : LensMap) (c : Int) {last : LensPoint}
    (hlast : (p :: rest).getLast? = some last) :
    inverseFrom increasing p rest c =
      (reached (countKey increasing) p rest (along increasing c)).elim (last.unit, none)
        fun (a, b) => (a.unit + rndDiv ((c - a.count) * (b.unit - a.unit)) (b.count - a.count), some (a, b)) := by
  induction rest generalizing p with
  | nil =>
    obtain rfl : p = last := by simpa using hlast
    rfl
  | cons q rest ih =>
    rw [inverseFrom_cons, reached]
    split
    · rfl
    · exact ih q (by simpa using hlast)

/-! ### The conversions of a map, by the place of the key -/

section Place
variable {key : LensPoint → Int} {m rest : LensMap} {first last h : LensPoint} {x : Int}

theorem exists_lowestInterval (hlen : 2 ≤ m.length) (hfirst : m.head? = some first) (hlast : m.getLast? = some last)
    (hge : key first ≤ x) (hle : x ≤ key last) : ∃ i p q, LowestInterval key m x i p q := by
  match m, hlen with
  | h :: h' :: rest, _ =>
    obtain rfl : h = first := Option.some.inj hfirst
    exact exists_lowestInterval_cons hge (by simpa using hlast) hle

/-- A key lies below a map, above it, or in an interval of it. -/
theorem place_cases (key : LensPoint → Int) (x : Int) (hlen : 2 ≤ m.length) (hfirst : m.head? = some first)
    (hlast : m.getLast? = some last) :
    x < key first ∨ key last < x ∨ ∃ i p q, LowestInterval key m x i p q := by
  rcases lt_or_ge x (key first) with hbelow | hge
  · exact .inl hbelow
  rcases lt_or_ge (key last) x with habove | hle
  · exact .inr (.inl habove)
  · exact .inr (.inr (exists_lowestInterval hlen hfirst hlast hge hle))

theorem reached_above (hrises : Rises key (h :: rest)) (hlast : (h :: rest).getLast? = some last)
    (hx : key last < x) : reached key h rest x = none := by
  refine reached_of_beyond fun r hr => ?_
  obtain ⟨k, hk⟩ := List.getElem?_of_mem (List.mem_cons_of_mem h hr)
  exact (hrises.le_last hlast hk).trans_lt hx

end Place

section Forward
variable {m : LensMap} {first last p q : LensPoint} {i : Nat} {u : Int}

theorem forward_below (hfirst : m.head? = some first) (hu : u < first.unit) : forward m u = (first.count, true) := by
  obtain ⟨rest, rfl⟩ := List.head?_eq_some_iff.mp hfirst
  exact if_pos hu

variable (hunits : Rises LensPoint.unit m) (hfirst : m.head? = some first) (hlast : m.getLast? = some last)
include hunits hfirst hlast

theorem forward_above (hu : last.unit < u) : forward m u = (last.count, true) := by
  obtain ⟨rest, rfl⟩ := List.head?_eq_some_iff.mp hfirst
  have hends : first.unit ≤ last.unit := hunits.le_last (i := 0) hlast rfl
  have hpast : u ≠ last.unit := hu.ne'
  rw [forward, if_neg (by omega), forwardFrom_eq first rest u hlast, reached_above hunits hlast hu]
  simp [hpast]

theorem forward_of_lowest (hlow : LowestInterval LensPoint.unit m u i p q) :
    forward m u = (p.count + rndDiv ((u - p.unit) * (q.count - p.count)) (q.unit - p.unit), false) := by
  obtain ⟨rest, rfl⟩ := List.head?_eq_some_iff.mp hfirst
  have hge : first.unit ≤ u := (hunits.first_le hfirst hlow.start).trans hlow.start_le
  rw [forward, if_neg (by omega), forwardFrom_eq first rest u hlast, reached_of_lowest hge hlow]
  rfl

end Forward

section Inverse
variable {m : LensMap} {first last p q : LensPoint} {i : Nat} {c : Int} {increasing : Bool}
  (hlen : 2 ≤ m.length) (hcounts : Rises (countKey increasing) m) (hfirst : m.head? = some first)
  (hlast : m.getLast? = some last)

include hlen hcounts hfirst in
/-- The first two counts of a map give its direction. -/
theorem inverseWith_eq (c : Int) :
    inverseWith m c = if along increasing c < countKey increasing first then (first.unit, none)
      else inverseFrom increasing first m.tail c := by
  match m, hlen with
  | h :: h' :: rest, _ =>
    obtain rfl : h = first := Option.some.inj hfirst
    have hfirstStep : along increasing h.count < along increasing h'.count :=
      hcounts.lt (i := 0) (j := 1) rfl rfl (by omega)
    have hdirection : decide (h.count < h'.count) = increasing := by
      rw [along_lt_along] at hfirstStep
      cases increasing <;> simp at hfirstStep ⊢ <;> omega
    simp only [inverseWith, hdirection, countKey, along_lt_along, List.tail_cons]

include hlen hcounts hfirst in
theorem inverseWith_below (hc : along increasing c < countKey increasing first) :
    inverseWith m c = (first.unit, none) := by
  rw [inverseWith_eq hlen hcounts hfirst, if_pos hc]

include hlen hcounts hfirst hlast

theorem inverseWith_above (hc : countKey increasing last < along increasing c) :
    inverseWith m c = (last.unit, none) := by
  have hends := hcounts.first_lt_last hlen hfirst hlast
  rw [inverseWith_eq hlen hcounts hfirst, if_neg (by omega)]
  obtain ⟨rest, rfl⟩ := List.head?_eq_some_iff.mp hfirst
  rw [List.tail_cons, inverseFrom_eq increasing first rest c hlast, reached_above hcounts hlast hc]
  rfl

theorem inverseWith_of_lowest (hlow : LowestInterval (countKey increasing) m (along increasing c) i p q) :
    inverseWith m c =
      (p.unit + rndDiv ((c - p.count) * (q.unit - p.unit)) (q.count - p.count), some (p, q)) := by
  have hge := (hcounts.first_le hfirst hlow.start).trans hlow.start_le
  rw [inverseWith_eq hlen hcounts hfirst, if_neg (by omega)]
  obtain ⟨rest, rfl⟩ := List.head?_eq_some_iff.mp hfirst
  rw [List.tail_cons, inverseFrom_eq increasing first rest c hlast, reached_of_lowest hge hlow]
  rfl

end Inverse

/-- The velocity conversion of R65 takes the interval of the inverse conversion. -/
theorem lensVelocity_eq {m : LensMap} (hm : m ≠ []) (c v : Int) :
    lensVelocity m c v = (inverseWith m c).2.elim 0
      fun (p, q) => satVel (rndDiv (v * (q.unit - p.unit)) (q.count - p.count)) := by
  match m with
  | h :: rest =>
    rcases hused : (inverseWith (h :: rest) c).2 with _ | ⟨p, q⟩ <;> simp [lensVelocity, hused]

/-! ### The results of the conversions stay in the spans of the map -/

theorem forward_between {m : LensMap} {first last : LensPoint} (hvalid : mapValid m = true)
    (hfirst : m.head? = some first) (hlast : m.getLast? = some last) (u : Int) :
    Between first.count last.count (forward m u).1 := by
  obtain ⟨hlen, hunits, increasing, hcounts⟩ := mapValid_rises hvalid
  rcases place_cases LensPoint.unit u hlen hfirst hlast with hbelow | habove | ⟨i, p, q, hlow⟩
  · rw [forward_below hfirst hbelow]
    exact ⟨min_le_left _ _, le_max_left _ _⟩
  · rw [forward_above hunits hfirst hlast habove]
    exact ⟨min_le_right _ _, le_max_right _ _⟩
  · have hway : p.unit < q.unit := hunits.lt hlow.start hlow.stop (by omega)
    have hin := interpolate_between p.count q.count hway.ne
      ⟨(min_le_left _ _).trans hlow.start_le, hlow.le_stop.trans (le_max_right _ _)⟩
    rw [forward_of_lowest hunits hfirst hlast hlow]
    have hpq := hcounts.lt hlow.start hlow.stop (by omega)
    have hends := hcounts.first_lt_last hlen hfirst hlast
    rw [between_iff_along hpq] at hin
    rw [between_iff_along hends]
    exact ⟨(hcounts.first_le hfirst hlow.start).trans hin.1, hin.2.trans (hcounts.le_last hlast hlow.stop)⟩

theorem inverse_mem {m : LensMap} {first last : LensPoint} (hvalid : mapValid m = true)
    (hfirst : m.head? = some first) (hlast : m.getLast? = some last) (c : Int) :
    first.unit ≤ inverse m c ∧ inverse m c ≤ last.unit := by
  obtain ⟨hlen, hunits, increasing, hcounts⟩ := mapValid_rises hvalid
  have hends := hunits.first_lt_last hlen hfirst hlast
  unfold inverse
  rcases place_cases (countKey increasing) (along increasing c) hlen hfirst hlast with
    hbelow | habove | ⟨i, p, q, hlow⟩
  · rw [inverseWith_below hlen hcounts hfirst hbelow]
    exact ⟨le_rfl, hends.le⟩
  · rw [inverseWith_above hlen hcounts hfirst hlast habove]
    exact ⟨hends.le, le_rfl⟩
  · have hway : along increasing p.count < along increasing q.count := hcounts.lt hlow.start hlow.stop (by omega)
    have hne : p.count ≠ q.count := fun heq => hway.ne (congrArg (along increasing) heq)
    have hin := interpolate_between p.unit q.unit hne (hlow.between hcounts)
    rw [inverseWith_of_lowest hlen hcounts hfirst hlast hlow]
    have hp := hunits.first_le hfirst hlow.start
    have hq := hunits.le_last hlast hlow.stop
    have hpq := hunits.lt hlow.start hlow.stop (by omega)
    unfold Between at hin
    omega

/-! ### Widths -/

/-- The smallness premise on a point: a unit of 16 bits, and a count of at most 2^31 in magnitude. -/
def SmallPoint (r : LensPoint) : Prop := 0 ≤ r.unit ∧ r.unit ≤ 65535 ∧ r.count.natAbs ≤ 2 ^ 31

section Widths
variable {p q : LensPoint} (hp : SmallPoint p) (hq : SmallPoint q)
include hp hq

theorem natAbs_forward_product_lt {u : Int} (hu : p.unit ≤ u ∧ u ≤ q.unit) :
    ((u - p.unit) * (q.count - p.count)).natAbs < 2 ^ 63 := by
  obtain ⟨hp0, hp1, hpc⟩ := hp
  obtain ⟨hq0, hq1, hqc⟩ := hq
  exact natAbs_mul_lt_of_small (by omega) (by omega)

theorem natAbs_inverse_product_lt {c : Int} (hc : Between p.count q.count c) :
    ((c - p.count) * (q.unit - p.unit)).natAbs < 2 ^ 63 := by
  obtain ⟨hp0, hp1, hpc⟩ := hp
  obtain ⟨hq0, hq1, hqc⟩ := hq
  obtain ⟨hlow, hhigh⟩ := hc
  rw [mul_comm]
  exact natAbs_mul_lt_of_small (by omega) (by omega)

end Widths

/-- Settles O26: each conversion interpolates in the interval at which its walk stops, the lowest one that contains
the unit, or the count along the direction of the map. -/
theorem lensMapConversions : Obligations.LensMapConversions := by
  intro m first last hvalid hfirst hlast small between
  obtain ⟨hlen, hunits, increasing, hcounts⟩ := mapValid_rises hvalid
  have hne : m ≠ [] := List.ne_nil_of_length_pos (by omega)
  have hends : along increasing first.count < along increasing last.count :=
    hcounts.first_lt_last hlen hfirst hlast
  have hsmall {k : Nat} {r : LensPoint} (hm : small) (hr : m[k]? = some r) : SmallPoint r :=
    hm r (List.mem_of_getElem? hr)
  refine ⟨fun u => ⟨forward_below hfirst, forward_above hunits hfirst hlast, ?_, ?_,
      forward_between hvalid hfirst hlast u⟩,
    fun c => ⟨?_, ?_, ?_, ?_, rfl, inverse_mem hvalid hfirst hlast c⟩⟩
  · intro i p q hp hq hpu huq hlowest
    exact ⟨forward_of_lowest hunits hfirst hlast ⟨hp, hq, hpu, huq, hlowest⟩,
      fun hm => natAbs_forward_product_lt (hsmall hm hp) (hsmall hm hq) ⟨hpu, huq⟩⟩
  · intro hge hle
    obtain ⟨i, p, q, hlow⟩ := exists_lowestInterval (key := LensPoint.unit) hlen hfirst hlast hge hle
    exact ⟨i, p, q, hlow.start, hlow.stop, hlow.start_le, hlow.le_stop⟩
  · intro hc
    have hbelow := inverseWith_below hlen hcounts hfirst ((along_lt_start_iff hends c).mpr hc)
    exact ⟨hbelow, fun v => by rw [lensVelocity_eq hne, hbelow]; rfl⟩
  · intro hc
    have habove := inverseWith_above hlen hcounts hfirst hlast ((along_end_lt_iff hends c).mpr hc)
    exact ⟨habove, fun v => by rw [lensVelocity_eq hne, habove]; rfl⟩
  · intro i p q hp hq hc hlowest
    have hin := inverseWith_of_lowest hlen hcounts hfirst hlast
      (.of_between hcounts hp hq hc hlowest)
    exact ⟨hin, fun v => by rw [lensVelocity_eq hne, hin]; rfl,
      fun hm => natAbs_inverse_product_lt (hsmall hm hp) (hsmall hm hq) hc⟩
  · intro hc
    obtain ⟨hge, hle⟩ := (between_iff_along hends c).mp hc
    obtain ⟨i, p, q, hlow⟩ := exists_lowestInterval (key := countKey increasing) hlen hfirst hlast hge hle
    exact ⟨i, p, q, hlow.start, hlow.stop, hlow.between hcounts⟩

end Sys2Proof.Machine
end

section
/-! PROOFS. The take store's deletion (section 6.4): the operations on the free-block list and the directory, the
checks of an edit, DELETE, and the overwrite of ARM-RECORD. -/

namespace Sys2Proof.Machine

/-! ### Blocks return to the free-block list, and are taken from it (R82) -/

theorem insertBlock_perm (b : Nat) (free : List Nat) : (insertBlock b free).Perm (b :: free) := by
  induction free with
  | nil => exact .refl _
  | cons c rest ih =>
    simp only [insertBlock]
    split
    · exact .refl _
    · exact (ih.cons c).trans (.swap b c rest)

theorem returnBlocks_perm (bs free : List Nat) : (returnBlocks bs free).Perm (free ++ bs) := by
  induction bs generalizing free with
  | nil => simp [returnBlocks]
  | cons b bs ih =>
    have hrest : (returnBlocks bs (insertBlock b free)).Perm (insertBlock b free ++ bs) := ih _
    exact hrest.trans (((insertBlock_perm b free).append_right bs).trans List.perm_middle.symm)

theorem allocateBlock_of_free {ts : TakeStore} {b : Nat} {rest : List Nat} (slot : Slot) (h : ts.free = b :: rest) :
    allocateBlock slot ts = some { setEntry slot
      { ts.dir.get slot with blocks := (ts.dir.get slot).blocks ++ [b] } ts with free := rest } := by
  simp [allocateBlock, h]

/-! ### The directory after an operation on one entry -/

@[simp] theorem setEntry_get_self (slot : Slot) (e : TakeEntry) (ts : TakeStore) :
    (setEntry slot e ts).dir.get slot = e := Table.get_set_self _ _ _

theorem setEntry_get_ne {slot k : Slot} (h : k ≠ slot) (e : TakeEntry) (ts : TakeStore) :
    (setEntry slot e ts).dir.get k = ts.dir.get k := Table.get_set_ne _ h.symm _

@[simp] theorem emptyEntry_get_self (slot : Slot) (ts : TakeStore) :
    (emptyEntry slot ts).dir.get slot = TakeEntry.empty := setEntry_get_self _ _ _

theorem emptyEntry_get_ne {slot k : Slot} (h : k ≠ slot) (ts : TakeStore) :
    (emptyEntry slot ts).dir.get k = ts.dir.get k := setEntry_get_ne h _ _

theorem emptyEntry_free_perm (slot : Slot) (ts : TakeStore) :
    (emptyEntry slot ts).free.Perm (ts.free ++ (ts.dir.get slot).blocks) := returnBlocks_perm _ _

/-! ### A slot armed for recording (R84) -/

/-- With a block to be had, the slot empties and then takes the lowest block. -/
theorem armSlot_of_free {slot : Slot} {ts : TakeStore} {b : Nat} {rest : List Nat}
    (stamp : BitVec 32) (mask : BitVec 16) (interval : Nat) (h : (emptyEntry slot ts).free = b :: rest) :
    armSlot slot stamp mask interval ts =
      setEntry slot { TakeEntry.empty with
        state := .armed, stamp := stamp, mask := mask, interval := clampInterval interval, blocks := [b] }
        { setEntry slot { TakeEntry.empty with blocks := [b] } (emptyEntry slot ts) with free := rest } := by
  have hblocks : TakeEntry.empty.blocks ++ [b] = [b] := rfl
  have hget : ((setEntry slot { TakeEntry.empty with blocks := [b] } (emptyEntry slot ts)).dir.get slot).blocks =
      [b] := by simp
  simp only [armSlot, allocateBlock_of_free slot h, Option.getD_some, emptyEntry_get_self, hblocks, hget]

theorem armSlot_get_ne {slot k : Slot} (h : k ≠ slot) {ts : TakeStore} {b : Nat} {rest : List Nat}
    (hfree : (emptyEntry slot ts).free = b :: rest) (stamp : BitVec 32) (mask : BitVec 16) (interval : Nat) :
    (armSlot slot stamp mask interval ts).dir.get k = ts.dir.get k := by
  rw [armSlot_of_free stamp mask interval hfree, setEntry_get_ne h]
  exact (setEntry_get_ne h _ _).trans (emptyEntry_get_ne h _)

/-- The blocks available to an arming that overwrites a take are the free ones once that take is emptied. -/
theorem emptyEntry_free_length {s : State} {slot : Slot} (hstored : (entryOf s slot).state = .stored) :
    (emptyEntry slot s.ts).free.length = blocksForArm s slot := by
  rw [(emptyEntry_free_perm slot s.ts).length_eq, List.length_append, blocksForArm, if_pos hstored, entryOf]

/-! ### What other operations leave of the take store -/

theorem abandonBulk_of_none {s : State} (h : s.ts.bulk = .none) : abandonBulk s = s := by
  simp [abandonBulk, h]

/-- With no bulk transfer to abandon, a change of mode leaves the take store alone. -/
theorem setMode_ts_of_none {s : State} (m : Mode) (h : s.ts.bulk = .none) : (setMode m s).ts = s.ts := by
  have heffects : (modeEffects s.tc.mode m (s.setTc { s.tc with mode := m })).ts = s.ts := by
    have hsame := abandonBulk_of_none (s := s.setTc { s.tc with mode := m }) h
    simp only [modeEffects, hsame, ite_self]
    split <;> split <;> simp
  simp only [setMode]
  split <;> split <;> simp [heffects]

/-- A frame is handed over by the line controller alone. -/
theorem handOver_setTs (p : Payload) (s : State) (x : TakeStore) : handOver p (s.setTs x) = (handOver p s).setTs x := by
  by_cases hlink : s.lc.link = .fault
  · simp [handOver, hlink]
  · by_cases hdrop : (queueFrame p s.lc.txq).2 = true <;> simp [handOver, hlink, hdrop] <;> rfl

theorem answerDone_setTs (c : Command) (s : State) (x : TakeStore) :
    answerDone c (s.setTs x) = (answerDone c s).setTs x := by
  simp only [answerDone, answer, handOver_setTs]
  split <;> rfl

theorem answerDone_changesOnly (c : Command) (s : State) : ChangesOnly [.lc] s (answerDone c s) := by
  simp [changesOnly_iff]

theorem Delivered.changesOnly {α : Type} {pick : CommandBody → Option α} {s s1 : State} {c : Command} {x : α}
    (h : Delivered pick s c x s1) : ChangesOnly [.lc] s s1 := by
  simp [changesOnly_iff, h.frame]

theorem changesOnly_setTs (s : State) (x : TakeStore) : ChangesOnly [.ts] s (s.setTs x) := by
  simp [changesOnly_iff]

/-! ### The checks of an edit (R90) -/

theorem editSlot_noTake {s : State} {number : Nat}
    (h : ∀ slot, slotOf number = some slot → (entryOf s slot).state ≠ .stored) :
    editSlot s number = .error .noTake := by
  cases hslot : slotOf number with
  | none => simp [editSlot, hslot]
  | some slot => simp [editSlot, hslot, h slot hslot]

theorem editSlot_takeInUse {s : State} {number : Nat} {slot : Slot} (hslot : slotOf number = some slot)
    (hstored : (entryOf s slot).state = .stored) (huse : takeInUse s slot = true) :
    editSlot s number = .error .takeInUse := by
  simp [editSlot, hslot, hstored, huse]

theorem editSlot_ok {s : State} {number : Nat} {slot : Slot} (hslot : slotOf number = some slot)
    (hstored : (entryOf s slot).state = .stored) (huse : takeInUse s slot = false) :
    editSlot s number = .ok slot := by
  simp [editSlot, hslot, hstored, huse]

/-- Taking the command from the receive queue changes nothing that the checks of an edit read. -/
theorem Delivered.editSlot_eq {α : Type} {pick : CommandBody → Option α} {s s1 : State} {c : Command} {x : α}
    (h : Delivered pick s c x s1) (number : Nat) : editSlot s1 number = editSlot s number := by
  obtain ⟨⟨e, htaken, -⟩, -⟩ := h
  obtain ⟨q, rfl⟩ := takeOffer_setLc htaken
  rfl

/-! ### DELETE (R94) -/

theorem exec_delete_refused {s s1 : State} {c : Command} {number : Nat} {r : Reason}
    (h : Delivered pickDelete s c number s1) (hedit : editSlot s number = .error r) :
    exec .delete s = .next (refuse c r s1) := by
  have heffect : deleteEffect s = refuse c r s1 := by
    rw [deleteEffect, withCommand_noEarly h]
    simp only [h.editSlot_eq, hedit]
  exact congrArg _ heffect

theorem exec_delete_accepted {s s1 : State} {c : Command} {number : Nat} {slot : Slot}
    (h : Delivered pickDelete s c number s1) (hedit : editSlot s number = .ok slot) :
    exec .delete s = .next ((answerDone c s1).setTs (emptyEntry slot s.ts)) := by
  obtain ⟨-, -, -, hts, -⟩ := h.frame
  have heffect : deleteEffect s = (answerDone c s1).setTs (emptyEntry slot s.ts) := by
    rw [deleteEffect, withCommand_noEarly h]
    simp only [h.editSlot_eq, hedit, answerDone_setTs, hts]
  exact congrArg _ heffect

/-! ### ARM-RECORD (R102) -/

/-- An ARM-RECORD that names a slot passes the checks where it passes each of them. -/
theorem armCheck_eq_ok_iff {number : Nat} {slot : Slot} (overwrite : Bool) (s : State)
    (hslot : slotOf number = some slot) :
    armCheck number overwrite s = .ok slot ↔
      bulkFree s = true ∧ armable (entryOf s slot) overwrite = true ∧ unmappedAxis s = none ∧
        blocksForArm s slot ≠ 0 := by
  cases hbulk : bulkFree s
  · simp [armCheck, hbulk]
  cases harm : armable (entryOf s slot) overwrite
  · simp [armCheck, hbulk, hslot, harm]
  cases hmap : unmappedAxis s with
  | some i => simp [armCheck, hbulk, hslot, harm, hmap]
  | none => simp [armCheck, hbulk, hslot, harm, hmap]

theorem bulk_eq_none_of_bulkFree {s : State} (h : bulkFree s = true) : s.ts.bulk = .none := by
  simpa [bulkFree, bulkOpen] using (Bool.and_eq_true_iff.mp h).2

/-- An accepted ARM-RECORD leaves the take store as the arming of the slot makes it. -/
theorem exec_armRecord_ts {s s1 : State} {c : Command} {number interval : Nat} {stamp : BitVec 32}
    {mask : BitVec 16} {overwrite : Bool} {slot : Slot}
    (h : Delivered pickArmRecord s c (number, stamp, mask, interval, overwrite) s1)
    (hmask : inMask mask s.cl.station = true) (hslot : slotOf number = some slot)
    (hcheck : armCheck number overwrite s1 = .ok slot) {b : Nat} {rest : List Nat}
    (hfree : (emptyEntry slot s.ts).free = b :: rest) :
    ∃ t, exec .armRecord s = .next t ∧ t.ts = armSlot slot stamp mask interval s.ts := by
  obtain ⟨-, -, -, hts, -, -, -, -, -, hcl, -⟩ := h.frame
  obtain ⟨hbulkFree, -⟩ := (armCheck_eq_ok_iff overwrite s1 hslot).mp hcheck
  have hbulk : (armSlot slot stamp mask interval s.ts).bulk = .none := by
    rw [armSlot_of_free stamp mask interval hfree, ← bulk_eq_none_of_bulkFree hbulkFree, hts]
    rfl
  refine ⟨armRecordEffect s, rfl, ?_⟩
  rw [armRecordEffect, withCommand_of h (by simp [hcl, hmask])]
  simp only [hcheck, answerClamped_ts, hts]
  exact setMode_ts_of_none _ hbulk

/-- Settles O30: both ways empty the entry first, which returns its blocks; an ARM-RECORD then takes the lowest. -/
theorem deleteReturnsTheBlocks : Obligations.DeleteReturnsTheBlocks := by
  refine ⟨fun s s1 c number h => ⟨fun hnone => exec_delete_refused h (editSlot_noTake hnone),
    fun slot hslot hstored huse => exec_delete_refused h (editSlot_takeInUse hslot hstored huse)⟩, ?_⟩
  intro s s1 c number slot hslot hstored
  have hperm : (emptyEntry slot s.ts).free.Perm (s.ts.free ++ (entryOf s slot).blocks) :=
    emptyEntry_free_perm slot s.ts
  constructor
  case left =>
    intro h huse
    have hframe : ChangesOnly [.lc, .ts] s ((answerDone c s1).setTs (emptyEntry slot s.ts)) :=
      ((h.changesOnly.trans (answerDone_changesOnly c s1)).mono (by simp)).trans
        ((changesOnly_setTs _ _).mono (by simp))
    have hentry : entryOf ((answerDone c s1).setTs (emptyEntry slot s.ts)) slot = TakeEntry.empty :=
      emptyEntry_get_self slot s.ts
    exact ⟨_, exec_delete_accepted h (editSlot_ok hslot hstored huse), hframe, rfl,
      fun k hk => emptyEntry_get_ne hk s.ts, rfl, rfl, hentry, by rw [hentry]; rfl, hperm⟩
  case right =>
    intro stamp mask interval h hmask hcheck
    obtain ⟨-, -, -, hts, -⟩ := h.frame
    obtain ⟨-, -, -, hblocks⟩ := (armCheck_eq_ok_iff true s1 hslot).mp hcheck
    have hstored1 : (entryOf s1 slot).state = .stored := by rwa [entryOf, hts]
    have hsome : (emptyEntry slot s.ts).free ≠ [] := by
      rw [← emptyEntry_free_length hstored1, hts] at hblocks
      exact List.ne_nil_of_length_pos (Nat.pos_of_ne_zero hblocks)
    obtain ⟨b, rest, hfree⟩ := List.exists_cons_of_ne_nil hsome
    obtain ⟨t, hexec, htt⟩ := exec_armRecord_ts h hmask hslot hcheck hfree
    have hentry : entryOf t slot = { TakeEntry.empty with
        state := .armed, stamp := stamp, mask := mask, interval := clampInterval interval, blocks := [b] } := by
      rw [entryOf, htt, armSlot_of_free stamp mask interval hfree, setEntry_get_self]
    have hrest : t.ts.free = rest := by rw [htt, armSlot_of_free stamp mask interval hfree]; rfl
    refine ⟨t, hexec, fun k hk => ?_, ?_, by rw [hentry]; rfl, by rw [hentry]; rfl⟩
    · rw [htt, armSlot_get_ne hk hfree]
    · rw [hentry, hrest]
      exact (List.perm_append_singleton b rest).trans (hfree ▸ hperm)

end Sys2Proof.Machine
end


section
/-! PROOFS. What every step keeps (sections 1.4, 1.5, 3.1, 4.4, 6.1, 7.1, 8.1, 9.3 to 9.7, 11.1, 11.2 and 11.6), as
one relation between the states before and after an operation; updates of one block that stand in it. -/

namespace Sys2Proof.Machine

/-! ### The relation -/

/-- The ranges of the rates and ceilings, whatever the mode. -/
structure RatesBound (s : State) : Prop where
  path : s.pu.r ≤ 1024
  move : s.pu.rm ≤ 1024
  master : s.pu.master ≤ 1024
  strain : 128 ≤ s.pu.strain ∧ s.pu.strain ≤ 1024
  guard : s.gu.ceiling ≤ 1024

-- In place, so that the parts of the text are elaborated one after the other and not all at once.
set_option Elab.async false in
theorem RatesInv.bound {s : State} (h : RatesInv s) : RatesBound s := ⟨h.path, h.move, h.master, h.strain, h.guard⟩

/-- The invariants that no change of mode and no rise of the class suspends for a moment: each that holds in s holds
in t. -/
structure KeepsCore (s t : State) : Prop where
  queues : QueuesInv s → QueuesInv t
  bound : RatesBound s → RatesBound t
  claims : ClaimsInv s → ClaimsInv t
  blocks : BlocksInv s.ts → BlocksInv t.ts
  pool : Pool.wf s.ts.pool → Pool.wf t.ts.pool
  setpoint : SetpointInv s → SetpointInv t

/-- Each of the invariants that holds in s holds in t. -/
structure Keeps (s t : State) : Prop extends KeepsCore s t where
  rates : RatesInv s → RatesInv t
  context : ContextInv s → ContextInv t
  latch : LatchInv s → LatchInv t

theorem KeepsCore.refl (s : State) : KeepsCore s s := ⟨id, id, id, id, id, id⟩

theorem KeepsCore.trans {s t u : State} (h : KeepsCore s t) (h' : KeepsCore t u) : KeepsCore s u :=
  ⟨h'.queues ∘ h.queues, h'.bound ∘ h.bound, h'.claims ∘ h.claims, h'.blocks ∘ h.blocks, h'.pool ∘ h.pool,
    h'.setpoint ∘ h.setpoint⟩

theorem Keeps.refl (s : State) : Keeps s s := ⟨.refl s, id, id, id⟩

theorem Keeps.trans {s t u : State} (h : Keeps s t) (h' : Keeps t u) : Keeps s u :=
  ⟨h.toKeepsCore.trans h'.toKeepsCore, h'.rates ∘ h.rates, h'.context ∘ h.context, h'.latch ∘ h.latch⟩

/-- `Keeps.trans` with the later operation first. -/
theorem Keeps.after {s t u : State} (h' : Keeps t u) (h : Keeps s t) : Keeps s u := h.trans h'

theorem Keeps.ite {s t u : State} {p : Prop} [Decidable p] (ht : p → Keeps s t) (hu : ¬ p → Keeps s u) :
    Keeps s (if p then t else u) := by
  split
  · exact ht ‹_›
  · exact hu ‹_›

/-- An operation made for each member of a list, P being what it needs of the state before it. -/
theorem Keeps.foldl_of {α : Type} {f : State → α → State} {P : State → Prop} (l : List α)
    (h : ∀ s a, a ∈ l → P s → Keeps s (f s a) ∧ P (f s a)) {s : State} (hs : P s) : Keeps s (l.foldl f s) := by
  induction l generalizing s with
  | nil => exact .refl s
  | cons a l ih =>
    obtain ⟨hk, hP⟩ := h s a List.mem_cons_self hs
    exact hk.trans (ih (fun s b hb => h s b (List.mem_cons_of_mem a hb)) hP)

theorem Keeps.foldl {α : Type} {f : State → α → State} (h : ∀ s a, Keeps s (f s a)) (l : List α) (s : State) :
    Keeps s (l.foldl f s) :=
  Keeps.foldl_of (P := fun _ => True) l (fun s a _ _ => ⟨h s a, trivial⟩) trivial

/-! ### Updates of one block -/

/-- The transmit queue is within its length and in order. -/
def TxInv (q : List TxFrame) : Prop := q.length ≤ 8 ∧ classesRise q

theorem keeps_setLc {s : State} {x : LineController} (htx : TxInv s.lc.txq → TxInv x.txq)
    (hrx : s.lc.rxq.length ≤ 4 → x.rxq.length ≤ 4) : Keeps s (s.setLc x) where
  queues h := ⟨(htx ⟨h.tx, h.order⟩).1, (htx ⟨h.tx, h.order⟩).2, hrx h.rx, h.segments⟩
  bound h := ⟨h.path, h.move, h.master, h.strain, h.guard⟩
  claims h := ⟨h.keys, h.classes, h.mismatch, h.line, h.effective⟩
  blocks h := h
  pool h := h
  setpoint h := ⟨h.disabled, h.params, h.law⟩
  rates h := ⟨h.path, h.move, h.master, h.strain, h.guard, h.recording, h.standing⟩
  context h := h
  latch h := h

theorem keeps_setPt (s : State) (x : PeerTable) : Keeps s (s.setPt x) where
  queues h := ⟨h.tx, h.order, h.rx, h.segments⟩
  bound h := ⟨h.path, h.move, h.master, h.strain, h.guard⟩
  claims h := ⟨h.keys, h.classes, h.mismatch, h.line, h.effective⟩
  blocks h := h
  pool h := h
  setpoint h := ⟨h.disabled, h.params, h.law⟩
  rates h := ⟨h.path, h.move, h.master, h.strain, h.guard, h.recording, h.standing⟩
  context h := h
  latch h := h

theorem keeps_setLmu (s : State) (x : Table LensChannel 3) : Keeps s (s.setLmu x) where
  queues h := ⟨h.tx, h.order, h.rx, h.segments⟩
  bound h := ⟨h.path, h.move, h.master, h.strain, h.guard⟩
  claims h := ⟨h.keys, h.classes, h.mismatch, h.line, h.effective⟩
  blocks h := h
  pool h := h
  setpoint h := ⟨h.disabled, h.params, h.law⟩
  rates h := ⟨h.path, h.move, h.master, h.strain, h.guard, h.recording, h.standing⟩
  context h := h
  latch h := h

/-- A channel may become this: it stays DISABLED or not, and inside its limits when it was. -/
structure ChannelMay (a : AxisConfig) (c d : AxisChannel) : Prop where
  disabled : d.state = .disabled ↔ c.state = .disabled
  law : c.state ≠ .disabled → AxisParams a → SetpointHolds a c → SetpointHolds a d

theorem keeps_setAx {s : State} {x : AxisBlock}
    (h : SetpointInv s → ∀ i, ChannelMay (axisCfg s i) (axisCh s i) (x.ch.get i)) : Keeps s (s.setAx x) where
  queues h := ⟨h.tx, h.order, h.rx, h.segments⟩
  bound h := ⟨h.path, h.move, h.master, h.strain, h.guard⟩
  claims h := ⟨h.keys, h.classes, h.mismatch, h.line, h.effective⟩
  blocks h := h
  pool h := h
  setpoint hs := ⟨fun i => (h hs i).disabled.trans (hs.disabled i), hs.params, fun i hi =>
    (h hs i).law (by simp [hs.disabled i, show configured s i = true from hi]) (hs.params i hi) (hs.law i hi)⟩
  rates h := ⟨h.path, h.move, h.master, h.strain, h.guard, h.recording, h.standing⟩
  context h := h
  latch h := h

theorem keeps_setTs {s : State} {x : TakeStore} (hb : BlocksInv s.ts → BlocksInv x)
    (hp : Pool.wf s.ts.pool → Pool.wf x.pool) : Keeps s (s.setTs x) where
  queues h := ⟨h.tx, h.order, h.rx, h.segments⟩
  bound h := ⟨h.path, h.move, h.master, h.strain, h.guard⟩
  claims h := ⟨h.keys, h.classes, h.mismatch, h.line, h.effective⟩
  setpoint h := ⟨h.disabled, h.params, h.law⟩
  blocks := hb
  pool := hp
  rates h := ⟨h.path, h.move, h.master, h.strain, h.guard, h.recording, h.standing⟩
  context h := h
  latch h := h

theorem keeps_setFd {s : State} {x : Feeder} (hq : s.fd.queue.length ≤ 8 → x.queue.length ≤ 8) :
    Keeps s (s.setFd x) where
  queues h := ⟨h.tx, h.order, h.rx, hq h.segments⟩
  bound h := ⟨h.path, h.move, h.master, h.strain, h.guard⟩
  claims h := ⟨h.keys, h.classes, h.mismatch, h.line, h.effective⟩
  blocks h := h
  pool h := h
  setpoint h := ⟨h.disabled, h.params, h.law⟩
  rates h := ⟨h.path, h.move, h.master, h.strain, h.guard, h.recording, h.standing⟩
  context h := h
  latch h := h

theorem core_setTc (s : State) (x : TakeController) : KeepsCore s (s.setTc x) where
  queues h := ⟨h.tx, h.order, h.rx, h.segments⟩
  bound h := ⟨h.path, h.move, h.master, h.strain, h.guard⟩
  claims h := ⟨h.keys, h.classes, h.mismatch, h.line, h.effective⟩
  blocks h := h
  pool h := h
  setpoint h := ⟨h.disabled, h.params, h.law⟩

theorem keeps_setTc {s : State} {x : TakeController} (hm : x.mode = s.tc.mode)
    (hc : x.ctx.isNone = s.tc.ctx.isNone) : Keeps s (s.setTc x) where
  toKeepsCore := core_setTc s x
  rates h := ⟨h.path, h.move, h.master, h.strain, h.guard, fun hr => h.recording (hm.symm.trans hr),
    fun hp hr => h.standing (hm ▸ hp) (hm ▸ hr)⟩
  context h := by simpa [ContextInv, hm, hc] using h
  latch h := h

theorem core_setPu {s : State} {x : PaceUnit} (hb : RatesBound s → RatesBound (s.setPu x)) :
    KeepsCore s (s.setPu x) where
  queues h := ⟨h.tx, h.order, h.rx, h.segments⟩
  claims h := ⟨h.keys, h.classes, h.mismatch, h.line, h.effective⟩
  blocks h := h
  pool h := h
  setpoint h := ⟨h.disabled, h.params, h.law⟩
  bound := hb

theorem keeps_setPu {s : State} {x : PaceUnit} (hb : RatesBound s → RatesBound (s.setPu x))
    (h : RatesInv s → RatesInv (s.setPu x)) : Keeps s (s.setPu x) where
  toKeepsCore := core_setPu hb
  rates := h
  context h := h
  latch h := h

/-- The pace unit with its rates as they were. -/
theorem keeps_setPu_same {s : State} {x : PaceUnit} (hr : x.r = s.pu.r) (hrm : x.rm = s.pu.rm)
    (hm : x.master = s.pu.master) (hk : x.strain = s.pu.strain) : Keeps s (s.setPu x) := by
  refine keeps_setPu (fun h => ?_) (fun h => ?_)
  · obtain ⟨h1, h2, h3, h4, h5⟩ := h
    constructor <;> simpa [hr, hrm, hm, hk]
  · obtain ⟨h1, h2, h3, h4, h5, h6, h7⟩ := h
    constructor <;> simpa [hr, hrm, hm, hk]

theorem keeps_setGu {s : State} {x : GuardUnit} (hg : s.gu.ceiling ≤ 1024 → x.ceiling ≤ 1024) :
    Keeps s (s.setGu x) where
  queues h := ⟨h.tx, h.order, h.rx, h.segments⟩
  claims h := ⟨h.keys, h.classes, h.mismatch, h.line, h.effective⟩
  blocks h := h
  pool h := h
  setpoint h := ⟨h.disabled, h.params, h.law⟩
  bound h := ⟨h.path, h.move, h.master, h.strain, hg h.guard⟩
  rates h := ⟨h.path, h.move, h.master, h.strain, hg h.guard, h.recording, h.standing⟩
  context h := h
  latch h := h

theorem core_setSu {s : State} {x : StopUnit} (hc : ClaimsInv s → ClaimsInv (s.setSu x)) :
    KeepsCore s (s.setSu x) where
  queues h := ⟨h.tx, h.order, h.rx, h.segments⟩
  bound h := ⟨h.path, h.move, h.master, h.strain, h.guard⟩
  blocks h := h
  pool h := h
  setpoint h := ⟨h.disabled, h.params, h.law⟩
  claims := hc

theorem keeps_setSu {s : State} {x : StopUnit} (hc : ClaimsInv s → ClaimsInv (s.setSu x))
    (hl : LatchInv s → LatchInv (s.setSu x)) : Keeps s (s.setSu x) where
  toKeepsCore := core_setSu hc
  rates h := ⟨h.path, h.move, h.master, h.strain, h.guard, h.recording, h.standing⟩
  context h := h
  latch := hl

/-- The stop unit with its claims, its class and its latch as they were. -/
theorem keeps_setSu_same {s : State} {x : StopUnit} (hown : x.own = s.su.own) (hent : x.entries = s.su.entries)
    (hline : x.lineOpen = s.su.lineOpen) (heff : x.effective = s.su.effective)
    (hlatch : x.driveLatch = s.su.driveLatch) : Keeps s (s.setSu x) := by
  refine keeps_setSu (fun h => ?_) (fun h => by simpa [LatchInv, heff, hlatch] using h)
  have hform : formEffective x = formEffective s.su := by
    simp [formEffective, ownClass, tableClass, hown, hent, hline]
  obtain ⟨h1, h2, h3, h4, h5⟩ := h
  constructor <;> simpa only [setSu_su, hown, hline, heff, hform]

theorem keeps_setCl {s : State} {x : Loader} (hc : x.cfg = s.cl.cfg) : Keeps s (s.setCl x) where
  queues h := ⟨h.tx, h.order, h.rx, h.segments⟩
  bound h := ⟨h.path, h.move, h.master, h.strain, h.guard⟩
  claims h := ⟨h.keys, h.classes, h.mismatch, h.line, h.effective⟩
  blocks h := h
  pool h := h
  setpoint h := ⟨by simpa [configured, axisCh, hc] using h.disabled, by simpa [configured, axisCfg, hc] using h.params,
    by simpa [configured, axisCfg, axisCh, hc] using h.law⟩
  rates h := ⟨h.path, h.move, h.master, h.strain, h.guard, h.recording, h.standing⟩
  context h := h
  latch h := h

/-- The queue of waiting commands. -/
theorem keeps_pending (s : State) (p : List Instr) : Keeps s { s with pending := p } where
  queues h := ⟨h.tx, h.order, h.rx, h.segments⟩
  bound h := ⟨h.path, h.move, h.master, h.strain, h.guard⟩
  claims h := ⟨h.keys, h.classes, h.mismatch, h.line, h.effective⟩
  blocks h := h
  pool h := h
  setpoint h := ⟨h.disabled, h.params, h.law⟩
  rates h := ⟨h.path, h.move, h.master, h.strain, h.guard, h.recording, h.standing⟩
  context h := h
  latch h := h

/-! ### A write to one block changes that block alone -/

theorem ChangesOnly.ite {p : Prop} [Decidable p] {bs : List Block} {s t u : State} (h : p → ChangesOnly bs s t)
    (h' : ¬ p → ChangesOnly bs s u) : ChangesOnly bs s (if p then t else u) := by
  by_cases hp : p
  · rw [if_pos hp]
    exact h hp
  · rw [if_neg hp]
    exact h' hp

theorem ChangesOnly.among {b : Block} {bs : List Block} {s t : State} (h : ChangesOnly [b] s t) (hb : b ∈ bs) :
    ChangesOnly bs s t := h.mono fun _ hx => List.mem_singleton.mp hx ▸ hb

theorem changesOnly_lc {bs : List Block} {s : State} {x : LineController} (hb : .lc ∈ bs) :
    ChangesOnly bs s (s.setLc x) :=
  (changesOnly_iff _ _ _).mpr ⟨(absurd hb ·), fun _ => rfl, fun _ => rfl, fun _ => rfl, fun _ => rfl,
    fun _ => rfl, fun _ => rfl, fun _ => rfl, fun _ => rfl, fun _ => rfl, fun _ => rfl, rfl⟩

theorem changesOnly_pt {bs : List Block} {s : State} {x : PeerTable} (hb : .pt ∈ bs) :
    ChangesOnly bs s (s.setPt x) :=
  (changesOnly_iff _ _ _).mpr ⟨fun _ => rfl, (absurd hb ·), fun _ => rfl, fun _ => rfl, fun _ => rfl,
    fun _ => rfl, fun _ => rfl, fun _ => rfl, fun _ => rfl, fun _ => rfl, fun _ => rfl, rfl⟩

theorem changesOnly_ax {bs : List Block} {s : State} {x : AxisBlock} (hb : .ax ∈ bs) :
    ChangesOnly bs s (s.setAx x) :=
  (changesOnly_iff _ _ _).mpr ⟨fun _ => rfl, fun _ => rfl, (absurd hb ·), fun _ => rfl, fun _ => rfl,
    fun _ => rfl, fun _ => rfl, fun _ => rfl, fun _ => rfl, fun _ => rfl, fun _ => rfl, rfl⟩

theorem changesOnly_ts {bs : List Block} {s : State} {x : TakeStore} (hb : .ts ∈ bs) :
    ChangesOnly bs s (s.setTs x) :=
  (changesOnly_iff _ _ _).mpr ⟨fun _ => rfl, fun _ => rfl, fun _ => rfl, fun _ => rfl, (absurd hb ·),
    fun _ => rfl, fun _ => rfl, fun _ => rfl, fun _ => rfl, fun _ => rfl, fun _ => rfl, rfl⟩

theorem changesOnly_fd {bs : List Block} {s : State} {x : Feeder} (hb : .fd ∈ bs) :
    ChangesOnly bs s (s.setFd x) :=
  (changesOnly_iff _ _ _).mpr ⟨fun _ => rfl, fun _ => rfl, fun _ => rfl, fun _ => rfl, fun _ => rfl,
    (absurd hb ·), fun _ => rfl, fun _ => rfl, fun _ => rfl, fun _ => rfl, fun _ => rfl, rfl⟩

theorem changesOnly_tc {bs : List Block} {s : State} {x : TakeController} (hb : .tc ∈ bs) :
    ChangesOnly bs s (s.setTc x) :=
  (changesOnly_iff _ _ _).mpr ⟨fun _ => rfl, fun _ => rfl, fun _ => rfl, fun _ => rfl, fun _ => rfl,
    fun _ => rfl, (absurd hb ·), fun _ => rfl, fun _ => rfl, fun _ => rfl, fun _ => rfl, rfl⟩

theorem changesOnly_pu {bs : List Block} {s : State} {x : PaceUnit} (hb : .pu ∈ bs) :
    ChangesOnly bs s (s.setPu x) :=
  (changesOnly_iff _ _ _).mpr ⟨fun _ => rfl, fun _ => rfl, fun _ => rfl, fun _ => rfl, fun _ => rfl,
    fun _ => rfl, fun _ => rfl, (absurd hb ·), fun _ => rfl, fun _ => rfl, fun _ => rfl, rfl⟩

theorem changesOnly_gu {bs : List Block} {s : State} {x : GuardUnit} (hb : .gu ∈ bs) :
    ChangesOnly bs s (s.setGu x) :=
  (changesOnly_iff _ _ _).mpr ⟨fun _ => rfl, fun _ => rfl, fun _ => rfl, fun _ => rfl, fun _ => rfl,
    fun _ => rfl, fun _ => rfl, fun _ => rfl, (absurd hb ·), fun _ => rfl, fun _ => rfl, rfl⟩

theorem changesOnly_su {bs : List Block} {s : State} {x : StopUnit} (hb : .su ∈ bs) :
    ChangesOnly bs s (s.setSu x) :=
  (changesOnly_iff _ _ _).mpr ⟨fun _ => rfl, fun _ => rfl, fun _ => rfl, fun _ => rfl, fun _ => rfl,
    fun _ => rfl, fun _ => rfl, fun _ => rfl, fun _ => rfl, (absurd hb ·), fun _ => rfl, rfl⟩

end Sys2Proof.Machine
end


section
/-! PROOFS. The transmit and the receive queue (sections 1.4 and 1.5): where a frame joins, what it replaces or
displaces, and that the queues keep their lengths and the order of the classes. -/

namespace Sys2Proof.Machine

/-! ### Where a frame goes in the transmit queue (R12, R13) -/

/-- A frame as it is handed over. -/
abbrev newFrame (p : Payload) : TxFrame := { payload := p, onLine := false }

-- In place, so that the parts of the text are elaborated one after the other and not all at once.
set_option Elab.async false in
/-- A frame joins behind every frame up to its class and in front of the first of a higher class number. -/
theorem insertFrame_split (p : Payload) (q : List TxFrame) :
    ∃ before after, q = before ++ after ∧ (∀ g ∈ before, frameClass g.payload ≤ frameClass p) ∧
      (∀ g ∈ after.head?, frameClass p < frameClass g.payload) ∧
      insertFrame p q = before ++ newFrame p :: after := by
  induction q with
  | nil => exact ⟨[], [], by simp [insertFrame]⟩
  | cons f rest ih =>
    by_cases hlt : frameClass p < frameClass f.payload
    · exact ⟨[], f :: rest, by simp [insertFrame, hlt]⟩
    · obtain ⟨before, after, rfl, hle, hlt', heq⟩ := ih
      refine ⟨f :: before, after, rfl, ?_, hlt', by simp [insertFrame, hlt, heq]⟩
      exact List.forall_mem_cons.mpr ⟨Nat.le_of_not_lt hlt, hle⟩

/-- A frame that is replaced is the first of its kind that is not on the line. -/
theorem replaceFrame_split {p : Payload} {q : List TxFrame} (h : ∃ f ∈ q, replaceable p.kind f = true) :
    ∃ before f after, q = before ++ f :: after ∧ replaceable p.kind f = true ∧
      (∀ g ∈ before, replaceable p.kind g = false) ∧ replaceFrame p q = before ++ newFrame p :: after := by
  induction q with
  | nil =>
    obtain ⟨f, hf, -⟩ := h
    cases hf
  | cons f rest ih =>
    cases hf : replaceable p.kind f with
    | true => exact ⟨[], f, rest, by simp [replaceFrame, hf]⟩
    | false =>
      have hrest : ∃ g ∈ rest, replaceable p.kind g = true := by
        obtain ⟨g, hg, hr⟩ := h
        rcases List.mem_cons.mp hg with rfl | hg
        · exact absurd (hf.symm.trans hr) Bool.false_ne_true
        · exact ⟨g, hg, hr⟩
      obtain ⟨before, g, after, rfl, hg, hbefore, heq⟩ := ih hrest
      exact ⟨f :: before, g, after, rfl, hg, List.forall_mem_cons.mpr ⟨hf, hbefore⟩, by simp [replaceFrame, hf, heq]⟩

theorem frameClass_of_replaceable {p : Payload} {f : TxFrame} (h : replaceable p.kind f = true) :
    frameClass f.payload = frameClass p := by
  have hkind : f.payload.kind = p.kind := by
    simp only [replaceable, Bool.and_eq_true, beq_iff_eq] at h
    exact h.1.2
  rw [frameClass, frameClass, hkind]

/-! ### The transmit queue after a hand-over -/

theorem queueFrame_replaces {p : Payload} {q : List TxFrame} (h : ∃ f ∈ q, replaceable p.kind f = true) :
    queueFrame p q = (replaceFrame p q, false) := by
  have hany : q.any (replaceable p.kind) = true := List.any_eq_true.mpr h
  simp [queueFrame, hany]

theorem any_replaceable_eq_false {k : Kind} {q : List TxFrame} (h : ∀ f ∈ q, replaceable k f = false) :
    q.any (replaceable k) = false :=
  List.any_eq_false.mpr fun f hf => by simp [h f hf]

theorem queueFrame_joins {p : Payload} {q : List TxFrame} (h : ∀ f ∈ q, replaceable p.kind f = false)
    (hlen : q.length < 8) : queueFrame p q = (insertFrame p q, false) := by
  simp [queueFrame, any_replaceable_eq_false h, hlen]

theorem queueFrame_drops {p : Payload} {q : List TxFrame} (h : ∀ f ∈ q, replaceable p.kind f = false)
    (hlen : 8 ≤ q.length) (hcls : frameClass p ≠ 0) : queueFrame p q = (q, true) := by
  simp [queueFrame, any_replaceable_eq_false h, Nat.not_lt.mpr hlen, hcls]

/-- At a full queue a frame of class 0 displaces the last frame, unless that is on the line or of class 0. -/
theorem queueFrame_displaces {p : Payload} {q : List TxFrame} {last : TxFrame}
    (h : ∀ f ∈ q, replaceable p.kind f = false) (hlen : 8 ≤ q.length) (hcls : frameClass p = 0)
    (hlast : q.getLast? = some last) :
    queueFrame p q =
      (if last.onLine = true ∨ frameClass last.payload = 0 then q else insertFrame p q.dropLast, true) := by
  simp only [queueFrame, any_replaceable_eq_false h, Nat.not_lt.mpr hlen, hcls, hlast]
  by_cases hl : last.onLine = true ∨ frameClass last.payload = 0 <;> simp [hl]

theorem exists_getLast_of_full {q : List TxFrame} (h : 8 ≤ q.length) : ∃ last, q.getLast? = some last :=
  ⟨_, List.getLast?_eq_some_getLast (List.ne_nil_of_length_pos (by omega))⟩

/-! ### Its length and its order -/

theorem txInv_of_split {p : Payload} {before after : List TxFrame} (h : TxInv (before ++ after))
    (hlen : (before ++ after).length < 8) (hle : ∀ g ∈ before, frameClass g.payload ≤ frameClass p)
    (hlt : ∀ g ∈ after.head?, frameClass p < frameClass g.payload) : TxInv (before ++ newFrame p :: after) := by
  have hafter : ∀ g ∈ after, frameClass p ≤ frameClass g.payload := by
    obtain ⟨-, hrise⟩ := h
    cases after with
    | nil => simp
    | cons a rest =>
      have ha : frameClass p < frameClass a.payload := hlt a rfl
      have hrest : ∀ g ∈ rest, frameClass a.payload ≤ frameClass g.payload := by
        simp only [classesRise, List.map_append, List.pairwise_append, List.map_cons, List.pairwise_cons,
          List.forall_mem_map] at hrise
        exact hrise.2.1.1
      simp only [List.forall_mem_cons]
      exact ⟨ha.le, fun g hg => ha.le.trans (hrest g hg)⟩
  obtain ⟨-, hrise⟩ := h
  refine ⟨by simp only [List.length_append, List.length_cons] at hlen ⊢; omega, ?_⟩
  simp only [classesRise, List.map_append, List.map_cons, List.pairwise_append, List.pairwise_cons, List.mem_cons,
    List.forall_mem_map, forall_eq_or_imp] at hrise ⊢
  exact ⟨hrise.1, ⟨hafter, hrise.2.1⟩, fun g hg => ⟨hle g hg, hrise.2.2 g hg⟩⟩

theorem insertFrame_txInv {p : Payload} {q : List TxFrame} (h : TxInv q) (hlen : q.length < 8) :
    TxInv (insertFrame p q) := by
  obtain ⟨before, after, rfl, hle, hlt, heq⟩ := insertFrame_split p q
  exact heq ▸ txInv_of_split h hlen hle hlt

/-- Frames of the same classes stand in the queue, in the same order. -/
theorem TxInv.of_classes {q q' : List TxFrame} (h : TxInv q)
    (heq : q'.map (fun f => frameClass f.payload) = q.map fun f => frameClass f.payload) : TxInv q' := by
  refine ⟨?_, by rw [classesRise, heq]; exact h.2⟩
  have hlen := congrArg List.length heq
  simp only [List.length_map] at hlen
  exact hlen ▸ h.1

theorem TxInv.of_sublist {q q' : List TxFrame} (h : TxInv q) (hs : q'.Sublist q) : TxInv q' :=
  ⟨hs.length_le.trans h.1, h.2.sublist (hs.map _)⟩

theorem queueFrame_txInv (p : Payload) {q : List TxFrame} (h : TxInv q) : TxInv (queueFrame p q).1 := by
  by_cases hrep : ∃ f ∈ q, replaceable p.kind f = true
  · obtain ⟨before, f, after, rfl, hf, -, heq⟩ := replaceFrame_split hrep
    rw [queueFrame_replaces hrep, heq]
    exact h.of_classes (by simp [frameClass_of_replaceable hf])
  have hnone : ∀ f ∈ q, replaceable p.kind f = false := fun f hf => Bool.eq_false_iff.mpr fun h => hrep ⟨f, hf, h⟩
  by_cases hlen : q.length < 8
  · rw [queueFrame_joins hnone hlen]
    exact insertFrame_txInv h hlen
  have hfull : 8 ≤ q.length := Nat.le_of_not_lt hlen
  by_cases hcls : frameClass p = 0
  · obtain ⟨last, hlast⟩ := exists_getLast_of_full hfull
    rw [queueFrame_displaces hnone hfull hcls hlast]
    split
    · exact h
    · refine insertFrame_txInv (h.of_sublist (List.dropLast_sublist q)) ?_
      have := h.1
      rw [List.length_dropLast]
      omega
  · rw [queueFrame_drops hnone hfull hcls]
    exact h

/-! ### A hand-over, whole -/

theorem handOver_fault (p : Payload) {s : State} (h : s.lc.link = .fault) : handOver p s = s := by simp [handOver, h]

theorem handOver_txq (p : Payload) {s : State} (h : s.lc.link ≠ .fault) :
    (handOver p s).lc.txq = (queueFrame p s.lc.txq).1 := by
  cases hdrop : (queueFrame p s.lc.txq).2 <;> simp [handOver, h, hdrop, countTxDrop, setCounters]

theorem handOver_counters (p : Payload) {s : State} (h : s.lc.link ≠ .fault) :
    (handOver p s).lc.counters =
      if (queueFrame p s.lc.txq).2 then { s.lc.counters with txDrops := bump s.lc.counters.txDrops }
      else s.lc.counters := by
  cases hdrop : (queueFrame p s.lc.txq).2 <;> simp [handOver, h, hdrop, countTxDrop, setCounters]

theorem handOver_txInv (p : Payload) {s : State} (h : TxInv s.lc.txq) : TxInv (handOver p s).lc.txq := by
  by_cases hlink : s.lc.link = .fault
  · rwa [handOver_fault p hlink]
  · rw [handOver_txq p hlink]
    exact queueFrame_txInv p h

theorem readoutFits_iff (s : State) : readoutFits s = true ↔
    s.lc.txq.length < 8 ∧ (s.lc.txq.filter fun f => f.payload.kind == .keyframeData).length < 4 := by
  rw [readoutFits, Bool.and_eq_true, decide_eq_true_iff, decide_eq_true_iff]
  rfl

theorem handOver_changesOnly (p : Payload) (s : State) : ChangesOnly [.lc] s (handOver p s) := by
  simp only [handOver]
  exact .ite (fun _ => .refl _ _) fun _ => .ite (fun _ => changesOnly_lc (.head _)) fun _ => changesOnly_lc (.head _)

/-- Settles O2: a hand-over by the four ways in which the queue takes a frame. -/
theorem transmitQueueTakesFrames : Obligations.TransmitQueueTakesFrames := by
  intro p s
  refine ⟨handOver_fault p, fun hlink => ⟨handOver_changesOnly p s, (handOver_link p s).1, (handOver_link p s).2.1,
    fun hrep => ?_, readoutFits_iff s, fun hnone hlen _ => ?_, fun hnone hlen hcls _ => ?_,
    fun hnone hlen hcls => ⟨?_, fun last hlast => ?_⟩⟩⟩
  · obtain ⟨before, f, after, hq, hf, hbefore, heq⟩ := replaceFrame_split hrep
    refine ⟨before, f, after, hq, hf, hbefore, ?_, ?_⟩
    · rw [handOver_txq p hlink, queueFrame_replaces hrep, heq]
    · simp [handOver_counters p hlink, queueFrame_replaces hrep]
  · obtain ⟨before, after, hq, hle, hlt, heq⟩ := insertFrame_split p s.lc.txq
    refine ⟨before, after, hq, hle, hlt, ?_, ?_⟩
    · rw [handOver_txq p hlink, queueFrame_joins hnone hlen, heq]
    · simp [handOver_counters p hlink, queueFrame_joins hnone hlen]
  · rw [handOver_txq p hlink, handOver_counters p hlink, queueFrame_drops hnone hlen hcls]
    exact ⟨rfl, rfl⟩
  · obtain ⟨last, hlast⟩ := exists_getLast_of_full hlen
    rw [handOver_counters p hlink, queueFrame_displaces hnone hlen hcls hlast]
    rfl
  · have hq := queueFrame_displaces hnone hlen hcls hlast
    refine ⟨fun hstays => ?_, fun hoff hpos => ?_⟩
    · rw [handOver_txq p hlink, hq, if_pos hstays]
    · obtain ⟨before, after, hd, hle, hlt, heq⟩ := insertFrame_split p s.lc.txq.dropLast
      refine ⟨before, after, hd, hle, hlt, ?_⟩
      rw [handOver_txq p hlink, hq, if_neg (by simp [hoff, hpos]), heq]

/-! ### The receive queue (R10, R11) -/

/-- The entry that is taken stands in the queue, with the rest around it. -/
theorem findOffer_split {s : State} {want : Payload → Bool} {before after rest : List RxEntry} {e : RxEntry}
    (h : findOffer s want before after = some (e, rest)) :
    ∃ l r, before ++ after = l ++ e :: r ∧ rest = l ++ r ∧ want e.payload = true ∧ offerable s l r e = true := by
  induction after generalizing before with
  | nil => simp [findOffer] at h
  | cons a after ih =>
    by_cases hoffer : (want a.payload && offerable s before after a) = true
    · simp only [findOffer, hoffer, if_true, Option.some.injEq, Prod.mk.injEq] at h
      obtain ⟨rfl, rfl⟩ := h
      exact ⟨before, after, rfl, rfl, Bool.and_eq_true_iff.mp hoffer⟩
    · simp only [findOffer, hoffer] at h
      rw [List.append_cons]
      exact ih h

theorem takeOffer_rxq {want : Payload → Bool} {s s1 : State} {e : RxEntry} (h : takeOffer want s = some (e, s1)) :
    ∃ l r, s.lc.rxq = l ++ e :: r ∧ s1 = s.setLc { s.lc with rxq := l ++ r } ∧ want e.payload = true ∧
      offerable s l r e = true := by
  simp only [takeOffer] at h
  split at h
  · simp only [Option.map_eq_some_iff, Prod.mk.injEq] at h
    obtain ⟨⟨e', rest⟩, hfind, rfl, rfl⟩ := h
    obtain ⟨l, r, heq, rfl, hwant, hoffer⟩ := findOffer_split hfind
    exact ⟨l, r, heq, rfl, hwant, hoffer⟩
  · cases h

/-- The oldest entry that is not of class 0 leaves the queue. -/
theorem displaceOldest_split {q q' : List RxEntry} (h : displaceOldest q = some q') :
    ∃ l e r, q = l ++ e :: r ∧ q' = l ++ r ∧ (∀ x ∈ l, frameClass x.payload = 0) ∧ frameClass e.payload ≠ 0 := by
  induction q generalizing q' with
  | nil => simp [displaceOldest] at h
  | cons a rest ih =>
    by_cases ha : frameClass a.payload = 0
    · simp only [displaceOldest, ha, ne_eq, not_true_eq_false, if_false, Option.map_eq_some_iff] at h
      obtain ⟨q'', hrest, rfl⟩ := h
      obtain ⟨l, e, r, rfl, rfl, hl, he⟩ := ih hrest
      exact ⟨a :: l, e, r, rfl, rfl, List.forall_mem_cons.mpr ⟨ha, hl⟩, he⟩
    · simp only [displaceOldest, ne_eq, ha, not_false_eq_true, if_true, Option.some.injEq] at h
      exact ⟨[], a, rest, rfl, h.symm, by simp, ha⟩

theorem displaceOldest_none {q : List RxEntry} (h : displaceOldest q = none) : ∀ x ∈ q, frameClass x.payload = 0 := by
  induction q with
  | nil => simp
  | cons a rest ih =>
    by_cases ha : frameClass a.payload = 0
    · simp only [displaceOldest, ha, ne_eq, not_true_eq_false, if_false, Option.map_eq_none_iff] at h
      exact List.forall_mem_cons.mpr ⟨ha, ih h⟩
    · simp [displaceOldest, ha] at h

end Sys2Proof.Machine
end


section
/-! PROOFS. The take store's blocks (section 6.1): every operation of the store keeps each of the 64 blocks free or in
one take, and the free-block list in order. -/

namespace Sys2Proof.Machine

/-! ### The free-block list -/

-- In place, so that the parts of the text are elaborated one after the other and not all at once.
set_option Elab.async false in
theorem mem_insertBlock {b x : Nat} {l : List Nat} : x ∈ insertBlock b l ↔ x = b ∨ x ∈ l := by
  rw [(insertBlock_perm b l).mem_iff, List.mem_cons]

theorem insertBlock_ascending {b : Nat} {l : List Nat} (h : l.Pairwise (· < ·)) (hb : b ∉ l) :
    (insertBlock b l).Pairwise (· < ·) := by
  induction l with
  | nil => simp [insertBlock]
  | cons c rest ih =>
    obtain ⟨hc, hrest⟩ := List.pairwise_cons.mp h
    obtain ⟨hne, hmem⟩ : b ≠ c ∧ b ∉ rest := by simpa using hb
    by_cases hlt : b < c
    · simp only [insertBlock, hlt, if_true]
      exact List.pairwise_cons.mpr ⟨by simpa using ⟨hlt, fun x hx => hlt.trans (hc x hx)⟩, h⟩
    · simp only [insertBlock, hlt, if_false]
      refine List.pairwise_cons.mpr ⟨fun x hx => ?_, ih hrest hmem⟩
      rcases mem_insertBlock.mp hx with rfl | hx
      · omega
      · exact hc x hx

theorem returnBlocks_ascending {bs l : List Nat} (h : l.Pairwise (· < ·)) (hd : (l ++ bs).Nodup) :
    (returnBlocks bs l).Pairwise (· < ·) := by
  induction bs generalizing l with
  | nil => exact h
  | cons b bs ih =>
    have hperm : (insertBlock b l ++ bs).Perm (l ++ b :: bs) :=
      ((insertBlock_perm b l).append_right bs).trans List.perm_middle.symm
    have hb : b ∉ l := fun hm => List.disjoint_of_nodup_append hd hm List.mem_cons_self
    exact ih (insertBlock_ascending h hb) (hperm.nodup_iff.mpr hd)

/-! ### The blocks that takes hold -/

/-- With one entry replaced, its old blocks give way to the new ones. -/
theorem heldBlocks_setEntry (slot : Slot) (e : TakeEntry) (ts : TakeStore) :
    (heldBlocks (setEntry slot e ts) ++ (ts.dir.get slot).blocks).Perm (heldBlocks ts ++ e.blocks) := by
  have hlt : slot.val < ts.dir.rows.length := by simp [ts.dir.size_eq]
  have hrows : ts.dir.rows = ts.dir.rows.take slot.val ++ ts.dir.get slot :: ts.dir.rows.drop (slot.val + 1) := by
    conv_lhs => rw [← List.take_append_drop slot.val ts.dir.rows, ← List.getElem_cons_drop hlt]
    rfl
  have hset : (setEntry slot e ts).dir.rows =
      ts.dir.rows.take slot.val ++ e :: ts.dir.rows.drop (slot.val + 1) := by
    simp [setEntry, Table.set, List.set_eq_take_append_cons_drop, hlt]
  rw [heldBlocks, heldBlocks, hset]
  conv_rhs => rw [hrows]
  simp only [List.flatMap_append, List.flatMap_cons, List.append_assoc]
  refine List.Perm.append_left _ ?_
  calc (e.blocks ++ ((ts.dir.rows.drop (slot.val + 1)).flatMap TakeEntry.blocks ++ (ts.dir.get slot).blocks)).Perm
        (((ts.dir.rows.drop (slot.val + 1)).flatMap TakeEntry.blocks ++ (ts.dir.get slot).blocks) ++ e.blocks) :=
        List.perm_append_comm
    _ |>.Perm _ := by
        rw [← List.append_assoc]
        exact List.perm_append_comm.append_right _

/-- The part of the invariant that an EMPTY entry with blocks, while a slot is being armed, does not suspend. -/
structure BlocksShared (ts : TakeStore) : Prop where
  conserved : (ts.free ++ heldBlocks ts).Perm allBlocks
  ascending : ts.free.Pairwise (· < ·)

theorem BlocksInv.shared {ts : TakeStore} (h : BlocksInv ts) : BlocksShared ts := ⟨h.conserved, h.ascending⟩

/-- No EMPTY entry holds a block. -/
def EmptyHoldsNone (ts : TakeStore) : Prop :=
  ∀ slot, (ts.dir.get slot).state = .empty → (ts.dir.get slot).blocks = []

theorem EmptyHoldsNone.set {slot : Slot} {e : TakeEntry} {ts : TakeStore} (h : EmptyHoldsNone ts)
    (he : e.state = .empty → e.blocks = []) : EmptyHoldsNone (setEntry slot e ts) := by
  intro k
  by_cases hk : k = slot
  · subst hk
    simpa using he
  · simpa [setEntry_get_ne hk] using h k

theorem allBlocks_nodup : allBlocks.Nodup := List.nodup_range

/-- Blocks go from an entry to the free-block list. -/
theorem BlocksShared.return {ts : TakeStore} (h : BlocksShared ts) {slot : Slot} {e : TakeEntry} {bs : List Nat}
    (hbs : (e.blocks ++ bs).Perm (ts.dir.get slot).blocks) :
    BlocksShared { setEntry slot e ts with free := returnBlocks bs ts.free } := by
  have hheld : (heldBlocks (setEntry slot e ts) ++ bs).Perm (heldBlocks ts) := by
    have h1 := heldBlocks_setEntry slot e ts
    have h2 : (heldBlocks (setEntry slot e ts) ++ bs ++ e.blocks).Perm (heldBlocks ts ++ e.blocks) := by
      refine List.Perm.trans ?_ h1
      rw [List.append_assoc]
      exact (List.perm_append_comm.trans hbs).append_left _
    exact (List.perm_append_right_iff _).mp h2
  have hall : (ts.free ++ (heldBlocks (setEntry slot e ts) ++ bs)).Perm allBlocks :=
    (hheld.append_left _).trans h.conserved
  constructor
  · refine (((returnBlocks_perm bs ts.free).append_right _).trans ?_).trans hall
    rw [List.append_assoc]
    exact List.perm_append_comm.append_left _
  · refine returnBlocks_ascending h.ascending ?_
    have hnodup := hall.nodup_iff.mpr allBlocks_nodup
    exact (List.Sublist.append_left (List.sublist_append_right _ bs) ts.free).nodup hnodup

theorem BlocksShared.set {ts : TakeStore} (h : BlocksShared ts) {slot : Slot} {e : TakeEntry}
    (he : e.blocks = (ts.dir.get slot).blocks) : BlocksShared (setEntry slot e ts) :=
  h.return (bs := []) (by simp [he])

theorem blocksInv_iff (ts : TakeStore) : BlocksInv ts ↔ BlocksShared ts ∧ EmptyHoldsNone ts :=
  ⟨fun h => ⟨h.shared, h.empty⟩, fun h => ⟨h.1.conserved, h.1.ascending, h.2⟩⟩

theorem BlocksInv.set {ts : TakeStore} (h : BlocksInv ts) {slot : Slot} {e : TakeEntry}
    (he : e.blocks = (ts.dir.get slot).blocks) (hs : e.state = .empty → e.blocks = []) :
    BlocksInv (setEntry slot e ts) :=
  (blocksInv_iff _).mpr ⟨h.shared.set he, EmptyHoldsNone.set h.empty hs⟩

/-- An entry changes in what blocks do not hang on. -/
theorem BlocksInv.set_same {ts : TakeStore} (h : BlocksInv ts) {slot : Slot} {e : TakeEntry}
    (he : e.blocks = (ts.dir.get slot).blocks) (hs : e.state = (ts.dir.get slot).state) :
    BlocksInv (setEntry slot e ts) :=
  h.set he fun hempty => he.trans (h.empty slot (hs ▸ hempty))

/-- Only the directory and the free-block list matter. -/
theorem BlocksInv.of_eq {ts ts' : TakeStore} (h : BlocksInv ts) (hd : ts'.dir = ts.dir) (hf : ts'.free = ts.free) :
    BlocksInv ts' := by
  obtain ⟨h1, h2, h3⟩ := h
  exact ⟨by rw [hf, heldBlocks, hd]; exact h1, hf ▸ h2, by rw [hd]; exact h3⟩

/-! ### Allocation and deletion (R82, R84, R94, R97) -/

theorem emptyEntry_blocks {ts : TakeStore} (h : BlocksInv ts) (slot : Slot) : BlocksInv (emptyEntry slot ts) :=
  (blocksInv_iff _).mpr ⟨h.shared.return (List.Perm.refl _),
    EmptyHoldsNone.set (ts := ts) h.empty fun _ => rfl⟩

/-- The lowest free block goes to the take. -/
theorem allocateBlock_shared {ts t : TakeStore} {slot : Slot} (h : BlocksShared ts)
    (ht : allocateBlock slot ts = some t) :
    BlocksShared t ∧ ∃ b, t.dir = ts.dir.set slot { ts.dir.get slot with blocks := (ts.dir.get slot).blocks ++ [b] } := by
  cases hfree : ts.free with
  | nil => simp [allocateBlock, hfree] at ht
  | cons b rest =>
    rw [allocateBlock_of_free slot hfree] at ht
    obtain rfl := Option.some.inj ht
    obtain ⟨hcons, hasc⟩ := h
    rw [hfree] at hcons hasc
    refine ⟨⟨?_, (List.pairwise_cons.mp hasc).2⟩, b, rfl⟩
    refine List.Perm.trans ?_ hcons
    have h1 := heldBlocks_setEntry slot { ts.dir.get slot with blocks := (ts.dir.get slot).blocks ++ [b] } ts
    have h2 : (heldBlocks (setEntry slot { ts.dir.get slot with blocks := (ts.dir.get slot).blocks ++ [b] } ts)).Perm
        (heldBlocks ts ++ [b]) := by
      rw [← List.perm_append_right_iff (ts.dir.get slot).blocks]
      refine h1.trans ?_
      rw [List.append_assoc]
      exact List.perm_append_comm.append_left _
    calc (rest ++ heldBlocks (setEntry slot { ts.dir.get slot with blocks := (ts.dir.get slot).blocks ++ [b] } ts)).Perm
          (rest ++ (heldBlocks ts ++ [b])) := h2.append_left _
      _ |>.Perm _ := by
          rw [← List.append_assoc]
          exact List.perm_append_comm

theorem allocateBlock_blocks {ts t : TakeStore} {slot : Slot} (h : BlocksInv ts)
    (hs : (ts.dir.get slot).state ≠ .empty) (ht : allocateBlock slot ts = some t) : BlocksInv t := by
  obtain ⟨hshared, b, hdir⟩ := allocateBlock_shared h.shared ht
  refine (blocksInv_iff _).mpr ⟨hshared, fun k => ?_⟩
  rw [hdir, Table.get_set]
  split
  · exact fun he => absurd he hs
  · exact h.empty k

theorem allocateBlock_state {ts t : TakeStore} {slot : Slot} (ht : allocateBlock slot ts = some t) :
    (t.dir.get slot).state = (ts.dir.get slot).state := by
  cases hfree : ts.free with
  | nil => simp [allocateBlock, hfree] at ht
  | cons b rest =>
    rw [allocateBlock_of_free slot hfree] at ht
    obtain rfl := Option.some.inj ht
    simp

theorem allocateBlocks_blocks {ts : TakeStore} {slot : Slot} (n : Nat) (h : BlocksInv ts)
    (hs : (ts.dir.get slot).state ≠ .empty) : BlocksInv (allocateBlocks slot n ts) := by
  induction n generalizing ts with
  | zero => exact h
  | succ n ih =>
    cases ht : allocateBlock slot ts with
    | none => simpa [allocateBlocks, ht] using ih h hs
    | some t =>
      simpa [allocateBlocks, ht] using ih (allocateBlock_blocks h hs ht) (by rwa [allocateBlock_state ht])

theorem armSlot_blocks {ts : TakeStore} (h : BlocksInv ts) (slot : Slot) (stamp : BitVec 32) (mask : BitVec 16)
    (interval : Nat) : BlocksInv (armSlot slot stamp mask interval ts) := by
  have hempty := emptyEntry_blocks h slot
  cases ht : allocateBlock slot (emptyEntry slot ts) with
  | none =>
    simp only [armSlot, ht, Option.getD_none]
    exact hempty.set rfl (by simp)
  | some t =>
    obtain ⟨hshared, b, hdir⟩ := allocateBlock_shared hempty.shared ht
    simp only [armSlot, ht, Option.getD_some]
    refine (blocksInv_iff _).mpr ⟨hshared.set rfl, fun k => ?_⟩
    by_cases hk : k = slot
    · subst hk
      simp
    · rw [setEntry_get_ne hk, hdir, Table.get_set_ne _ (Ne.symm hk)]
      exact hempty.empty k

theorem openLoad_blocks {ts : TakeStore} (h : BlocksInv ts) {slot : Slot} (hs : (ts.dir.get slot).state = .empty)
    (loader : Station) (stamp : BitVec 32) (mask : BitVec 16) (interval n : Nat) :
    BlocksInv (openLoad slot loader stamp mask interval n ts) := by
  have hopen : BlocksInv (setEntry slot { TakeEntry.empty with
      state := .recording, stamp := stamp, mask := mask, interval := clampInterval interval, count := n } ts) :=
    h.set (h.empty slot hs).symm (fun _ => rfl)
  exact (allocateBlocks_blocks _ hopen (by simp)).of_eq rfl rfl

theorem storeLoad_blocks {ts : TakeStore} (h : BlocksInv ts) (slot : Slot) : BlocksInv (storeLoad slot ts) :=
  (h.set (slot := slot)
    (e := { ts.dir.get slot with state := .stored, endCause := some .load, signature := 0, editCount := 0, taint := none })
    rfl (by simp)).of_eq rfl rfl

/-- A station reset frees what no STORED take holds (R99). -/
theorem resetStore_blocks {ts : TakeStore} (h : BlocksInv ts) : BlocksInv (resetStore ts) := by
  have hheld : heldBlocks (resetStore ts) = (ts.dir.rows.filter fun e => e.state == .stored).flatMap TakeEntry.blocks := by
    simp only [heldBlocks, resetStore, Table.map]
    generalize ts.dir.rows = rows
    induction rows with
    | nil => rfl
    | cons e rest ih =>
      by_cases he : e.state = .stored
      · simp [he, ih]
      · have hnone : TakeEntry.empty.blocks = [] := rfl
        simp [he, ih, hnone]
  have hsub : (heldBlocks (resetStore ts)).Sublist (heldBlocks ts) := by
    rw [hheld]
    exact List.Sublist.flatMap List.filter_sublist _
  have hnodup : (ts.free ++ heldBlocks ts).Nodup := h.conserved.nodup_iff.mpr allBlocks_nodup
  have hheldNodup : (heldBlocks (resetStore ts)).Nodup := hsub.nodup (List.nodup_append.mp hnodup).2.1
  have hmem : ∀ b, (((resetStore ts).dir.rows.all fun e => !e.blocks.contains b) = true ↔
      b ∉ heldBlocks (resetStore ts)) := by
    intro b
    simp only [heldBlocks, List.mem_flatMap, List.all_eq_true, Bool.not_eq_true', List.contains_eq_mem,
      decide_eq_false_iff_not, not_exists, not_and]
  have hfree : (resetStore ts).free = allBlocks.filter fun b => decide (b ∉ heldBlocks (resetStore ts)) := by
    refine List.filter_congr fun b _ => ?_
    rw [Bool.eq_iff_iff, decide_eq_true_iff]
    exact hmem b
  constructor
  · rw [hfree]
    refine (List.perm_ext_iff_of_nodup ?_ allBlocks_nodup).mpr fun b => ?_
    · refine List.Nodup.append (allBlocks_nodup.filter _) hheldNodup ?_
      intro b hb hh
      simp only [List.mem_filter, decide_eq_true_eq] at hb
      exact hb.2 hh
    · have hall : b ∈ heldBlocks (resetStore ts) → b ∈ allBlocks := fun hb =>
        h.conserved.mem_iff.mp (List.mem_append_right _ (hsub.subset hb))
      simp only [List.mem_append, List.mem_filter, decide_eq_true_eq]
      by_cases hb : b ∈ heldBlocks (resetStore ts)
      · simp [hb, hall hb]
      · simp [hb]
  · rw [hfree]
    exact (List.pairwise_lt_range).filter _
  · intro slot
    simp only [resetStore, Table.get_map]
    by_cases he : (ts.dir.get slot).state = .stored <;> simp [he, TakeEntry.empty]

/-! ### Keyframes (R85 to R89, R93, R178) -/

/-- Only the pool differs. -/
theorem writeKeyframe_eq (slot : Slot) (k : Nat) (kf : Keyframe) (ts : TakeStore) :
    ∃ pool, writeKeyframe slot k kf ts = { ts with pool := pool } := by
  simp only [writeKeyframe]
  split <;> exact ⟨_, rfl⟩

theorem giveCentral_eq (n : Nat) (slot : Slot) (k : Nat) (ts : TakeStore) :
    ∃ pool, giveCentral n slot k ts = { ts with pool := pool } := writeKeyframe_eq _ _ _ _

theorem giveEnd_eq (n : Nat) (slot : Slot) (k : Nat) (ts : TakeStore) :
    ∃ pool, giveEnd n slot k ts = { ts with pool := pool } := by
  simp only [giveEnd]
  split
  · exact ⟨_, rfl⟩
  · exact writeKeyframe_eq _ _ _ _

theorem recordSample_eq (n : Nat) (slot : Slot) (x : RecorderSample) (ts : TakeStore) :
    ∃ pool, recordSample n slot x ts = { ts with pool := pool } := by
  obtain ⟨pool, hw⟩ := writeKeyframe_eq slot x.index (poseKeyframe x.pose) ts
  simp only [recordSample, hw]
  split
  · exact giveCentral_eq _ _ _ _
  · exact ⟨_, rfl⟩

theorem foldl_recordSample_eq (n : Nat) (slot : Slot) (xs : List RecorderSample) (ts : TakeStore) :
    ∃ pool, xs.foldl (fun t x => recordSample n slot x t) ts = { ts with pool := pool } := by
  induction xs generalizing ts with
  | nil => exact ⟨_, rfl⟩
  | cons x xs ih =>
    obtain ⟨pool, hx⟩ := recordSample_eq n slot x ts
    obtain ⟨pool', hxs⟩ := ih { ts with pool := pool }
    exact ⟨pool', by rw [List.foldl_cons, hx, hxs]⟩

theorem flushSamples_eq (n : Nat) (slot : Slot) (ts : TakeStore) :
    ∃ pool, flushSamples n slot ts = { ts with pool := pool, waiting := [] } := by
  obtain ⟨pool, h⟩ := foldl_recordSample_eq n slot ts.waiting ts
  exact ⟨pool, by rw [flushSamples, h]⟩

theorem setAxisPosition_eq (slot : Slot) (k : Nat) (i : Axis) (p : Int) (ts : TakeStore) :
    ∃ pool, setAxisPosition slot k i p ts = { ts with pool := pool } := writeKeyframe_eq _ _ _ _

/-- A sample joins a take that is not EMPTY. -/
theorem sampleKeyframe_blocks {ts t : TakeStore} {slot : Slot} {pose : Table Int 3} (h : BlocksInv ts)
    (hs : (ts.dir.get slot).state ≠ .empty) (ht : sampleKeyframe slot pose ts = some t) : BlocksInv t := by
  simp only [sampleKeyframe, Option.map_eq_some_iff] at ht
  obtain ⟨u, hu, rfl⟩ := ht
  have hblocks : BlocksInv u := by
    split at hu
    · split at hu
      · cases hu
      · exact allocateBlock_blocks h hs hu
    · exact Option.some.inj hu ▸ h
  have hset := hblocks.set_same (slot := slot) (e := { u.dir.get slot with count := (ts.dir.get slot).count + 1 })
    rfl rfl
  exact hset.of_eq rfl rfl

/-- A sample joins a take, whatever its state. -/
theorem sampleKeyframe_shared {ts t : TakeStore} {slot : Slot} {pose : Table Int 3} (h : BlocksInv ts)
    (ht : sampleKeyframe slot pose ts = some t) :
    BlocksShared t ∧ ∀ k, k ≠ slot → t.dir.get k = ts.dir.get k := by
  simp only [sampleKeyframe, Option.map_eq_some_iff] at ht
  obtain ⟨u, hu, rfl⟩ := ht
  have hblocks : BlocksShared u ∧ ∀ k, k ≠ slot → u.dir.get k = ts.dir.get k := by
    split at hu
    · split at hu
      · cases hu
      · obtain ⟨hshared, b, hdir⟩ := allocateBlock_shared h.shared hu
        exact ⟨hshared, fun k hk => by rw [hdir, Table.get_set_ne _ (Ne.symm hk)]⟩
    · exact Option.some.inj hu ▸ ⟨h.shared, fun _ _ => rfl⟩
  obtain ⟨hshared, hothers⟩ := hblocks
  have hset := hshared.set (slot := slot) (e := { u.dir.get slot with count := (ts.dir.get slot).count + 1 }) rfl
  exact ⟨⟨hset.conserved, hset.ascending⟩, fun k hk => (setEntry_get_ne hk _ _).trans (hothers k hk)⟩

theorem closeRecording_eq (n : Nat) (slot : Slot) (cause : EndCause) (ts : TakeStore) :
    ∃ pool, closeRecording n slot cause ts =
      { setEntry slot { ts.dir.get slot with state := .stored, endCause := some cause } ts with
        pool := pool, waiting := [] } := by
  obtain ⟨pool, hf⟩ := flushSamples_eq n slot ts
  obtain ⟨pool', he⟩ := giveEnd_eq n slot ((ts.dir.get slot).count - 1) { ts with pool := pool, waiting := [] }
  exact ⟨pool', by simp only [closeRecording, hf, he]; rfl⟩

/-- The slot is STORED afterwards, so that an EMPTY entry with blocks there is no EMPTY entry any more. -/
theorem closeRecording_blocks {ts : TakeStore} {slot : Slot} (hshared : BlocksShared ts)
    (hothers : ∀ k, k ≠ slot → (ts.dir.get k).state = .empty → (ts.dir.get k).blocks = []) (n : Nat) (cause : EndCause) :
    BlocksInv (closeRecording n slot cause ts) := by
  obtain ⟨pool, heq⟩ := closeRecording_eq n slot cause ts
  have hset : BlocksInv (setEntry slot { ts.dir.get slot with state := .stored, endCause := some cause } ts) := by
    refine (blocksInv_iff _).mpr ⟨hshared.set rfl, fun k => ?_⟩
    by_cases hk : k = slot
    · subst hk
      simp
    · rw [setEntry_get_ne hk]
      exact hothers k hk
  rw [heq]
  exact hset.of_eq rfl rfl

theorem cutKeyframes_blocks {ts : TakeStore} (h : BlocksInv ts) (slot : Slot) (last : Nat) :
    BlocksInv (cutKeyframes slot last ts) := by
  refine (blocksInv_iff _).mpr ⟨h.shared.return ?_, EmptyHoldsNone.set (ts := ts) h.empty fun he => ?_⟩
  · exact ((List.reverse_perm _).append_left _).trans (by rw [List.take_append_drop])
  · have hnone : (ts.dir.get slot).blocks = [] := h.empty slot he
    simp [hnone]

theorem taintRecording_blocks {ts : TakeStore} (h : BlocksInv ts) (n span : Nat) (slot : Slot) (trip : TakeTime) :
    BlocksInv (taintRecording n span slot trip ts) := by
  obtain ⟨pool, hf⟩ := flushSamples_eq n slot ts
  have hflush : BlocksInv (flushSamples n slot ts) := by
    rw [hf]
    exact h.of_eq rfl rfl
  simp only [taintRecording]
  generalize flushSamples n slot ts = u at hflush
  generalize taintLast (u.dir.get slot).interval span trip (u.dir.get slot).count = last
  obtain ⟨pool', hg⟩ := giveEnd_eq n slot last (cutKeyframes slot last u)
  have hend : BlocksInv (giveEnd n slot last (cutKeyframes slot last u)) := by
    rw [hg]
    exact (cutKeyframes_blocks hflush slot last).of_eq rfl rfl
  generalize giveEnd n slot last (cutKeyframes slot last u) = v at hend
  have hset := hend.set (slot := slot)
    (e := { v.dir.get slot with state := .stored, endCause := some .taint, taint := some trip }) rfl (by simp)
  exact hset.of_eq rfl rfl

/-- An edit keeps the state of the entry, and its block list unless it cuts it. -/
theorem editEntry_blocks {ts : TakeStore} (h : BlocksInv ts) (slot : Slot) {f : TakeEntry → TakeEntry}
    (hb : ∀ e, (f e).blocks = e.blocks) (hs : ∀ e, (f e).state = e.state) : BlocksInv (editEntry slot f ts) :=
  h.set_same (hb _) (hs _)

theorem trimTake_blocks {ts : TakeStore} (h : BlocksInv ts) (n : Nat) (slot : Slot) (last : Nat) :
    BlocksInv (trimTake n slot last ts) := by
  obtain ⟨pool, he⟩ := giveEnd_eq n slot last (cutKeyframes slot last ts)
  refine editEntry_blocks ?_ slot (fun _ => rfl) fun _ => rfl
  rw [he]
  exact (cutKeyframes_blocks h slot last).of_eq rfl rfl

theorem countPunch_blocks {ts : TakeStore} (h : BlocksInv ts) (p : PunchRecord) : BlocksInv (countPunch p ts) := by
  simp only [countPunch]
  split
  · exact h
  · exact h.set_same rfl rfl

theorem writeSample_blocks {ts : TakeStore} (h : BlocksInv ts) (p : PunchRecord) (x : PunchSample) :
    BlocksInv (writeSample p x ts) := by
  obtain ⟨pool, hpos⟩ := setAxisPosition_eq p.take x.keyframe p.axis x.pos ts
  refine countPunch_blocks ?_ p
  rw [hpos]
  split
  · obtain ⟨pool', hvel⟩ := setAxisVelocity_ts p.take (x.keyframe - 1) p.axis
      (centralVelocity (axisPosition { ts with pool := pool } p.take (x.keyframe - 2) p.axis)
        (axisPosition { ts with pool := pool } p.take x.keyframe p.axis) (ts.dir.get p.take).interval)
      { ts with pool := pool }
    rw [hvel]
    exact h.of_eq rfl rfl
  · exact h.of_eq rfl rfl

/-! ### The pool in these operations -/

theorem setAxisVelocity_poolWf {ts : TakeStore} (h : ts.poolWf) (slot : Slot) (k : Nat) (i : Axis) (v : Int) :
    (setAxisVelocity slot k i v ts).poolWf := writeKeyframe_poolWf h _ _ _

theorem punchFixup_poolWf {ts : TakeStore} (h : ts.poolWf) (p : PunchRecord) : (punchFixup p ts).poolWf := by
  simp only [punchFixup]
  split
  · exact h
  · split
    · exact h
    · split <;> exact setAxisVelocity_poolWf h _ _ _ _

theorem writeSample_poolWf {ts : TakeStore} (h : ts.poolWf) (p : PunchRecord) (x : PunchSample) :
    (writeSample p x ts).poolWf := by
  have hpos : (setAxisPosition p.take x.keyframe p.axis x.pos ts).poolWf := writeKeyframe_poolWf h _ _ _
  have hvel : (if 2 ≤ x.keyframe then
      setAxisVelocity p.take (x.keyframe - 1) p.axis
        (centralVelocity (axisPosition (setAxisPosition p.take x.keyframe p.axis x.pos ts) p.take (x.keyframe - 2) p.axis)
          (axisPosition (setAxisPosition p.take x.keyframe p.axis x.pos ts) p.take x.keyframe p.axis)
          ((setAxisPosition p.take x.keyframe p.axis x.pos ts).dir.get p.take).interval)
        (setAxisPosition p.take x.keyframe p.axis x.pos ts)
      else setAxisPosition p.take x.keyframe p.axis x.pos ts).poolWf := by
    split
    · exact setAxisVelocity_poolWf hpos _ _ _ _
    · exact hpos
  simp only [writeSample, countPunch]
  split
  · exact hvel
  · exact hvel

theorem armSlot_pool (slot : Slot) (stamp : BitVec 32) (mask : BitVec 16) (interval : Nat) (ts : TakeStore) :
    (armSlot slot stamp mask interval ts).pool = ts.pool := by
  cases ht : allocateBlock slot (emptyEntry slot ts) with
  | none => simp [armSlot, ht]
  | some t => simp [armSlot, ht, allocateBlock_pool ht]

theorem trimTake_poolWf {ts : TakeStore} (h : ts.poolWf) (n : Nat) (slot : Slot) (last : Nat) :
    (trimTake n slot last ts).poolWf := giveEnd_poolWf (ts := cutKeyframes slot last ts) h n slot last

end Sys2Proof.Machine
end


section
/-! PROOFS. The shared operations of the blocks keep what every step keeps: hand-overs, the station mode, channels,
claims and the effective class, the return to IDLE. -/

namespace Sys2Proof.Machine

/-! ### Counters and hand-overs -/

-- In place, so that the parts of the text are elaborated one after the other and not all at once.
set_option Elab.async false in
theorem keeps_setCounters (s : State) (c : Counters) : Keeps s (setCounters s c) := keeps_setLc id id

theorem keeps_handOver (p : Payload) (s : State) : Keeps s (handOver p s) := by
  have hlc : handOver p s = s.setLc (handOver p s).lc := by
    simp only [handOver]
    split
    · rfl
    · split <;> rfl
  rw [hlc]
  refine keeps_setLc (handOver_txInv p) fun h => ?_
  rwa [(handOver_link p s).2.1]

theorem keeps_handState (s : State) : Keeps s (handState s) := by
  simp only [handState]
  split
  · exact .refl s
  · exact (keeps_setPt s _).trans (keeps_handOver _ _)

theorem keeps_handPace (s : State) : Keeps s (handPace s) :=
  (keeps_handOver _ _).after (keeps_setPu_same rfl rfl rfl rfl)

theorem keeps_announce (s : State) : Keeps s (announce s) := .ite (fun _ => keeps_handPace s) fun _ => .refl s

theorem keeps_handStop (raised : Bool) (c : Cause) (s : State) : Keeps s (handStop raised c s) :=
  (keeps_handOver _ _).after (keeps_setSu_same rfl rfl rfl rfl rfl)

/-! ### The station mode (R100) -/

theorem keeps_abandonBulk (s : State) : Keeps s (abandonBulk s) := by
  simp only [abandonBulk]
  split
  · exact .refl s
  · exact keeps_setTs (fun h => (emptyEntry_blocks h _).of_eq rfl rfl) id
  · exact keeps_setTs (fun h => h.of_eq rfl rfl) id

/-- The effects of a change of mode at the other blocks, for rates that stay in their ranges. -/
theorem core_modeEffects (old m : Mode) (s : State) : KeepsCore s (modeEffects old m s) := by
  have hpu : ∀ u : State, KeepsCore u (u.setPu { u.pu with
      paceTimer := if pacesIn m then u.pu.paceTimer else none,
      alignTimer := if inPlay m then u.pu.alignTimer else none,
      r := if m = .playing ∨ m = .recording then u.pu.r else 0 }) := fun u => core_setPu fun h =>
    ⟨by simp only [setPu_pu]; split <;> simp [h.path], h.move, h.master, h.strain, h.guard⟩
  simp only [modeEffects]
  have h1 : KeepsCore s (if old = .idle ∧ m ≠ .idle then abandonBulk s else s) :=
    (Keeps.ite (fun _ => keeps_abandonBulk s) fun _ => .refl s).toKeepsCore
  generalize (if old = .idle ∧ m ≠ .idle then abandonBulk s else s) = u at h1 ⊢
  have h2 := h1.trans (hpu u)
  generalize u.setPu _ = v at h2 ⊢
  have h3 : Keeps v (if inPlay m then v else v.setFd { v.fd with sourceRead := none }) :=
    .ite (fun _ => .refl v) fun _ => keeps_setFd id
  generalize (if inPlay m then v else v.setFd { v.fd with sourceRead := none }) = w at h3 ⊢
  have h4 : Keeps w (if m = .rolling then clearCeilings w else w) :=
    .ite (fun _ => keeps_setPt w _) fun _ => .refl w
  exact (h2.trans h3.toKeepsCore).trans h4.toKeepsCore

/-- A change of mode that finds the play context as the new mode has it, and, for RECORDING, the path rate at 1024,
even where those of the old mode are gone by then. -/
theorem keeps_setMode {s u : State} {m : Mode} (h : KeepsCore s u)
    (hctx : ContextInv s → u.tc.ctx.isNone = contextFree m) (hr : m = .recording → u.pu.r = 1024)
    (hl : LatchInv s → LatchInv u) : Keeps s (setMode m u) := by
  have hcore : KeepsCore s (setMode m u) := by
    simp only [setMode]
    have h1 := h.trans ((core_setTc u { u.tc with mode := m }).trans (core_modeEffects u.tc.mode m _))
    generalize modeEffects u.tc.mode m (u.setTc { u.tc with mode := m }) = v at h1 ⊢
    have h2 : Keeps v (if u.tc.mode = m then v else handState v) := .ite (fun _ => .refl v) fun _ => keeps_handState v
    generalize (if u.tc.mode = m then v else handState v) = w at h2 ⊢
    exact (h1.trans h2.toKeepsCore).trans
      (Keeps.ite (fun _ => .refl w) fun _ => keeps_handState w).toKeepsCore
  refine ⟨hcore, fun hs => ?_, fun hs => ?_, fun hs => ?_⟩
  · obtain ⟨h1, h2, h3, h4, h5⟩ := hcore.bound hs.bound
    refine ⟨h1, h2, h3, h4, h5, fun hm => ?_, fun hp hrec => ?_⟩
    · obtain rfl : m = .recording := by simpa using hm
      simp [setMode_pu, hr rfl]
    · simp only [setMode_tc] at hp hrec
      simp [setMode_pu, hp, hrec]
  · simpa [ContextInv] using hctx hs
  · simpa [LatchInv] using hl hs

/-- A change of mode alone. -/
theorem keeps_setMode_only {s : State} {m : Mode} (hctx : contextFree m = contextFree s.tc.mode)
    (hm : m ≠ .recording) : Keeps s (setMode m s) :=
  keeps_setMode (.refl s) (fun h => hctx ▸ h) (fun h => absurd h hm) id

/-! ### Channels -/

theorem channelMay_refl (a : AxisConfig) (c : AxisChannel) : ChannelMay a c c := ⟨Iff.rfl, fun _ _ h => h⟩

theorem ChannelMay.ite {p : Prop} [Decidable p] {a : AxisConfig} {c d e : AxisChannel} (h : p → ChannelMay a c d)
    (h' : ¬ p → ChannelMay a c e) : ChannelMay a c (if p then d else e) := by
  by_cases hp : p
  · rw [if_pos hp]
    exact h hp
  · rw [if_neg hp]
    exact h' hp

/-- Setpoint and velocity stay, and the channel stays DISABLED or not. -/
theorem channelMay_of_eq {a : AxisConfig} {c d : AxisChannel} (hs : d.state = .disabled ↔ c.state = .disabled)
    (hp : d.p8 = c.p8) (hv : d.v8 = c.v8) : ChannelMay a c d :=
  ⟨hs, fun _ _ h => ⟨hp ▸ h.low, hp ▸ h.high, hv ▸ h.speed⟩⟩

/-- The setpoint stays, without velocity. -/
theorem channelMay_of_stop {a : AxisConfig} {c d : AxisChannel} (hs : d.state = .disabled ↔ c.state = .disabled)
    (hp : d.p8 = c.p8) (hv : d.v8 = 0) : ChannelMay a c d :=
  ⟨hs, fun _ ha h => ⟨hp ▸ h.low, hp ▸ h.high, by simpa [hv] using Int.le_of_lt ha.vmax⟩⟩

theorem ChannelMay.kept {a : AxisConfig} {c d : AxisChannel} (h : ChannelMay a c d) (latch : Bool) :
    ChannelMay a c (keptChannel latch d) :=
  ⟨h.disabled, fun hs ha hc => ⟨(h.law hs ha hc).low, (h.law hs ha hc).high, (h.law hs ha hc).speed⟩⟩

/-- One channel is replaced in the table. -/
theorem keeps_setCh {s : State} {x : AxisBlock} {i : Axis} {c : AxisChannel} (hx : x.ch = s.ax.ch.set i c)
    (h : SetpointInv s → ChannelMay (axisCfg s i) (axisCh s i) c) : Keeps s (s.setAx x) :=
  keeps_setAx fun hs j => by
    rw [hx, Table.get_set]
    split
    · next hij => exact hij ▸ h hs
    · exact channelMay_refl _ _

theorem keeps_changeover (i : Axis) (s : State) : Keeps s (changeover i s) := by
  simp only [changeover]
  split
  · exact .refl s
  · exact keeps_setLmu s _

theorem keeps_setChannel {s : State} {i : Axis} {c : AxisChannel}
    (h : SetpointInv s → ChannelMay (axisCfg s i) (axisCh s i) c) : Keeps s (setChannel i c s) :=
  (keeps_setCh rfl fun hs => (h hs).kept _).trans (.ite (fun _ => .refl _) fun _ => keeps_changeover i _)

/-! ### Punch ends (R178) -/

theorem foldl_punchFixup_eq (ps : List PunchRecord) (ts : TakeStore) :
    ∃ pool, ps.foldl (fun t p => punchFixup p t) ts = { ts with pool := pool } := by
  induction ps generalizing ts with
  | nil => exact ⟨_, rfl⟩
  | cons p ps ih =>
    obtain ⟨pool, hp⟩ := punchFixup_ts p ts
    obtain ⟨pool', hps⟩ := ih { ts with pool := pool }
    exact ⟨pool', by rw [List.foldl_cons, hp, hps]⟩

theorem foldl_punchFixup_poolWf (ps : List PunchRecord) {ts : TakeStore} (h : ts.poolWf) :
    (ps.foldl (fun t p => punchFixup p t) ts).poolWf := by
  induction ps generalizing ts with
  | nil => exact h
  | cons p ps ih => exact ih (punchFixup_poolWf h p)

/-- Punch records and samples are no part of what is kept. -/
theorem keeps_setAx_same {s : State} {x : AxisBlock} (hx : x.ch = s.ax.ch) : Keeps s (s.setAx x) :=
  keeps_setAx fun _ _ => by rw [hx]; exact channelMay_refl _ _

theorem keeps_settlePunches (s : State) : Keeps s (settlePunches s) := by
  refine Keeps.trans (keeps_setTs (fun h => ?_) fun h => foldl_punchFixup_poolWf _ h) (keeps_setAx_same rfl)
  obtain ⟨pool, heq⟩ := foldl_punchFixup_eq
    (s.ax.punches.filter fun p => p.ended && s.ax.samples.all (fun x => x.ident != p.ident)) s.ts
  rw [heq]
  exact h.of_eq rfl rfl

theorem keeps_endPunch (i : Axis) (s : State) : Keeps s (endPunch i s) :=
  (keeps_settlePunches _).after (keeps_setAx_same rfl)

/-! ### A change of the effective class (R47, R89, R142, R147, R167) -/

theorem channelMay_enterRest {a : AxisConfig} {c : AxisChannel} (cfg : NodeConfig) (h : c.state ≠ .disabled) :
    ChannelMay a c (enterRest cfg c) := channelMay_of_eq (by simp [enterRest, h]) rfl rfl

/-- A change of the class keeps the setpoint, and the velocity or none (table of R47). -/
theorem channelMay_classChannel (a : AxisConfig) (cfg : NodeConfig) (old new : Cls) (c : AxisChannel) :
    ChannelMay a c (classChannel cfg old new c) := by
  unfold classChannel
  split
  · exact channelMay_refl a c
  · exact channelMay_refl a c
  · next hst =>
    have hc : c.state ≠ .disabled := fun h => AxisState.noConfusion (h.symm.trans hst)
    split
    · exact channelMay_of_stop (iff_of_false AxisState.noConfusion hc) rfl rfl
    · exact channelMay_refl a c
    · exact .ite (fun _ => channelMay_enterRest cfg hc) fun _ => channelMay_refl a c
  · next hst =>
    have hc : c.state ≠ .disabled := fun h => AxisState.noConfusion (h.symm.trans hst)
    split
    · exact channelMay_refl a c
    · exact channelMay_of_stop (iff_of_false AxisState.noConfusion hc) rfl rfl
    · exact channelMay_of_stop (iff_of_false AxisState.noConfusion hc) rfl rfl
  · next hc _ _ _ =>
    split
    · exact channelMay_of_stop (iff_of_false AxisState.noConfusion hc) rfl rfl
    · exact channelMay_of_eq (iff_of_false AxisState.noConfusion hc) rfl rfl
    · exact .ite (fun _ => channelMay_of_eq .rfl rfl rfl) fun _ => channelMay_refl a c
    · exact channelMay_refl a c

theorem keeps_takeClassAt (old : Cls) (s : State) (i : Axis) : Keeps s (takeClassAt old s i) :=
  (keeps_setChannel fun _ => channelMay_classChannel _ _ _ _ _).trans
    (.ite (fun _ => keeps_endPunch i _) fun _ => .refl _)

theorem keeps_dropRates (old : Cls) (s : State) : Keeps s (dropRates old s) :=
  .ite (fun _ => keeps_setPu
    (fun h => ⟨by simp only [setPu_pu]; split <;> simp [h.path], Nat.zero_le _, h.master, h.strain, h.guard⟩)
    fun h => ⟨by simp only [setPu_pu]; split <;> simp [h.path], Nat.zero_le _, h.master, h.strain, h.guard,
      fun hm => by simpa [show s.tc.mode = .recording from hm] using h.recording hm,
      fun _ hm => by simp [show s.tc.mode ≠ .recording from hm]⟩) fun _ => .refl s

theorem keeps_dropLatch (s : State) : Keeps s (dropLatch s) :=
  .ite (fun _ => keeps_setSu (fun h => ⟨h.keys, h.classes, h.mismatch, h.line, h.effective⟩) fun _ => by
    simp [LatchInv]) fun _ => .refl s

theorem dropLatch_latch (s : State) : LatchInv (dropLatch s) := by
  simp only [LatchInv, dropLatch]
  split
  · simp
  · exact fun _ => ‹_›

theorem keeps_requestTaint (old : Cls) (trip : TakeTime) (s : State) : Keeps s (requestTaint old trip s) :=
  .ite (fun _ => keeps_setTs (fun h => h.of_eq rfl rfl) id) fun _ => .refl s

theorem keeps_reportClass (old : Cls) (s : State) : Keeps s (reportClass old s) :=
  (keeps_handState s).trans (.ite (fun _ => keeps_handState _) fun _ => .refl _)

/-- The blocks take a change of the class, and the drive latch is clear at SEVER afterwards whatever it was. -/
theorem keeps_takeClass (old : Cls) (trip : TakeTime) (s : State) :
    Keeps s (takeClass old trip s) ∧ LatchInv (takeClass old trip s) := by
  have hfront : Keeps s (announce (dropRates old s)) := (keeps_dropRates old s).trans (keeps_announce _)
  have hrest : ∀ u, Keeps u (requestTaint old trip (reportClass old (allAxes.foldl (takeClassAt old) u))) := fun u =>
    ((Keeps.foldl (keeps_takeClassAt old) _ u).trans (keeps_reportClass old _)).trans (keeps_requestTaint old trip _)
  exact ⟨(hfront.trans (keeps_dropLatch _)).trans (hrest _), (hrest _).latch (dropLatch_latch _)⟩

/-! ### Claims (R161, R162) -/

/-- What the invariant says of the own claims, beside the class that is formed. -/
structure OwnClaims (own : List Claim) (lineOpen : Bool) : Prop where
  keys : (own.map Claim.cause).Nodup
  classes : ∀ k ∈ own, k.cls ≠ .none
  mismatch : ∀ k ∈ own, k.cause = .peerMismatch → k.cls = .hold
  line : lineOpen = true ↔ .stopLine ∈ own.map Claim.cause

theorem ClaimsInv.own {s : State} (h : ClaimsInv s) : OwnClaims s.su.own s.su.lineOpen :=
  ⟨h.keys, h.classes, h.mismatch, h.line⟩

/-- The class is formed from new own claims, with the stop-line state of u, which may have changed beside it. -/
theorem core_changeOwn {s : State} {x : StopUnit} (raised : Bool) (c : Cause) (own : List Claim)
    (h : ClaimsInv s → OwnClaims own x.lineOpen) : KeepsCore s (changeOwn raised c own (s.setSu x)) := by
  refine KeepsCore.trans (t := formClass (s.setSu { x with own := own })) ?_ (keeps_handStop raised c _).toKeepsCore
  exact core_setSu fun hs => ⟨(h hs).keys, (h hs).classes, (h hs).mismatch, (h hs).line, rfl⟩

/-- After a change of the own claims the ceiling is announced where the class stays, and the blocks take the class
where it changes. -/
theorem keeps_classTaken {s u v : State} (h : KeepsCore s u) (hm : u.tc = s.tc) (hpu : u.pu = s.pu) (hgu : u.gu = s.gu)
    (hlatch : u.su.driveLatch = s.su.driveLatch) {p : Prop} [Decidable p]
    (hp : p → u.su.effective = s.su.effective) (hv : ¬ p → Keeps u v ∧ LatchInv v) :
    Keeps s (if p then announce u else v) := by
  have hrates : RatesInv s → RatesInv u := fun hs =>
    ⟨by rw [hpu]; exact hs.path, by rw [hpu]; exact hs.move, by rw [hpu]; exact hs.master,
      by rw [hpu]; exact hs.strain, by rw [hgu]; exact hs.guard, by rw [hm, hpu]; exact hs.recording,
      by rw [hm, hpu]; exact hs.standing⟩
  have hctx : ContextInv s → ContextInv u := fun hs => by rw [ContextInv, hm]; exact hs
  split
  · next hpos =>
    exact Keeps.trans ⟨h, hrates, hctx, fun hs => by rw [LatchInv, hlatch, hp hpos]; exact hs⟩ (keeps_announce u)
  · next hneg =>
    obtain ⟨hk, hl⟩ := hv hneg
    exact ⟨h.trans hk.toKeepsCore, hk.rates ∘ hrates, hk.context ∘ hctx, fun _ => hl⟩

theorem releaseKey_own (c : Cause) (own : List Claim) (hline : c ≠ .stopLine) {b : Bool} (h : OwnClaims own b) :
    OwnClaims (own.filter fun k => k.cause != c) b := by
  have hsub : (own.filter fun k => k.cause != c).Sublist own := List.filter_sublist
  refine ⟨(hsub.map _).nodup h.keys, fun k hk => h.classes k (hsub.subset hk),
    fun k hk => h.mismatch k (hsub.subset hk), h.line.trans ?_⟩
  simp only [List.mem_map, List.mem_filter, bne_iff_ne]
  exact ⟨fun ⟨k, hk, heq⟩ => ⟨k, ⟨hk, heq ▸ hline.symm⟩, heq⟩, fun ⟨k, hk, heq⟩ => ⟨k, hk.1, heq⟩⟩

/-- A key is released, the stop-line state having changed beside it or not. -/
theorem keeps_release {s : State} {x : StopUnit} {c : Cause} (hown : x.own = s.su.own)
    (heff : x.effective = s.su.effective) (hlatch : x.driveLatch = s.su.driveLatch)
    (h : ClaimsInv s → OwnClaims (x.own.filter fun k => k.cause != c) x.lineOpen)
    (hsame : (∀ k ∈ s.su.own, k.cause ≠ c) → Keeps s (s.setSu x)) : Keeps s (releaseKey c (s.setSu x)) := by
  simp only [releaseKey]
  split
  · refine keeps_classTaken (core_changeOwn false c _ h) (by simp) (by simp) (by simp) ?_
      (fun hp => hp.trans heff) fun _ => keeps_takeClass _ _ _
    exact (changeOwn_changes false c _ (s.setSu x)).2.2.1.trans hlatch
  · next hno =>
    refine hsame fun k hk heq => hno ?_
    simp only [setSu_su, hown, List.any_eq_true, beq_iff_eq]
    exact ⟨k, hk, heq⟩

theorem keeps_releaseKey {c : Cause} (hc : c ≠ .stopLine) (s : State) : Keeps s (releaseKey c s) := by
  have hsame : s.setSu s.su = s := rfl
  have h := keeps_release (s := s) (x := s.su) (c := c) rfl rfl rfl (fun h => releaseKey_own c _ hc h.own)
  rw [hsame] at h
  exact h fun _ => .refl s

/-! ### The return to IDLE (R100) -/

theorem channelMay_idle (a : AxisConfig) (latch : Bool) (cfg : NodeConfig) (c : AxisChannel) :
    ChannelMay a c (idleChannel latch cfg c) := by
  simp only [idleChannel]
  split
  · next h => refine ChannelMay.kept ?_ latch; exact channelMay_of_eq (by simp [enterRest, h]) rfl rfl
  · split
    · exact channelMay_refl a c
    · split
      · next h =>
        have hs : c.state ≠ .disabled := by rintro hs; simp [hs] at h
        refine ChannelMay.kept ?_ latch; exact channelMay_of_eq (by simp [enterRest, hs]) rfl rfl
      · refine ChannelMay.kept ?_ latch; exact channelMay_of_eq Iff.rfl rfl rfl

theorem keeps_idleAt (s : State) (i : Axis) : Keeps s (idleAt s i) := by
  have hrest : ∀ c, c.p8 = (axisCh s i).p8 → c.v8 = (axisCh s i).v8 → (axisCh s i).state ≠ .disabled →
      Keeps s (setChannel i (enterRest s.cl.cfg c) s) := fun c hp hv hs =>
    keeps_setChannel fun _ => channelMay_of_eq (by simp [enterRest, hs]) hp hv
  have htake : Keeps s (if (axisCh s i).ctrl = .take then setChannel i { axisCh s i with ctrl := .none } s else s) :=
    .ite (fun _ => keeps_setChannel fun _ => channelMay_of_eq Iff.rfl rfl rfl) fun _ => .refl s
  have hpath : (axisCh s i).state ≠ .disabled → Keeps s (if (axisCh s i).ctrl = .take then
      if (axisCh s i).state = .rejoin then
        endPunch i (setChannel i (enterRest s.cl.cfg { axisCh s i with ctrl := .none }) s)
      else setChannel i (enterRest s.cl.cfg { axisCh s i with ctrl := .none }) s
      else s) := fun hs =>
    .ite (fun _ => .ite (fun _ => (keeps_endPunch i _).after (hrest _ rfl rfl hs)) fun _ => hrest _ rfl rfl hs)
      fun _ => .refl s
  simp only [idleAt]
  split
  · next h => exact (keeps_endPunch i _).after (hrest _ rfl rfl (by simp [h]))
  · next h => exact hpath (by simp [h])
  · next h => exact hpath (by simp [h])
  · next h => exact hpath (by simp [h])
  · exact htake

theorem keeps_disarm (s : State) : Keeps s (disarm s) := by
  simp only [disarm]
  split
  · exact .refl s
  · exact .ite (fun _ => keeps_setTs (fun h => emptyEntry_blocks h _) id) fun _ => .refl s

theorem keeps_clearFeeder (s : State) : Keeps s (clearFeeder s) := keeps_setFd fun _ => Nat.zero_le _

theorem keeps_beforeRelease (s : State) : Keeps s (beforeRelease s) := by
  have hfront := ((keeps_disarm s).trans (Keeps.foldl keeps_idleAt allAxes _)).trans (keeps_clearFeeder _)
  simp only [beforeRelease]
  generalize clearFeeder (allAxes.foldl idleAt (disarm s)) = u at hfront ⊢
  refine keeps_setMode ((hfront.toKeepsCore.trans (core_setTc u _)).trans (core_setPu fun h => ?_))
    (fun _ => rfl) (fun h => nomatch h) fun h => ?_
  · exact ⟨h.path, h.move, h.master, h.strain, h.guard⟩
  · exact hfront.latch h

theorem keeps_returnToIdle (s : State) : Keeps s (returnToIdle s) := by
  rw [returnToIdle_eq]
  exact (keeps_beforeRelease s).trans (keeps_releaseKey (by simp) _)

/-! ### Rolls and halts -/

/-- The play context changes where there is one. -/
theorem keeps_modContext (f : PlayContext → PlayContext) (s : State) : Keeps s (modContext f s) :=
  keeps_setTc rfl (by simp)

theorem keeps_cancelRoll {s : State} (cause : CancelCause) (hm : s.tc.mode = .rolling) :
    Keeps s (cancelRoll cause s) := by
  have hroll : Keeps s (s.setTc { s.tc with roll := { s.tc.roll with window := none, result := .cancelled cause } }) :=
    keeps_setTc rfl rfl
  refine hroll.trans (keeps_setMode_only ?_ ?_)
  · simp only [setTc_tc, hm]
    split <;> rfl
  · split <;> simp

theorem keeps_enterHalted {s : State} (hm : contextFree s.tc.mode = false) : Keeps s (enterHalted s) := by
  have hsuspend : Keeps s (suspendFeeder s) := keeps_setFd id
  have hmod := hsuspend.trans (keeps_modContext (fun c => { c with haltSeq := some (seqInPlay s.fd) }) _)
  simp only [enterHalted]
  have hmode : (modContext (fun c => { c with haltSeq := some (seqInPlay s.fd) }) (suspendFeeder s)).tc.mode = s.tc.mode :=
    rfl
  generalize modContext (fun c => { c with haltSeq := some (seqInPlay s.fd) }) (suspendFeeder s) = u at hmod hmode ⊢
  have hset : Keeps s (setMode .halted (u.setPu { u.pu with slices := [] })) :=
    (keeps_setMode_only (by simp only [setPu_tc, hmode, hm]; rfl) (by simp)).after
      ((keeps_setPu_same (x := { u.pu with slices := [] }) rfl rfl rfl rfl).after hmod)
  exact .ite (fun _ => hset.trans (keeps_returnToIdle _)) fun _ => hset

theorem keeps_modeOnRise (s : State) : Keeps s (modeOnRise s) := by
  have hplay (hm : contextFree s.tc.mode = false) : Keeps s (if clsGe s.su.effective .halt then enterHalted s else s) :=
    .ite (fun _ => keeps_enterHalted hm) fun _ => .refl s
  simp only [modeOnRise]
  split
  · exact keeps_returnToIdle s
  · exact keeps_returnToIdle s
  · next hm => exact keeps_cancelRoll _ hm
  · next hm => exact hplay (by simp [hm, contextFree])
  · next hm => exact hplay (by simp [hm, contextFree])
  · exact .refl s

/-- A class that differs from the old one is taken, and the drive latch is clear at SEVER afterwards. -/
theorem keeps_classFormed {old : Cls} {s : State} (trip : TakeTime) (h : s.su.effective ≠ old) :
    Keeps s (classFormed old trip s) ∧ LatchInv (classFormed old trip s) := by
  obtain ⟨hk, hl⟩ := keeps_takeClass old trip s
  simp only [classFormed, h, if_false]
  split
  · exact ⟨hk.trans (keeps_modeOnRise _), (keeps_modeOnRise _).latch hl⟩
  · exact ⟨hk, hl⟩

/-! ### Raises (R162) and the stop table (R164) -/

/-- A claim of a new key is added. -/
theorem OwnClaims.append {own : List Claim} {b b' : Bool} {c : Cause} {cls : Cls} (hown : OwnClaims own b)
    (hfresh : ∀ k ∈ own, k.cause ≠ c) (hcls : cls ≠ .none) (hmis : c = .peerMismatch → cls = .hold)
    (hline : b' = true ↔ b = true ∨ c = .stopLine) : OwnClaims (own ++ [{ cause := c, cls := cls }]) b' := by
  have hlast : ∀ {P : Claim → Prop}, (∀ k ∈ own, P k) → P { cause := c, cls := cls } →
      ∀ k ∈ own ++ [{ cause := c, cls := cls }], P k := fun hall hnew k hk =>
    (List.mem_append.mp hk).elim (hall k) fun hk => List.mem_singleton.mp hk ▸ hnew
  refine ⟨?_, hlast hown.classes hcls, hlast hown.mismatch hmis, hline.trans ?_⟩
  · rw [List.map_append, List.nodup_append']
    refine ⟨hown.keys, List.nodup_singleton _, fun x hx hx' => ?_⟩
    obtain ⟨k, hk, rfl⟩ := List.mem_map.mp hx
    exact hfresh k hk (List.mem_singleton.mp hx')
  · rw [List.map_append, List.mem_append, List.map_singleton, List.mem_singleton, hown.line, eq_comm (a := c)]

theorem raisedSet_own {c : Cause} {cls : Cls} {own own' : List Claim} {b : Bool} (h : raisedSet c cls own = some own')
    (hown : OwnClaims own b) (hcls : cls ≠ .none) (hmis : c = .peerMismatch → cls = .hold) (hline : c ≠ .stopLine) :
    OwnClaims own' b := by
  simp only [raisedSet] at h
  split at h
  · next hnone =>
    obtain rfl := Option.some.inj h
    have hfresh : ∀ k ∈ own, k.cause ≠ c := fun k hk hkc => List.find?_eq_none.mp hnone k hk (beq_iff_eq.mpr hkc)
    exact hown.append hfresh hcls hmis (by rw [or_iff_left hline])
  · split at h
    · obtain rfl := Option.some.inj h
      have hmap : (own.map fun k => if k.cause = c then { k with cls := cls } else k).map Claim.cause =
          own.map Claim.cause := by
        rw [List.map_map]
        exact List.map_congr_left fun k _ => by simp only [Function.comp]; split <;> rfl
      refine ⟨by rw [hmap]; exact hown.keys, ?_, ?_, by rw [hmap]; exact hown.line⟩ <;>
        simp only [List.forall_mem_map] <;> intro k hk <;> split
      · exact hcls
      · exact hown.classes k hk
      · next heq => exact fun hc => hmis (heq.symm.trans hc)
      · exact hown.mismatch k hk
    · cases h

/-- A key is raised over a set that the stop-line state goes with. -/
theorem keeps_raise {s : State} {x : StopUnit} {c : Cause} {cls : Cls}
    (heff : x.effective = s.su.effective) (hlatch : x.driveLatch = s.su.driveLatch)
    (h : ∀ own, raisedSet c cls x.own = some own → ClaimsInv s → OwnClaims own x.lineOpen)
    (hsame : raisedSet c cls x.own = none → Keeps s (s.setSu x)) : Keeps s (raiseKey c cls (s.setSu x)) := by
  simp only [raiseKey]
  split
  · next hnone => exact hsame hnone
  · next own hsome =>
    refine keeps_classTaken (core_changeOwn true c own (h own hsome)) (by simp) (by simp) (by simp) ?_
      (fun hp => hp.trans heff) fun hne => keeps_classFormed _ hne
    exact (changeOwn_changes true c own (s.setSu x)).2.2.1.trans hlatch

theorem keeps_raiseKey {c : Cause} {cls : Cls} (hcls : cls ≠ .none) (hmis : c = .peerMismatch → cls = .hold)
    (hline : c ≠ .stopLine) (s : State) : Keeps s (raiseKey c cls s) := by
  have hsame : s.setSu s.su = s := rfl
  have h := keeps_raise (s := s) (x := s.su) (c := c) rfl rfl
    (fun _ h hs => raisedSet_own h hs.own hcls hmis hline)
  rw [hsame] at h
  exact h fun _ => .refl s

theorem keeps_writeStopEntry (n : Station) (e : StopEntry) (trip : TakeTime) (s : State) :
    Keeps s (writeStopEntry n e trip s) := by
  have hcore : KeepsCore s (formClass (s.setSu { s.su with entries := s.su.entries.set n e })) :=
    core_setSu fun h => ⟨h.keys, h.classes, h.mismatch, h.line, rfl⟩
  simp only [writeStopEntry]
  generalize hu : formClass (s.setSu { s.su with entries := s.su.entries.set n e }) = u at hcore ⊢
  have hpu : u.pu = s.pu ∧ u.gu = s.gu ∧ u.tc = s.tc ∧ u.su.driveLatch = s.su.driveLatch := by
    rw [← hu]
    exact ⟨rfl, rfl, rfl, rfl⟩
  obtain ⟨hpu, hgu, htc, hlatch⟩ := hpu
  have hrates : RatesInv s → RatesInv u := fun hs =>
    ⟨by rw [hpu]; exact hs.path, by rw [hpu]; exact hs.move, by rw [hpu]; exact hs.master,
      by rw [hpu]; exact hs.strain, by rw [hgu]; exact hs.guard, by rw [htc, hpu]; exact hs.recording,
      by rw [htc, hpu]; exact hs.standing⟩
  have hctx : ContextInv s → ContextInv u := fun hs => by rw [ContextInv, htc]; exact hs
  by_cases heq : u.su.effective = s.su.effective
  · have hsame : classFormed s.su.effective trip u = u := by simp [classFormed, heq]
    rw [hsame]
    exact ⟨hcore, hrates, hctx, fun hs => by rw [LatchInv, hlatch, heq]; exact hs⟩
  · obtain ⟨hk, hl⟩ := keeps_classFormed trip heq
    exact ⟨hcore.trans hk.toKeepsCore, hk.rates ∘ hrates, hk.context ∘ hctx, fun _ => hl⟩

end Sys2Proof.Machine
end


section
/-! PROOFS. The line controller, the receive path, the axis commands and the feeder keep what every step keeps. -/

namespace Sys2Proof.Machine

/-! ### Liveness and the receive path (R8 to R11, R19) -/

-- In place, so that the parts of the text are elaborated one after the other and not all at once.
set_option Elab.async false in
theorem keeps_refreshLiveness (n : Station) (s : State) : Keeps s (refreshLiveness n s) :=
  (Keeps.ite (fun _ => keeps_releaseKey (by simp) _) fun _ => .refl _).after (keeps_setPt s _)

theorem keeps_duplicateFound (s : State) : Keeps s (duplicateFound s) := by
  refine .ite (fun _ => .refl s) fun _ => ?_
  refine (keeps_releaseKey (by simp) _).after ((keeps_raiseKey (by simp) (by simp) (by simp) _).after ?_)
  exact keeps_setLc (fun _ => ⟨Nat.zero_le _, List.Pairwise.nil⟩) id

theorem keeps_enqueueRx (sender : Station) (p : Payload) (mark : StartMark) (own : Bool) (s : State) :
    Keeps s (enqueueRx sender p mark own s) := by
  simp only [enqueueRx]
  split
  · exact keeps_setLc id fun _ => by simp; omega
  · split
    · exact keeps_setCounters s _
    · split
      · exact keeps_setCounters s _
      · next q hq =>
        obtain ⟨l, e, r, hsplit, rfl, -, -⟩ := displaceOldest_split hq
        refine (keeps_setCounters _ _).after (keeps_setLc id fun hlen => ?_)
        rw [hsplit] at hlen
        simp only [List.length_append, List.length_cons, List.length_nil] at hlen ⊢
        omega

theorem keeps_receiveValid (sender : Station) (p : Payload) (mark : StartMark) (own : Bool) (s : State) :
    Keeps s (receiveValid sender p mark own s) := by
  have hdup : ∀ u, Keeps u (if !own && sender = u.cl.station then duplicateFound u else u) := fun u =>
    .ite (fun _ => keeps_duplicateFound u) fun _ => .refl u
  exact (Keeps.ite (fun _ => keeps_enqueueRx sender p mark own _) fun _ => .refl _).after
    ((hdup _).after (keeps_refreshLiveness sender s))

theorem keeps_takeOffer {want : Payload → Bool} {s s1 : State} {e : RxEntry} (h : takeOffer want s = some (e, s1)) :
    Keeps s s1 := by
  obtain ⟨l, r, hq, rfl, -, -⟩ := takeOffer_rxq h
  refine keeps_setLc id fun hlen => ?_
  rw [hq] at hlen
  simp only [List.length_append, List.length_cons] at hlen ⊢
  omega

/-! ### Commands and answers (R14, R15) -/

theorem keeps_answer (c : Command) (result : AnswerResult) (detail : Detail) (s : State) :
    Keeps s (answer c result detail s) := .ite (fun _ => .refl s) fun _ => keeps_handOver _ s

theorem keeps_answerDone (c : Command) (s : State) : Keeps s (answerDone c s) := keeps_answer c _ _ s

theorem keeps_answerClamped (c : Command) (clamped : Bool) (s : State) : Keeps s (answerClamped c clamped s) :=
  keeps_answer c _ _ s

theorem keeps_refuse (c : Command) (r : Reason) (s : State) : Keeps s (refuse c r s) := keeps_answer c _ _ s

theorem keeps_refuseWith (c : Command) (r : Reason) (d : Detail) (s : State) : Keeps s (refuseWith c r d s) :=
  keeps_answer c _ _ s

theorem keeps_withEarly {α : Type} {pick : CommandBody → Option α} {early : Command → α → State → Option State}
    {act : Command → α → State → State} (hearly : ∀ c x u v, early c x u = some v → Keeps u v)
    (hact : ∀ c x u, Keeps u (act c x u)) (s : State) : Keeps s (withCommand pick early act s) := by
  simp only [withCommand]
  split
  · exact .refl s
  · next e u htake =>
    refine (keeps_takeOffer htake).trans ?_
    split
    · exact .refl u
    · split
      · next v hv => exact hearly _ _ _ _ hv
      · split
        · exact keeps_refuse _ _ u
        · exact hact _ _ u

theorem keeps_withCommand {α : Type} {pick : CommandBody → Option α} {act : Command → α → State → State}
    (hact : ∀ c x u, Keeps u (act c x u)) (s : State) : Keeps s (withCommand pick noEarly act s) :=
  keeps_withEarly (fun _ _ _ _ h => by cases h) hact s

/-! ### The line (R1 to R7, R9, R16) -/

theorem keeps_transmitAttempt (won : Bool) (instant : Nat) (s : State) : Keeps s (transmitAttemptEffect won instant s) := by
  simp only [transmitAttemptEffect]
  split
  · split
    · exact .refl s
    · next f rest hq =>
      have hclass : frameClass (stampPace s.pu.t f.payload) = frameClass f.payload := by
        cases f.payload <;> rfl
      refine keeps_setLc (fun h => h.of_classes ?_) id
      rw [hq, List.map_cons, List.map_cons, hclass]
  · exact .refl s

theorem keeps_frameSentWhole (s : State) : Keeps s (frameSentWholeEffect s) := by
  simp only [frameSentWholeEffect]
  split
  · exact .refl s
  · refine (keeps_receiveValid _ _ _ _ _).after
      ((Keeps.ite (fun _ => keeps_releaseKey (by simp) _) fun _ => .refl _).after ?_)
    exact keeps_setLc (fun h => h.of_sublist List.filter_sublist) id

theorem queueAfterFailure_txInv (f : TxFrame) {q : List TxFrame} (h : TxInv q) : TxInv (queueAfterFailure f q) := by
  simp only [queueAfterFailure]
  split
  · exact h.of_sublist List.filter_sublist
  · exact h.of_classes (by simp)

theorem keeps_enterLinkLost (s : State) : Keeps s (enterLinkLost s) :=
  (keeps_raiseKey (by simp) (by simp) (by simp) _).after (keeps_setLc id id)

theorem keeps_failAttempt (f : TxFrame) (s : State) : Keeps s (failAttempt f s) :=
  (Keeps.ite (fun _ => keeps_enterLinkLost _) fun _ => .refl _).after
    ((keeps_setCounters _ _).after (keeps_setLc (queueAfterFailure_txInv f) id))

theorem keeps_attemptFails (s : State) : Keeps s (attemptFailsEffect s) := by
  simp only [attemptFailsEffect]
  split
  · exact .refl s
  · exact keeps_failAttempt _ s

theorem keeps_linkLostEntry (s : State) : Keeps s (linkLostEntryEffect s) := by
  simp only [linkLostEntryEffect]
  split
  · exact .refl s
  · exact .ite (fun _ => keeps_failAttempt _ s) fun _ => .refl s

theorem keeps_quietTimeExpiry (s : State) : Keeps s (quietTimeExpiryEffect s) :=
  .ite (fun _ => (keeps_handState _).after (keeps_setLc id id)) fun _ => .refl s

theorem keeps_startBit (instant : Nat) (s : State) : Keeps s (startBitEffect instant s) :=
  .ite (fun _ => keeps_setLc id id) fun _ => .refl s

theorem keeps_framingViolation (line : List Bool) (s : State) : Keeps s (framingViolationEffect line s) := by
  simp only [framingViolationEffect]
  split
  · exact (Keeps.ite (fun _ => keeps_setCounters _ _) fun _ => .refl _).after (keeps_setLc id id)
  · exact .refl s

theorem execFrameArrives_keeps {f : LineFrame} {s t : State} (h : execFrameArrives f s = .next t) : Keeps s t := by
  simp only [execFrameArrives] at h
  split at h
  · next mark _ =>
    have hidle : Keeps s (s.setLc { s.lc with phase := .idle }) := keeps_setLc id id
    split at h
    · exact Host.Outcome.next.inj h ▸ hidle
    · exact Host.Outcome.next.inj h ▸ hidle.trans (keeps_setCounters _ _)
    · exact Host.Outcome.next.inj h ▸ hidle.trans (keeps_setCounters _ _)
    · split at h
      · cases h
      · exact Host.Outcome.next.inj h ▸ hidle.trans (keeps_receiveValid _ _ _ _ _)
  · exact Host.Outcome.next.inj h ▸ .refl s

theorem keeps_queryCounters (s : State) : Keeps s (queryCountersEffect s) := by
  refine keeps_withEarly (fun c x u v hv => ?_) (fun c x u => (keeps_handOver _ _).after (keeps_setCounters u _)) s
  split at hv
  · exact Option.some.inj hv ▸ keeps_setCounters u _
  · cases hv

/-! ### Channels off and on their paths (R22, R39, R43, R179) -/

theorem endPunch_channel (i : Axis) (s : State) : (endPunch i s).ax.ch = s.ax.ch := rfl

theorem keeps_punchOutAxis {i : Axis} {s : State} (hs : (axisCh s i).state = .override) :
    Keeps s (punchOutAxis i s) := by
  have hfront : Keeps s (changeover i (endPunch i s)) := (keeps_endPunch i s).trans (keeps_changeover i _)
  have hstate : (axisCh (changeover i (endPunch i s)) i).state = .override := by
    simpa [axisCh, endPunch_channel] using hs
  simp only [punchOutAxis]
  generalize changeover i (endPunch i s) = u at hfront hstate ⊢
  have hmay : ∀ d : AxisChannel, d.state ≠ .disabled → d.p8 = (axisCh u i).p8 → d.v8 = (axisCh u i).v8 →
      Keeps s (setChannel i d u) := fun d hd hp hv =>
    hfront.trans (keeps_setChannel fun _ => channelMay_of_eq (by simp [hd, hstate]) hp hv)
  split
  · exact hmay _ (by simp) rfl rfl
  · split
    · exact hmay _ (by simp) rfl rfl
    · exact hmay _ (by simp) rfl rfl

theorem keeps_releaseAxis (i : Axis) (s : State) : Keeps s (releaseAxis i s) := by
  simp only [releaseAxis]
  split
  · exact keeps_setChannel fun _ => channelMay_of_eq Iff.rfl rfl rfl
  · exact keeps_setChannel fun _ => channelMay_of_eq Iff.rfl rfl rfl
  · exact keeps_setChannel fun _ => channelMay_of_eq Iff.rfl rfl rfl
  · exact keeps_punchOutAxis ‹_›
  · exact .refl s

theorem keeps_startPositioning {dur : Nat} {ctrl : Controller} {x : Axis × Int} {s : State}
    (hs : SetpointInv s → (axisCh s x.1).state ≠ .disabled) : Keeps s (startPositioning dur ctrl x s) := by
  simp only [startPositioning]
  exact keeps_setChannel fun h => channelMay_of_eq (by simp [hs h]) rfl rfl

theorem SetpointInv.not_disabled {s : State} (h : SetpointInv s) {i : Axis} (hi : configured s i = true) :
    (axisCh s i).state ≠ .disabled := by simp [h.disabled i, hi]

theorem configured_congr {s t : State} (h : t.cl = s.cl) (i : Axis) : configured t i = configured s i := by
  simp [configured, h]

theorem keeps_positionToPose (pose : Axis → Int) (duration : Nat) (s : State) :
    Keeps s (positionToPose pose duration s) := by
  simp only [positionToPose]
  have hfront : Keeps s ((allAxes.filter (configured s)).foldl (fun s i => setChannel i
      { axisCh s i with ctrl := .take, demand := 0, jogTimer := none, idleTimer := none } s)
      (s.setTc { s.tc with arrivals := Table.fill 3 false })) := by
    refine (Keeps.foldl (fun u i => keeps_setChannel fun _ => ?_) _ _).after (keeps_setTc rfl rfl)
    exact channelMay_of_eq Iff.rfl rfl rfl
  refine hfront.trans (Keeps.foldl_of (P := fun u => u.cl = s.cl) _ (fun u x hx hu => ⟨?_, by simpa using hu⟩) ?_)
  · have hconf : configured u x.1 = true := by
      simp only [List.mem_map, List.mem_filter] at hx
      obtain ⟨i, ⟨⟨-, hi⟩, -⟩, rfl⟩ := hx
      exact (configured_congr hu i).trans hi
    exact keeps_startPositioning fun h => h.not_disabled hconf
  · exact foldl_keeps State.cl _ (by simp) _ _

/-! ### JOG and GOTO (R41 to R43) -/

theorem firstAxis_none {named : List (Axis × Int)} {fails : Axis → Bool} (h : firstAxis named fails = none) :
    ∀ x ∈ named, fails x.1 = false := by
  intro x hx
  simpa using List.find?_eq_none.mp h x.1 (List.mem_map_of_mem hx)

theorem moveRefusal_enabled {isGoto : Bool} {sender : Station} {named : List (Axis × Int)} {s : State}
    (h : moveRefusal isGoto sender named s = none) : ∀ x ∈ named, (axisCh s x.1).state ≠ .disabled := by
  simp only [moveRefusal] at h
  split at h
  · cases h
  · next hnone => exact fun x hx => by simpa using firstAxis_none hnone x hx

theorem channelMay_jog (a : AxisConfig) (cfg : NodeConfig) (sender : Station) (demand : Int) (c : AxisChannel) :
    ChannelMay a c (jogChannel cfg sender demand c) := by
  simp only [jogChannel]
  split
  · next h => exact channelMay_of_eq (by simp [h]) rfl rfl
  · next h => exact channelMay_of_eq (by simp [h]) rfl rfl
  · exact channelMay_of_eq Iff.rfl rfl rfl

theorem keeps_jog (s : State) : Keeps s (jogEffect s) := by
  refine keeps_withCommand (fun c t u => ?_) s
  dsimp only
  split
  · exact keeps_refuseWith _ _ _ u
  · exact (keeps_answerClamped _ _ _).after
      (Keeps.foldl (fun _ _ => keeps_setChannel fun _ => channelMay_jog _ _ _ _ _) _ u)

theorem keeps_goto (s : State) : Keeps s (gotoEffect s) := by
  refine keeps_withCommand (fun c x u => ?_) s
  dsimp only
  split
  · exact keeps_refuseWith _ _ _ u
  · next hnone =>
    refine (keeps_answerClamped _ _ _).after (Keeps.foldl_of
      (P := fun v => ∀ y ∈ namedValues x.2, (axisCh v y.1).state ≠ .disabled) _ (fun v y hy hv => ?_)
      (moveRefusal_enabled hnone))
    refine ⟨keeps_startPositioning fun _ => hv y hy, fun z hz => ?_⟩
    simp only [startPositioning, axisCh_setChannel]
    split
    · simp
    · exact hv z hz

/-! ### CONTROL-RELEASE, FAULT-CLEAR and the timers (R34, R39, R42) -/

theorem keeps_releaseNamed (sender : Station) (axes : List Axis) (s : State) :
    Keeps s (releaseNamed sender axes s) :=
  Keeps.foldl (fun u i => .ite (fun _ => keeps_releaseAxis i u) fun _ => .refl u) axes s

theorem keeps_controlRelease (s : State) : Keeps s (controlReleaseEffect s) := by
  refine keeps_withCommand (fun c set u => ?_) s
  dsimp only
  split
  · exact keeps_refuseWith _ _ _ u
  · exact (keeps_answerDone c _).after (keeps_releaseNamed _ _ u)

theorem travelClamp_bounds {a : AxisConfig} (h : AxisParams a) (x : Int) :
    a.smin ≤ travelClamp a x ∧ travelClamp a x ≤ a.smax := by
  have := h.travel
  simp only [travelClamp, clampInt]
  omega

theorem trackOf_bounds {a : AxisConfig} (h : AxisParams a) (x : Int) :
    256 * a.smin ≤ trackOf a x ∧ trackOf a x ≤ 256 * a.smax := by
  obtain ⟨hlow, hhigh⟩ := travelClamp_bounds h x
  simp only [trackOf]
  omega

/-- A channel that tracks the encoder, without velocity. -/
theorem channelMay_of_track {a : AxisConfig} {c d : AxisChannel} {x : Int}
    (hs : d.state = .disabled ↔ c.state = .disabled) (hp : d.p8 = trackOf a x) (hv : d.v8 = 0) : ChannelMay a c d :=
  ⟨hs, fun _ ha _ => ⟨hp ▸ (trackOf_bounds ha x).1, hp ▸ (trackOf_bounds ha x).2,
    by simpa [hv] using Int.le_of_lt ha.vmax⟩⟩

theorem keeps_clearFault {i : Axis} {s : State} (hs : (axisCh s i).state ≠ .disabled) : Keeps s (clearFault i s) := by
  have hset : Keeps s (setChannel i (clearedChannel s.cl.cfg (axisCfg s i) (axisCh s i)) s) :=
    keeps_setChannel fun _ => channelMay_of_track (by simp [clearedChannel, enterRest, hs]) rfl rfl
  exact (Keeps.ite (fun _ => keeps_takeClassAt .none _ i) fun _ => .refl _).after
    ((keeps_releaseKey (by simp) _).after ((keeps_releaseKey (by simp) _).after hset))

theorem keeps_faultClear (s : State) : Keeps s (faultClearEffect s) := by
  refine keeps_withCommand (fun c number u => ?_) s
  split
  · exact keeps_refuseWith _ _ _ u
  · next i _ =>
    by_cases hst : (axisCh u i).state = .fault
    · rw [if_neg (not_not_intro hst)]
      exact .ite (fun _ => keeps_refuseWith _ _ _ u) fun _ =>
        (keeps_answerDone c _).after (keeps_clearFault (by simp [hst]))
    · rw [if_pos hst]
      exact keeps_answerDone c u

theorem keeps_jogTimeout (i : Axis) (s : State) : Keeps s (jogTimeoutEffect i s) :=
  .ite (fun _ => keeps_setCh rfl fun _ => channelMay_of_eq Iff.rfl rfl rfl) fun _ => .refl s

theorem keeps_idleReleaseExpiry (i : Axis) (s : State) : Keeps s (idleReleaseExpiryEffect i s) :=
  .ite (fun _ => keeps_setCh rfl fun _ => channelMay_of_eq Iff.rfl rfl rfl) fun _ => .refl s

/-! ### The feeder (chapter 8) -/

/-- An entry that joins the queue makes it one longer. -/
theorem enqueueEntry_length (mode : PlayMode) (take : TakeEntry) (e : QueueEntry) (fd : Feeder) :
    (enqueueEntry mode take e fd).queue.length = fd.queue.length + 1 := by
  simp only [enqueueEntry]
  split <;> simp

theorem feederRead_length (c : PlayContext) (s : State) :
    (feederRead c s).queue.length ≤ s.fd.queue.length + 1 := by
  simp only [feederRead]
  split
  · exact Nat.le_succ _
  · exact Nat.le_of_eq (enqueueEntry_length _ _ _ _)

theorem feederWants_room {s : State} (h : feederWants s = true) : s.fd.queue.length < 8 := by
  simp only [feederWants, Bool.and_eq_true, decide_eq_true_eq] at h
  exact h.1.1.1.1.2

theorem keeps_feederReadDone (s : State) : Keeps s (feederReadDoneEffect s) := by
  simp only [feederReadDoneEffect]
  split
  · next hw =>
    split
    · exact .refl s
    · exact keeps_setFd fun _ => (feederRead_length _ s).trans (feederWants_room hw)
  · exact .refl s

theorem keeps_beginFeeding (c : PlayContext) (startSeq : BitVec 16) (s : State) :
    Keeps s (beginFeeding c startSeq s) := keeps_setFd fun _ => Nat.zero_le _

theorem keeps_rebuildFeeder (c : PlayContext) (startSeq : BitVec 16) (s : State) :
    Keeps s (rebuildFeeder c startSeq s) := by
  simp only [rebuildFeeder]
  split
  · exact keeps_beginFeeding c startSeq s
  · exact keeps_setFd fun _ => by simp [enqueueEntry_length]

theorem keeps_samplePunches (stop : Nat) (s : State) : Keeps s (samplePunches stop s) := by
  simp only [samplePunches]
  exact keeps_setAx_same rfl

theorem keeps_takePublication (n : Nat) (s : State) : Keeps s (takePublication n s) := by
  induction n generalizing s with
  | zero => exact .refl s
  | succ n ih =>
    simp only [takePublication]
    split
    · exact .refl s
    · next e rest hq =>
      split
      · have hsample : Keeps s (samplePunches e.stop (s.setFd (retireEntry e rest s.fd))) :=
          (keeps_samplePunches _ _).after (keeps_setFd fun hlen => by
            rw [hq] at hlen
            exact Nat.le_of_succ_le hlen)
        exact .ite (fun _ => hsample.trans (keeps_returnToIdle _)) fun _ => hsample.trans (ih _)
      · exact .refl s

theorem keeps_keepRestart (e : QueueEntry) (s : State) : Keeps s (keepRestart e s) := keeps_setFd fun _ => Nat.zero_le _

theorem releaseWaiting_length (q : List QueueEntry) : (releaseWaiting q).length = q.length := by
  induction q with
  | nil => rfl
  | cons e rest ih =>
    simp only [releaseWaiting]
    split <;> simp [ih]

theorem applyAdvance_length (fd : Feeder) : (applyAdvance fd).queue.length = fd.queue.length := by
  simp only [applyAdvance]
  split
  · rfl
  · split
    · exact releaseWaiting_length _
    · rfl

theorem applyBreak_queue (mode : Option PlayMode) (fd : Feeder) : (applyBreak mode fd).queue = fd.queue := by
  simp only [applyBreak]
  split
  · rfl
  · split <;> rfl

theorem keeps_advance (s : State) : Keeps s (advanceEffect s) := by
  refine keeps_withCommand (fun c _ u => ?_) s
  refine .ite (fun _ => keeps_refuse _ _ u) fun _ => .ite (fun _ => keeps_refuseWith _ _ _ u) fun _ =>
    .ite (fun _ => keeps_setCounters u _) fun _ => (keeps_answerDone c _).after (keeps_setFd fun h => ?_)
  rwa [applyAdvance_length]

theorem keeps_brk (s : State) : Keeps s (brkEffect s) := by
  refine keeps_withCommand (fun c _ u => ?_) s
  refine .ite (fun _ => keeps_refuse _ _ u) fun _ => (keeps_answerDone c _).after (keeps_setFd fun h => ?_)
  rwa [applyBreak_queue]

theorem keeps_cueEdge (s : State) : Keeps s (cueEdgeEffect s) :=
  .ite (fun _ => (Keeps.ite (fun _ => keeps_handOver _ _) fun _ => .refl _).after (keeps_setFd id)) fun _ => .refl s

end Sys2Proof.Machine
end


section
/-! PROOFS. The guard unit, the servo update, the pace unit, the peer table and the punches keep what every step
keeps. -/

namespace Sys2Proof.Machine

/-! ### The guard unit (R149 to R158) -/

-- In place, so that the parts of the text are elaborated one after the other and not all at once.
set_option Elab.async false in
theorem keeps_setZone (z : Zone) (r : ZoneRecord) (s : State) : Keeps s (setZone z r s) := keeps_setGu id

theorem keeps_enterOccupied (z : Zone) (s : State) : Keeps s (enterOccupied z s) := by
  simp only [enterOccupied]
  split
  · next cls _ hcls =>
    have hne : cls ≠ .none := by
      rintro rfl
      generalize (zoneCfg (setZone z _ s) z).action = act at hcls
      cases act <;> simp [actionClass] at hcls
    exact (keeps_raiseKey hne (by simp) (by simp) _).after (keeps_setZone z _ s)
  · exact keeps_setZone z _ s

theorem keeps_enterClear (z : Zone) (s : State) : Keeps s (enterClear z s) :=
  (keeps_releaseKey (by simp) _).after (keeps_setZone z _ s)

theorem keeps_evaluateZone (s : State) (z : Zone) : Keeps s (evaluateZone s z) := by
  simp only [evaluateZone]
  split
  · exact .refl s
  · split
    · exact keeps_enterOccupied z s
    · exact keeps_enterOccupied z s
    · exact .ite (fun _ => keeps_setZone z _ s) fun _ => keeps_enterClear z s
    · exact .refl s

theorem guardCeiling_le (s : State) : guardCeiling s ≤ 1024 := by
  have hfold : ∀ (l : List Zone) (g : Nat), g ≤ 1024 → l.foldl (fun g z =>
      if (zoneOf s z).armed && (zoneCfg s z).action == .scale && (zoneOf s z).state != .clear then
        min g (zoneCfg s z).ceiling
      else g) g ≤ 1024 := by
    intro l
    induction l with
    | nil => exact fun g hg => hg
    | cons z l ih =>
      intro g hg
      refine ih _ ?_
      dsimp only
      split
      · exact (Nat.min_le_left _ _).trans hg
      · exact hg
  exact hfold allZones 1024 (Nat.le_refl _)

theorem keeps_formCeiling (s : State) : Keeps s (formCeiling s) :=
  .ite (fun _ => .refl s) fun _ => (keeps_announce _).after (keeps_setGu fun _ => guardCeiling_le s)

theorem keeps_guardStages (levels : BitVec 8) (s : State) : Keeps s (guardStages levels s) :=
  .ite (fun _ => .refl s) fun _ => (keeps_formCeiling _).after
    ((Keeps.foldl keeps_evaluateZone allZones _).after (keeps_setGu id))

/-! ### The stop line (R166) -/

/-- The own claims with the STOP-LINE claim raised go with an open stop line. -/
theorem raisedSet_stopLine {own own' : List Claim} (h : raisedSet .stopLine .sever own = some own')
    (hown : OwnClaims own false) : OwnClaims own' true := by
  have hfresh : ∀ k ∈ own, k.cause ≠ .stopLine := by
    intro k hk heq
    exact absurd (hown.line.mpr (heq ▸ List.mem_map_of_mem hk)) (by simp)
  have hnone : own.find? (fun k => k.cause == .stopLine) = none :=
    List.find?_eq_none.mpr fun k hk hkc => hfresh k hk (beq_iff_eq.mp hkc)
  simp only [raisedSet, hnone] at h
  obtain rfl := Option.some.inj h
  exact hown.append hfresh Cls.noConfusion Cause.noConfusion (iff_of_true rfl (.inr rfl))

/-- The own claims with the STOP-LINE claim released go with a closed stop line. -/
theorem releasedSet_stopLine {own : List Claim} (hown : OwnClaims own true) :
    OwnClaims (own.filter fun k => k.cause != .stopLine) false := by
  have hsub : (own.filter fun k => k.cause != .stopLine).Sublist own := List.filter_sublist
  refine ⟨(hsub.map _).nodup hown.keys, fun k hk => hown.classes k (hsub.subset hk),
    fun k hk => hown.mismatch k (hsub.subset hk), iff_of_false Bool.false_ne_true fun h => ?_⟩
  obtain ⟨k, hk, hline⟩ := List.mem_map.mp h
  exact bne_iff_ne.mp (List.mem_filter.mp hk).2 hline

/-- The stop line opens, or is open to one that does not agree with the claims. -/
theorem keeps_lineOpens {s : State} (n : Nat) (h : s.su.lineOpen = false) :
    Keeps s (raiseKey .stopLine .sever (s.setSu { s.su with lineOpen := true, closedRun := n })) := by
  refine keeps_raise rfl rfl (fun own hown hs => raisedSet_stopLine hown (h ▸ hs.own)) fun hnone => ?_
  refine keeps_setSu (fun hs => ?_) id
  have hfresh : ∀ k ∈ s.su.own, k.cause ≠ .stopLine := by
    intro k hk heq
    exact absurd (hs.line.mpr (heq ▸ List.mem_map_of_mem hk)) (by simp [h])
  have hfind : s.su.own.find? (fun k => k.cause == .stopLine) = none :=
    List.find?_eq_none.mpr fun k hk hkc => hfresh k hk (beq_iff_eq.mp hkc)
  rw [raisedSet, hfind] at hnone
  cases hnone

theorem keeps_lineCloses {s : State} (n : Nat) (h : s.su.lineOpen = true) :
    Keeps s (releaseKey .stopLine (s.setSu { s.su with lineOpen := false, closedRun := n })) := by
  refine keeps_release rfl rfl rfl (fun hs => releasedSet_stopLine (h ▸ hs.own)) fun hnone => ?_
  refine keeps_setSu (fun hs => ?_) id
  obtain ⟨k, hk, heq⟩ := List.mem_map.mp (hs.line.mp h)
  exact absurd heq (hnone k hk)

theorem keeps_sampleStopLine (closed : Bool) (s : State) : Keeps s (sampleStopLine closed s) := by
  have hfront : Keeps s (s.setSu { s.su with loopClosed := closed, openLatch := false }) :=
    keeps_setSu_same rfl rfl rfl rfl rfl
  simp only [sampleStopLine]
  generalize hu : s.setSu { s.su with loopClosed := closed, openLatch := false } = u at hfront ⊢
  have hrun : ∀ n, Keeps s (u.setSu { u.su with closedRun := n }) := fun n =>
    hfront.trans (keeps_setSu_same rfl rfl rfl rfl rfl)
  exact .ite (fun hline => .ite (fun _ => hfront.trans (keeps_lineOpens 0 (by simpa using hline))) fun _ => hfront)
    fun hline => .ite (fun _ => hrun 0) fun _ => .ite (fun _ => hrun _) fun _ =>
      hfront.trans (keeps_lineCloses 0 (by simpa using hline))

theorem keeps_guardSample (levels : BitVec 8) (closed stopLineFirst : Bool) (s : State) :
    Keeps s (guardSample levels closed stopLineFirst s) :=
  .ite (fun _ => (keeps_guardStages levels _).after (keeps_sampleStopLine closed s))
    fun _ => (keeps_sampleStopLine closed _).after (keeps_guardStages levels s)

theorem keeps_guardSampleEffect (levels : BitVec 8) (closed stopLineFirst : Bool) (s : State) :
    Keeps s (guardSampleEffect levels closed stopLineFirst s) :=
  .ite (fun _ => keeps_guardSample _ _ _ s) fun _ => .refl s

theorem keeps_levelFilterChange (levels : BitVec 8) (closed stopLineFirst : Bool) (s : State) :
    Keeps s (levelFilterChangeEffect levels closed stopLineFirst s) :=
  .ite (fun _ => keeps_guardSample _ _ _ s) fun _ => .refl s

theorem keeps_stopLineClosed (levels : BitVec 8) (stopLineFirst : Bool) (s : State) :
    Keeps s (stopLineClosedEffect levels stopLineFirst s) :=
  .ite (fun _ => keeps_guardSample _ _ _ s) fun _ => .refl s

theorem keeps_stopLineOpens (s : State) : Keeps s (stopLineOpensEffect s) :=
  .ite (fun _ => keeps_setSu_same rfl rfl rfl rfl rfl) fun _ => .refl s

theorem keeps_edgeLatch (i : Input) (s : State) : Keeps s (edgeLatchEffect i s) :=
  .ite (fun _ => keeps_setGu id) fun _ => .refl s

/-! ### Zone commands (R153 to R155, R159) -/

theorem keeps_armZone (s : State) (z : Zone) : Keeps s (armZone s z) :=
  .ite (fun _ => .refl s) fun _ => (Keeps.ite (fun _ => keeps_enterOccupied z _) fun _ => .refl _).after
    ((keeps_setZone z _ _).after (keeps_setGu id))

theorem keeps_disarmZone (s : State) (z : Zone) : Keeps s (disarmZone s z) :=
  .ite (fun _ => .refl s) fun _ => (keeps_enterClear z _).after (keeps_setZone z _ s)

theorem keeps_ackZone (s : State) (z : Zone) : Keeps s (ackZone s z) := by
  simp only [ackZone]
  split
  · exact keeps_setZone z _ s
  · exact (keeps_enterClear z _).after (keeps_setZone z _ s)
  · exact (Keeps.ite (fun _ => .refl _) fun _ => keeps_enterClear z _).after (keeps_setZone z _ s)

theorem keeps_zoneCommand {act : State → Zone → State} (h : ∀ u z, Keeps u (act u z)) (c : Command) (set : BitVec 8)
    (s : State) : Keeps s (zoneCommand act c set s) :=
  (keeps_answerDone c _).after ((keeps_formCeiling _).after (Keeps.foldl h _ s))

theorem keeps_zoneArm (s : State) : Keeps s (zoneArmEffect s) :=
  keeps_withCommand (keeps_zoneCommand keeps_armZone) s

theorem keeps_zoneDisarm (s : State) : Keeps s (zoneDisarmEffect s) :=
  keeps_withCommand (keeps_zoneCommand keeps_disarmZone) s

theorem keeps_zoneAck (s : State) : Keeps s (zoneAckEffect s) :=
  keeps_withCommand (keeps_zoneCommand keeps_ackZone) s

theorem keeps_queryTrip (s : State) : Keeps s (queryTripEffect s) := by
  refine keeps_withEarly (fun c low u v hv => ?_) (fun c low u => ?_) s
  · split at hv
    · exact Option.some.inj hv ▸ keeps_setCounters u _
    · cases hv
  · dsimp only
    split
    · exact .refl u
    · exact (keeps_handOver _ _).after (keeps_setZone _ _ u)

/-! ### The servo update: channels (R50, R58 to R63) -/

theorem ChannelMay.trans {a : AxisConfig} {c d e : AxisChannel} (h : ChannelMay a c d) (h' : ChannelMay a d e) :
    ChannelMay a c e :=
  ⟨h'.disabled.trans h.disabled,
    fun hc ha hs => h'.law (fun hd => hc (h.disabled.mp hd)) ha (h.law hc ha hs)⟩

theorem channelMay_limited (a : AxisConfig) (w : Int) (c : AxisChannel) : ChannelMay a c (limited a w c) where
  disabled := Iff.rfl
  law _ ha hc := by
    obtain ⟨hlow, hhigh, hspeed, -⟩ := limiter_keeps_law w ha hc
    exact ⟨hlow, hhigh, hspeed⟩

theorem channelMay_brake (a : AxisConfig) (c : AxisChannel) : ChannelMay a c (brakeChannel a c) where
  disabled := Iff.rfl
  law _ ha hc := by
    obtain ⟨hlow, hhigh, -, hspeed, -⟩ := brakingStep_keeps_law ha hc
    have hv := hc.speed
    have hvmax := ha.vmax
    have hhalt : 1 ≤ a.ahalt8 := Int.le_trans ha.amax ha.ahalt
    exact ⟨hlow, hhigh, show ((brakingStep a c.p8 c.v8).2.natAbs : Int) ≤ a.vmax8 by omega⟩

theorem channelMay_tracked (a : AxisConfig) (enc : Option Int) (c : AxisChannel) :
    ChannelMay a c (tracked a enc c) := by
  cases enc with
  | none => exact channelMay_of_stop Iff.rfl rfl rfl
  | some p => exact channelMay_of_track (x := p) Iff.rfl rfl rfl

theorem channelMay_followSegment (s : State) (i : Axis) (g : Segment) (clock : TakeTime) (c : AxisChannel) :
    ChannelMay (axisCfg s i) c (followSegment s i g clock c) := channelMay_limited _ _ c

theorem channelMay_rested {a : AxisConfig} {c d : AxisChannel} {p : Prop} [Decidable p] (cfg : NodeConfig)
    (h : ChannelMay a c d) (hc : c.state ≠ .disabled) : ChannelMay a c (if p then enterRest cfg d else d) := by
  split
  · exact h.trans (channelMay_enterRest cfg fun hd => hc (h.disabled.mp hd))
  · exact h

theorem channelMay_followStep (s : State) (i : Axis) {c : AxisChannel} (hc : c.state ≠ .disabled) :
    ChannelMay (axisCfg s i) c (followStep s i c).ch := by
  have hfollow : ChannelMay (axisCfg s i) c { c with state := .follow, segment := none } :=
    channelMay_of_eq (by simp [hc]) rfl rfl
  have hstep : ∀ u g clock d, u.cl = s.cl → ChannelMay (axisCfg s i) c d →
      ChannelMay (axisCfg s i) c (followSegment u i g clock d) := fun u g clock d hu hd => by
    have hcfg : axisCfg u i = axisCfg s i := by rw [axisCfg, axisCfg, hu]
    exact hd.trans (hcfg ▸ channelMay_followSegment u i g clock d)
  simp only [followStep]
  split
  · refine (hstep _ _ _ _ ?_ hfollow).trans (channelMay_of_eq Iff.rfl rfl rfl)
    split <;> simp
  · split
    · exact hstep _ _ _ _ rfl hfollow
    · exact hfollow.trans (channelMay_limited _ _ _)

theorem channelMay_gotoStep (s : State) (i : Axis) (enc : Option Int) (holdFirst : Bool) {c : AxisChannel}
    (hc : c.state ≠ .disabled) : ChannelMay (axisCfg s i) c (gotoStep s i enc holdFirst c).ch := by
  simp only [gotoStep]
  split
  · exact channelMay_enterRest _ hc
  · exact channelMay_rested _ (channelMay_followSegment s i _ _ c) hc

theorem channelMay_rejoinStep (s : State) (i : Axis) {c : AxisChannel} (hc : c.state ≠ .disabled) :
    ChannelMay (axisCfg s i) c (rejoinStep s i c).ch := by
  simp only [rejoinStep]
  split
  · exact channelMay_followStep s i hc
  · split
    · exact channelMay_followStep s i hc
    · exact channelMay_followSegment s i _ _ c

theorem channelMay_trackOrStep {a : AxisConfig} {c d : AxisChannel} {p : Prop} [Decidable p] (enc : Option Int)
    (h : ChannelMay a c d) : ChannelMay a c (if p then tracked a enc c else d) := by
  split
  · exact channelMay_tracked a enc c
  · exact h

theorem channelMay_setpointStage (s : State) (i : Axis) (enc : Option Int) (holdFirst : Bool) (c : AxisChannel) :
    ChannelMay (axisCfg s i) c (setpointStage s i enc holdFirst c).ch := by
  cases hst : c.state with
  | disabled => simpa [setpointStage, hst, plainResult] using channelMay_refl _ c
  | rest =>
    simp only [setpointStage, hst, plainResult]
    exact channelMay_trackOrStep enc (channelMay_limited _ _ c)
  | jog =>
    simp only [setpointStage, hst, plainResult]
    exact channelMay_rested _ (channelMay_limited _ _ c) (by simp [hst])
  | goto =>
    simp only [setpointStage, hst]
    exact channelMay_gotoStep s i enc holdFirst (by simp [hst])
  | follow =>
    simp only [setpointStage, hst]
    exact channelMay_followStep s i (by simp [hst])
  | override =>
    simp only [setpointStage, hst, plainResult]
    exact channelMay_limited _ _ c
  | rejoin =>
    simp only [setpointStage, hst]
    exact channelMay_rejoinStep s i (by simp [hst])
  | braking =>
    simp only [setpointStage, hst, plainResult, endBraking]
    exact channelMay_rested _ (channelMay_trackOrStep enc (channelMay_brake _ c)) (by simp [hst])
  | severed =>
    simp only [setpointStage, hst, plainResult]
    exact channelMay_tracked _ enc c
  | fault =>
    simp only [setpointStage, hst, plainResult]
    exact channelMay_tracked _ enc c

/-! ### The servo update: its stages (R31 to R35, R46) -/

theorem keeps_checkArrivals (s : State) : Keeps s (checkArrivals s) := by
  refine .ite (fun _ => .refl s) fun _ => ?_
  split
  · next hm => exact keeps_setMode_only (by rw [hm]; rfl) (by simp)
  · next hm => exact (keeps_setMode_only (by rw [modContext, setTc_tc, hm]; rfl) (by simp)).after (keeps_modContext _ s)
  · exact .refl s

theorem keeps_reportArrival (i : Axis) (c : AxisChannel) (s : State) : Keeps s (reportArrival i c s) :=
  .ite (fun _ => (keeps_checkArrivals _).after (keeps_setTc rfl rfl)) fun _ => .refl s

theorem keeps_reportClamp (c : AxisChannel) (s : State) : Keeps s (reportClamp c s) :=
  .ite (fun _ => keeps_setPu_same rfl rfl rfl rfl) fun _ => .refl s

theorem channelMay_output (a : AxisConfig) (s : State) (i : Axis) (b : Bool) (c : AxisChannel) :
    ChannelMay a c (outputStage s i b c) := channelMay_of_eq Iff.rfl rfl rfl

theorem keeps_finishUpdate (i : Axis) (enc : Option Int) (holdFirst : Bool) (s : State) :
    Keeps s (finishUpdate i enc holdFirst s) := by
  have hstage := channelMay_setpointStage s i enc holdFirst (axisCh s i)
  simp only [finishUpdate]
  generalize setpointStage s i enc holdFirst (axisCh s i) = r at hstage ⊢
  have hfront : Keeps s (if r.begun then changeover i s else s) := .ite (fun _ => keeps_changeover i s) fun _ => .refl s
  have hsame : (if r.begun then changeover i s else s).cl = s.cl ∧ (if r.begun then changeover i s else s).ax = s.ax := by
    split <;> simp
  generalize (if r.begun then changeover i s else s) = u at hfront hsame ⊢
  obtain ⟨hcl, hax⟩ := hsame
  have hset : Keeps s (setChannel i (outputStage u i r.lensClamped r.ch) u) := by
    refine hfront.trans (keeps_setChannel fun _ => ?_)
    rw [axisCfg, axisCh, hcl, hax]
    exact hstage.trans (channelMay_output _ _ _ _ _)
  exact (Keeps.ite (fun _ => keeps_reportArrival _ _ _) fun _ => .refl _).after ((keeps_reportClamp _ _).after hset)

theorem keeps_enterFault {i : Axis} {s : State} (follow : Bool) (hs : (axisCh s i).state ≠ .disabled) :
    Keeps s (enterFault i follow s) := by
  have hset : Keeps s (setChannel i (faultChannel follow (axisCh s i)) s) :=
    keeps_setChannel fun _ => channelMay_of_stop (by simp [faultChannel, offPath, hs]) rfl rfl
  have hpunch := hset.trans (Keeps.ite (p := punchedState (axisCh s i).state = true)
    (fun _ => keeps_endPunch i _) fun _ => .refl _)
  exact .ite (fun _ => hpunch.trans (keeps_raiseKey (by simp) (by simp) (by simp) _))
    fun _ => hpunch.trans (keeps_raiseKey (by simp) (by simp) (by simp) _)

theorem keeps_checkStages {i : Axis} {s : State} (enc : Option Int) (hs : (axisCh s i).state ≠ .disabled) :
    Keeps s (checkStages i enc s) := by
  simp only [checkStages]
  generalize hd : { takeEncoder (axisCfg s i) enc (axisCh s i) with
    followCount := followAfter (axisCfg s i) s.su.driveLatch (axisCh s i) enc } = d
  have hmay : ChannelMay (axisCfg s i) (axisCh s i) d := hd ▸ channelMay_of_eq Iff.rfl rfl rfl
  have hset : Keeps s (s.setAx { s.ax with ch := s.ax.ch.set i d }) := keeps_setCh rfl fun _ => hmay
  have hstate : (axisCh (s.setAx { s.ax with ch := s.ax.ch.set i d }) i).state ≠ .disabled := by
    simpa [axisCh] using fun h => hs (hmay.disabled.mp h)
  exact .ite (fun _ => hset.trans (keeps_enterFault _ hstate)) fun _ =>
    .ite (fun _ => hset.trans (keeps_enterFault _ hstate)) fun _ => hset

theorem keeps_updateAxis {i : Axis} {s : State} (words : List (BitVec 40)) (holdFirst : Bool)
    (hu : updates s i = true) : Keeps s (updateAxis i words holdFirst s) := by
  have hs : (axisCh s i).state ≠ .disabled := by simpa [updates] using (Bool.and_eq_true_iff.mp hu).2
  exact (keeps_finishUpdate _ _ _ _).after (keeps_checkStages _ hs)

theorem keeps_servoUpdate (i : Axis) (words : List (BitVec 40)) (holdFirst : Bool) (s : State) :
    Keeps s (servoUpdateEffect i words holdFirst s) :=
  .ite (fun h => keeps_updateAxis words holdFirst h) fun _ => .refl s

theorem keeps_followingFault (i : Axis) (words : List (BitVec 40)) (s : State) :
    Keeps s (followingFaultEffect i words s) := .ite (fun h => keeps_updateAxis words false h.1) fun _ => .refl s

theorem keeps_encoderFault (i : Axis) (words : List (BitVec 40)) (s : State) :
    Keeps s (encoderFaultEffect i words s) := .ite (fun h => keeps_updateAxis words false h.1) fun _ => .refl s

/-! ### The pace step (R111 to R116, R130, R141 to R147) -/

theorem localCeiling_le (s : State) : localCeiling s ≤ 1024 := by
  simp only [localCeiling]
  split
  · exact Nat.zero_le _
  · exact Nat.min_le_left _ _

theorem rateTarget_le (s : State) : rateTarget s ≤ 1024 := by
  simp only [rateTarget]
  split
  · exact Nat.zero_le _
  · exact (Nat.min_le_left _ _).trans (localCeiling_le s)

theorem moveTarget_le (s : State) : moveTarget s ≤ 1024 := by
  simp only [moveTarget]
  split
  · exact Nat.zero_le _
  · exact Nat.min_le_left _ _

theorem slew_le (cfg : NodeConfig) {rate target : Nat} (hr : rate ≤ 1024) (ht : target ≤ 1024) :
    slew cfg rate target ≤ 1024 := by
  simp only [slew]
  split <;> omega

theorem stepRate_le {s : State} (h : s.pu.r ≤ 1024) : stepRate s ≤ 1024 := by
  simp only [stepRate]
  split
  · split
    · exact Nat.zero_le _
    · exact slew_le _ h (rateTarget_le s)
  · exact Nat.le_refl _
  · exact Nat.zero_le _

theorem strainAfter_bounds (reported : Bool) {k : Nat} (h : 128 ≤ k ∧ k ≤ 1024) :
    128 ≤ strainAfter reported k ∧ strainAfter reported k ≤ 1024 := by
  simp only [strainAfter]
  split <;> omega

/-- The path rate after the advance: that of the step, or 0 at a hold point. -/
theorem advanceTake_r (r period : Nat) (hold : Option TakeTime) (pu : PaceUnit) :
    (advanceTake r period hold pu).r = r ∨ (advanceTake r period hold pu).r = 0 ∧ hold ≠ none := by
  simp only [advanceTake]
  generalize (if r = 0 then (0, pu.slices) else sliceAdvance (r * period) pu.slices) = a
  split
  · split
    · exact .inr ⟨rfl, by simp⟩
    · exact .inl rfl
  · exact .inl rfl

theorem advanceTake_ceilings (r period : Nat) (hold : Option TakeTime) (pu : PaceUnit) :
    (advanceTake r period hold pu).rm = pu.rm ∧ (advanceTake r period hold pu).master = pu.master ∧
      (advanceTake r period hold pu).strain = pu.strain := by
  simp only [advanceTake]
  generalize (if r = 0 then (0, pu.slices) else sliceAdvance (r * period) pu.slices) = a
  split
  · split <;> exact ⟨rfl, rfl, rfl⟩
  · exact ⟨rfl, rfl, rfl⟩

theorem keeps_reform (changed : Bool) (s : State) : Keeps s (reform changed s) :=
  .ite (fun _ => keeps_announce s) fun _ => .refl s

theorem keeps_updateCeilings (cueLow : Bool) (s : State) : Keeps s (updateCeilings cueLow s) := by
  have hterm : ∀ (fd : Feeder), fd.queue = s.fd.queue → ∀ b n, Keeps s
      (reform b ((s.setFd fd).setPu { (s.setFd fd).pu with cueTerm := n })) := fun fd hq b n =>
    (keeps_reform _ _).after (Keeps.trans (keeps_setFd fun h => by rwa [hq])
      (keeps_setPu_same rfl rfl rfl rfl))
  have hstrain : ∀ (u : State) b b', Keeps u
      (reform b (u.setPu { u.pu with strain := strainAfter b' u.pu.strain, clampReport := false })) := fun u b b' => by
    refine (keeps_reform _ _).after (keeps_setPu (fun h => ?_) fun h => ?_)
    · exact ⟨h.path, h.move, h.master, strainAfter_bounds b' h.strain, h.guard⟩
    · exact ⟨h.path, h.move, h.master, strainAfter_bounds b' h.strain, h.guard, h.recording, h.standing⟩
  simp only [updateCeilings]
  exact (hstrain _ _ _).after (hterm { s.fd with
    cueLow := if s.cl.cfg.cueMode = .none then s.fd.cueLow else cueLow } rfl _ _)

theorem keeps_publishClocks (cueLow : Bool) (s : State) : Keeps s (publishClocks cueLow s) := by
  have hfront := keeps_updateCeilings cueLow s
  simp only [publishClocks]
  generalize updateCeilings cueLow s = u at hfront ⊢
  generalize hhold : (if inPlay u.tc.mode then holdPoint u.fd else none) = hold
  obtain ⟨hrm, hmaster, hstrain⟩ := advanceTake_ceilings (stepRate u) u.cl.cfg.servoPeriod hold u.pu
  have hr := advanceTake_r (stepRate u) u.cl.cfg.servoPeriod hold u.pu
  generalize advanceTake (stepRate u) u.cl.cfg.servoPeriod hold u.pu = pu at hrm hmaster hstrain hr ⊢
  have hbound : RatesBound u → RatesBound (u.setPu (advanceMove u.cl.cfg (moveTarget u) pu)) := fun h => by
    have hpath : pu.r ≤ 1024 := by
      rcases hr with hr | ⟨hr, -⟩
      · exact hr ▸ stepRate_le h.path
      · omega
    exact ⟨hpath, slew_le _ (hrm ▸ h.move) (moveTarget_le u), hmaster.symm ▸ h.master, hstrain.symm ▸ h.strain, h.guard⟩
  refine hfront.trans (keeps_setPu hbound fun h => ?_)
  obtain ⟨h1, h2, h3, h4, h5⟩ := hbound h.bound
  refine ⟨h1, h2, h3, h4, h5, fun hm => ?_, fun hp hrec => ?_⟩
  · have hm : u.tc.mode = .recording := hm
    rcases hr with hr | ⟨-, hne⟩
    · exact hr.trans (by simp [stepRate, hm])
    · exact absurd (hhold.symm.trans (by simp [hm, inPlay])) hne
  · have hzero : stepRate u = 0 := by
      simp only [stepRate]
      split
      · exact absurd ‹_› hp
      · exact absurd ‹_› hrec
      · rfl
    rcases hr with hr | ⟨hr, -⟩
    · exact hr.trans hzero
    · exact hr

theorem keeps_reportZeroRate (published : Bool) (s : State) : Keeps s (reportZeroRate published s) :=
  .ite (fun h => .ite (fun _ => keeps_returnToIdle s) fun _ =>
    .ite (fun _ => keeps_setMode_only (by rw [h.2]; rfl) (by simp)) fun _ => .refl s) fun _ => .refl s

/-- A recording is closed, the store being whole. -/
theorem keeps_closeRecording {s : State} {ts : TakeStore} (n : Nat) (slot : Slot) (cause : EndCause)
    (hb : BlocksInv s.ts → BlocksShared ts ∧ ∀ k, k ≠ slot → (ts.dir.get k).state = .empty → (ts.dir.get k).blocks = [])
    (hp : Pool.wf s.ts.pool → Pool.wf ts.pool) : Keeps s (s.setTs (closeRecording n slot cause ts)) :=
  keeps_setTs (fun h => closeRecording_blocks (hb h).1 (hb h).2 n cause)
    fun h => closeRecording_poolWf (hp h) n slot cause

theorem keeps_recordPublication (s : State) : Keeps s (recordPublication s) := by
  simp only [recordPublication]
  split
  · exact .refl s
  · next c _ =>
    split
    · next h =>
      split
      · next ts hts =>
        refine keeps_setTs (fun hb => sampleKeyframe_blocks hb ?_ hts) fun hp => ?_
        · have hstate : (s.ts.dir.get c.take).state = .recording := h.2.2.1
          simp [hstate]
        · rwa [sampleKeyframe_pool hts]
      · exact (keeps_returnToIdle _).after (keeps_closeRecording _ _ _ (fun hb => ⟨hb.shared, fun k _ => hb.empty k⟩) id)
    · exact .refl s

theorem keeps_publish (s : State) : Keeps s (publish s) :=
  (keeps_recordPublication _).after (keeps_takePublication _ s)

theorem keeps_earlyUpdates (us : List EarlyUpdate) (s : State) : Keeps s (earlyUpdates us s) := by
  have hstep : ∀ u (x : EarlyUpdate), Keeps u (servoUpdateEffect x.axis x.encoderWords x.holdEndFirst u) := fun u _ =>
    keeps_servoUpdate _ _ _ u
  exact Keeps.foldl hstep us s

theorem keeps_paceStep (cueLow : Bool) (order : PaceOrder) (s : State) : Keeps s (paceStepEffect cueLow order s) := by
  have hclocks := (keeps_publishClocks cueLow s).trans (keeps_earlyUpdates order.updates _)
  exact .ite (fun _ => .ite (fun _ => (keeps_publish _).after ((keeps_reportZeroRate _ _).after hclocks))
    fun _ => (keeps_reportZeroRate _ _).after ((keeps_publish _).after hclocks)) fun _ => .refl s

theorem keeps_pacePeriodExpiry (s : State) : Keeps s (pacePeriodExpiryEffect s) :=
  .ite (fun _ => keeps_handPace s) fun _ => .refl s

theorem keeps_resume (s : State) : Keeps s (resumeEffect s) := by
  refine keeps_withCommand (fun c _ u => ?_) s
  refine .ite (fun _ => keeps_refuse _ _ u) fun hm => .ite (fun _ => keeps_refuse _ _ u) fun _ =>
    (keeps_answerDone c _).after ?_
  exact keeps_setMode_only (by rw [not_not.mp hm]; rfl) (by simp)

theorem keeps_masterRate (s : State) : Keeps s (masterRateEffect s) := by
  refine keeps_withCommand (fun c v u => (keeps_answerClamped _ _ _).after ((keeps_announce _).after ?_)) s
  exact keeps_setPu (fun h => ⟨h.path, h.move, Nat.min_le_left _ _, h.strain, h.guard⟩)
    fun h => ⟨h.path, h.move, Nat.min_le_left _ _, h.strain, h.guard, h.recording, h.standing⟩

theorem keeps_alignmentWindowEnd (s : State) : Keeps s (alignmentWindowEndEffect s) := by
  have hpu : ∀ pu : PaceUnit, pu.r = s.pu.r → pu.rm = s.pu.rm → pu.master = s.pu.master → pu.strain = s.pu.strain →
      Keeps s (s.setPu pu) := fun pu => keeps_setPu_same
  refine .ite (fun _ => .ite (fun _ => hpu _ rfl rfl rfl rfl) fun _ => .ite (fun _ => ?_) fun _ => ?_) fun _ => .refl s
  · exact (keeps_setCounters _ _).after (hpu _ rfl rfl rfl rfl)
  · dsimp only
    split
    · exact hpu _ rfl rfl rfl rfl
    · exact hpu _ rfl rfl rfl rfl

theorem captureMarker_rates (seq : BitVec 16) (pu : PaceUnit) :
    (captureMarker seq pu).r = pu.r ∧ (captureMarker seq pu).rm = pu.rm ∧ (captureMarker seq pu).master = pu.master ∧
      (captureMarker seq pu).strain = pu.strain := by
  simp only [captureMarker]
  split <;> exact ⟨rfl, rfl, rfl, rfl⟩

theorem keeps_captureMarker (seq : BitVec 16) (s : State) : Keeps s (s.setPu (captureMarker seq s.pu)) := by
  obtain ⟨hr, hrm, hm, hk⟩ := captureMarker_rates seq s.pu
  exact keeps_setPu_same hr hrm hm hk

theorem keeps_markerEdge (s : State) : Keeps s (markerEdgeEffect s) := by
  have hlow : Keeps s (s.setPu { s.pu with markLow := true }) := keeps_setPu_same rfl rfl rfl rfl
  refine .ite (fun _ => hlow.trans ?_) fun _ => .refl s
  dsimp only
  split
  · exact keeps_captureMarker _ _
  · exact keeps_captureMarker _ _
  · exact .refl _

theorem keeps_queryMarker (s : State) : Keeps s (queryMarkerEffect s) := by
  refine keeps_withCommand (fun c _ u => (keeps_handOver _ _).after ?_) s
  exact keeps_setPu_same rfl rfl rfl rfl

/-! ### The peer table (chapter 2) -/

theorem keeps_setPeer (n : Station) (e : PeerEntry) (s : State) : Keeps s (setPeer n e s) := keeps_setPt s _

theorem keeps_pace (s : State) : Keeps s (paceEffect s) := by
  simp only [paceEffect]
  split
  · next e u htake =>
    split
    · refine (keeps_takeOffer htake).trans (Keeps.trans (keeps_setPeer _ _ u) (.ite (fun _ => ?_) fun _ => .refl _))
      exact keeps_setPu_same rfl rfl rfl rfl
    · exact keeps_takeOffer htake
  · exact .refl s

theorem keeps_peerTakesState (n : Station) (f : StateFields) (s : State) : Keeps s (peerTakesState n f s) := by
  simp only [peerTakesState]
  split
  · exact keeps_setCounters s _
  · exact .ite (fun _ => .refl s) fun _ => keeps_setPeer _ _ s

theorem keeps_stopTakes (e : RxEntry) (cls : BitVec 2) (time : TakeTime) (flag : Bool) (s : State) :
    Keeps s (stopTakes e cls time flag s) := .ite (fun _ => keeps_writeStopEntry _ _ _ s) fun _ => .refl s

theorem keeps_examineMismatch (s : State) : Keeps s (examineMismatch s) := by
  simp only [examineMismatch]
  split
  · exact .refl s
  · exact .ite (fun _ => keeps_raiseKey (by simp) (fun _ => rfl) (by simp) s) fun _ => .refl s

theorem keeps_state (s : State) : Keeps s (stateEffect s) := by
  simp only [stateEffect]
  split
  · next e u htake =>
    split
    · exact (Keeps.ite (fun _ => keeps_examineMismatch _) fun _ => .refl _).after
        ((keeps_stopTakes _ _ _ _ _).after ((keeps_peerTakesState _ _ _).after (keeps_takeOffer htake)))
    · exact keeps_takeOffer htake
  · exact .refl s

theorem keeps_releaseAxesOf (n : Station) (s : State) : Keeps s (releaseAxesOf n s) :=
  Keeps.foldl (fun u i => .ite (fun _ => keeps_releaseAxis i u) fun _ => .refl u) allAxes s

theorem keeps_bulkSilent (n : Station) (s : State) : Keeps s (bulkSilent n s) := by
  simp only [bulkSilent]
  split
  · exact .ite (fun _ => keeps_abandonBulk s) fun _ => .refl s
  · exact .ite (fun _ => keeps_abandonBulk s) fun _ => .refl s
  · exact .refl s

theorem keeps_stopTakesSilence (n : Station) (watched : Bool) (s : State) : Keeps s (stopTakesSilence n watched s) :=
  .ite (fun _ => keeps_raiseKey (by simp) (by simp) (by simp) s) fun _ => .refl s

theorem keeps_takeControllerTakesSilence (n : Station) (s : State) : Keeps s (takeControllerTakesSilence n s) :=
  .ite (fun h => keeps_cancelRoll _ h.1) fun _ => .refl s

theorem keeps_silenceExpiry (n : Station) (takeControllerFirst axesFirst : Bool) (s : State) :
    Keeps s (silenceExpiryEffect n takeControllerFirst axesFirst s) := by
  refine .ite (fun _ => ?_) fun _ => .refl s
  have hfront := (Keeps.ite (p := axesFirst = true) (fun _ => keeps_releaseAxesOf n _) fun _ => .refl _).after
    (keeps_setPeer n { peer s n with liveness := .silent, silence := none } s)
  have hbulk := hfront.trans (keeps_bulkSilent n _)
  refine Keeps.trans (Keeps.ite (fun _ => ?_) fun _ => ?_)
    (.ite (fun _ => .refl _) fun _ => keeps_releaseAxesOf n _)
  · exact (keeps_stopTakesSilence n _ _).after ((keeps_takeControllerTakesSilence n _).after hbulk)
  · exact (keeps_takeControllerTakesSilence n _).after ((keeps_stopTakesSilence n _ _).after hbulk)

theorem keeps_statePeriodExpiry (s : State) : Keeps s (statePeriodExpiryEffect s) :=
  .ite (fun _ => keeps_handState s) fun _ => .refl s

theorem keeps_mismatchGraceEnd (s : State) : Keeps s (mismatchGraceEndEffect s) := by
  simp only [mismatchGraceEndEffect]
  split
  · exact (keeps_examineMismatch _).after (keeps_setTc rfl rfl)
  · exact .refl s

/-! ### Punches (chapter 12) -/

/-- A check that passes goes on to the next one. -/
theorem ok_of_ite {ε α : Type} {p : Prop} [Decidable p] {e : ε} {x : Except ε α} {a : α}
    (h : (if p then .error e else x) = .ok a) : ¬ p ∧ x = .ok a := by
  split at h
  · cases h
  · exact ⟨‹_›, h⟩

theorem punchInCheck_follow {number : Nat} {s : State} {i : Axis} (h : punchInCheck number s = .ok i) :
    (axisCh s i).state = .follow := by
  rw [punchInCheck] at h
  obtain ⟨-, h⟩ := ok_of_ite h
  cases hi : namedAxis s number with
  | none =>
    rw [hi] at h
    cases h
  | some j =>
    rw [hi] at h
    obtain ⟨hfollow, h⟩ := ok_of_ite h
    obtain ⟨-, h⟩ := ok_of_ite h
    obtain ⟨-, h⟩ := ok_of_ite h
    exact Except.ok.inj h ▸ not_not.mp hfollow

theorem keeps_punchIn {sender : Station} {i : Axis} {writing : Bool} {s : State}
    (hs : (axisCh s i).state = .follow) : Keeps s (punchIn sender i writing s) := by
  have hset : Keeps s (setChannel i
      { axisCh s i with state := .override, ctrl := .console sender, demand := 0, jogTimer := none } s) :=
    keeps_setChannel fun _ => channelMay_of_eq (by simp [hs]) rfl rfl
  exact hset.trans (keeps_setAx_same rfl)

theorem keeps_punchInEffect (s : State) : Keeps s (punchInEffect s) := by
  refine keeps_withCommand (fun c x u => ?_) s
  dsimp only
  split
  · exact keeps_refuseWith _ _ _ u
  · next h => exact (keeps_answer _ _ _ _).after (keeps_punchIn (punchInCheck_follow h))

theorem keeps_punchOut (s : State) : Keeps s (punchOutEffect s) := by
  refine keeps_withCommand (fun c number u => ?_) s
  refine .ite (fun _ => keeps_refuse _ _ u) fun _ => ?_
  split
  · exact keeps_refuseWith _ _ _ u
  · refine .ite (fun _ => keeps_refuse _ _ u) fun h => (keeps_answerDone c _).after (keeps_punchOutAxis ?_)
    simp only [not_or, not_not] at h
    exact h.2.1

theorem keeps_writeFirstSample (x : PunchSample) (rest : List PunchSample) (s : State) :
    Keeps s (writeFirstSample x rest s) := by
  have hleaves : Keeps s (s.setAx { s.ax with samples := rest }) := keeps_setAx_same rfl
  simp only [writeFirstSample]
  split
  · exact hleaves
  · next p _ =>
    refine .ite (fun _ => Keeps.trans (hleaves.trans ?_) (keeps_setAx_same rfl)) fun _ => hleaves
    exact keeps_setTs (fun h => writeSample_blocks h p x) fun h => writeSample_poolWf h p x

theorem keeps_punchWrite (s : State) : Keeps s (punchWriteEffect s) := by
  refine .ite (fun _ => ?_) fun _ => .refl s
  split
  · exact .refl s
  · exact (keeps_settlePunches _).after (keeps_writeFirstSample _ _ s)

end Sys2Proof.Machine
end


section
/-! PROOFS. The take store's, the take controller's and the stop unit's commands and the resets keep what every step
keeps; every step keeps it (O56 to O60), and it holds at reset (O54). -/

namespace Sys2Proof.Machine

/-! ### Lens maps (R74 to R76) -/

-- In place, so that the parts of the text are elaborated one after the other and not all at once.
set_option Elab.async false in
theorem keeps_lensPoint (s : State) : Keeps s (lensPointEffect s) := by
  refine keeps_withCommand (fun c x u => ?_) s
  dsimp only
  split
  · exact keeps_refuseWith _ _ _ u
  · refine .ite (fun _ => keeps_refuseWith _ _ _ u) fun _ => ?_
    split
    · exact (keeps_answerClamped _ _ _).after (keeps_setLmu u _)
    · exact keeps_refuseWith _ _ _ u

theorem keeps_lensCommit (s : State) : Keeps s (lensCommitEffect s) := by
  refine keeps_withCommand (fun c x u => ?_) s
  dsimp only
  split
  · exact keeps_refuseWith _ _ _ u
  · refine .ite (fun _ => keeps_refuseWith _ _ _ u) fun _ => ?_
    split
    · exact keeps_refuseWith _ _ _ u
    · exact (keeps_answer _ _ _ _).after (keeps_setLmu u _)

/-! ### Edits of takes (R90 to R94) -/

theorem keeps_edit {s : State} (slot : Slot) {f : TakeEntry → TakeEntry} (hb : ∀ e, (f e).blocks = e.blocks)
    (hs : ∀ e, (f e).state = e.state) : Keeps s (s.setTs (editEntry slot f s.ts)) :=
  keeps_setTs (fun h => editEntry_blocks h slot hb hs) id

theorem keeps_mark (s : State) : Keeps s (markEffect s) := by
  refine keeps_withCommand (fun c x u => ?_) s
  split
  · exact keeps_refuse _ _ u
  · split
    · split
      · exact keeps_refuseWith _ _ _ u
      · exact (keeps_answerDone c _).after (keeps_edit _ (fun _ => rfl) fun _ => rfl)
    · exact keeps_refuseWith _ _ _ u

theorem keeps_unmark (s : State) : Keeps s (unmarkEffect s) := by
  refine keeps_withCommand (fun c x u => ?_) s
  split
  · exact keeps_refuse _ _ u
  · split
    · exact .ite (fun _ => keeps_answerDone c u) fun _ =>
        (keeps_answerDone c _).after (keeps_edit _ (fun _ => rfl) fun _ => rfl)
    · exact keeps_refuseWith _ _ _ u

theorem keeps_cuePoints (s : State) : Keeps s (cuePointsEffect s) := by
  refine keeps_withCommand (fun c x u => ?_) s
  split
  · exact keeps_refuse _ _ u
  · split
    · exact keeps_refuseWith _ _ _ u
    · exact (keeps_answerDone c _).after (keeps_edit _ (fun _ => rfl) fun _ => rfl)

theorem keeps_trim (s : State) : Keeps s (trimEffect s) := by
  refine keeps_withCommand (fun c x u => ?_) s
  dsimp only
  split
  · exact keeps_refuse _ _ u
  · refine .ite (fun _ => keeps_refuseWith _ _ _ u) fun _ => ?_
    split
    · exact keeps_refuseWith _ _ _ u
    · exact (keeps_answerDone c _).after
        (keeps_setTs (fun h => trimTake_blocks h _ _ _) fun h => trimTake_poolWf h _ _ _)

theorem keeps_delete (s : State) : Keeps s (deleteEffect s) := by
  refine keeps_withCommand (fun c number u => ?_) s
  split
  · exact keeps_refuse _ _ u
  · exact (keeps_answerDone c _).after (keeps_setTs (fun h => emptyEntry_blocks h _) id)

theorem keeps_queryDirectory (s : State) : Keeps s (queryDirectoryEffect s) := by
  refine keeps_withCommand (fun c low u => ?_) s
  split
  · exact keeps_refuse _ _ u
  · exact keeps_handOver _ u

/-! ### Bulk transfers (R96, R97) -/

/-- The store's bulk transfer changes alone. -/
theorem keeps_setBulk (s : State) (b : BulkTransfer) : Keeps s (s.setTs { s.ts with bulk := b }) :=
  keeps_setTs (fun h => h.of_eq rfl rfl) id

theorem keeps_openReadOut (slot : Slot) (console : Station) (first n : Nat) (s : State) :
    Keeps s (openReadOut slot console first n s) := .ite (fun _ => keeps_setBulk s _) fun _ => .refl s

theorem keeps_takeRead (s : State) : Keeps s (takeReadEffect s) := by
  refine keeps_withCommand (fun c x u => .ite (fun _ => keeps_refuse _ _ u) fun _ => ?_) s
  split
  · exact keeps_refuse _ _ u
  · exact .ite (fun _ => keeps_refuse _ _ u) fun _ =>
      (keeps_openReadOut _ _ _ _ _).after (keeps_answerClamped _ _ u)

theorem keeps_readoutFetch (s : State) : Keeps s (readoutFetchEffect s) := by
  simp only [readoutFetchEffect]
  split
  · refine .ite (fun _ => ?_) fun _ => .refl s
    exact .ite (fun _ => (keeps_handOver _ _).after (keeps_setBulk s _)) fun _ => keeps_setBulk s _
  · exact .refl s

theorem keeps_readoutReoffer (s : State) : Keeps s (readoutReofferEffect s) := by
  simp only [readoutReofferEffect]
  split
  · exact .ite (fun _ => (keeps_handOver _ _).after (keeps_setBulk s _)) fun _ => .refl s
  · exact .refl s

theorem keeps_takeLoadBegin (s : State) : Keeps s (takeLoadBeginEffect s) := by
  refine keeps_withCommand (fun c x u => ?_) s
  refine .ite (fun _ => keeps_refuse _ _ u) fun _ => ?_
  split
  · exact keeps_refuse _ _ u
  · refine .ite (fun _ => keeps_refuse _ _ u) fun hempty => .ite (fun _ => keeps_refuseWith _ _ _ u) fun _ =>
      .ite (fun _ => keeps_refuse _ _ u) fun _ => (keeps_answerClamped _ _ _).after (keeps_setTs (fun h => ?_) fun h => ?_)
    · exact openLoad_blocks h (not_not.mp hempty) _ _ _ _ _
    · simpa [openLoad, allocateBlocks_pool] using h

theorem keeps_loadKeyframe (sender : Station) (f : KeyframeFields) (s : State) :
    Keeps s (loadKeyframe sender f s) := by
  simp only [loadKeyframe]
  split
  · next slot _ _ _ =>
    refine .ite (fun _ => ?_) fun _ => .refl s
    generalize (Table.ofFn fun i => loadField s i (f.axes.get i)) = kf
    obtain ⟨pool, heq⟩ := writeKeyframe_eq slot f.index.toNat kf s.ts
    refine keeps_setTs (fun h => ?_) fun h => writeKeyframe_poolWf h _ _ _
    rw [heq]
    exact h.of_eq rfl rfl
  · exact .refl s

theorem keeps_keyframeData (s : State) : Keeps s (keyframeDataEffect s) := by
  simp only [keyframeDataEffect]
  split
  · next e u htake =>
    split
    · exact (keeps_loadKeyframe _ _ _).after (keeps_takeOffer htake)
    · exact keeps_takeOffer htake
  · exact .refl s

theorem keeps_takeLoadEnd (s : State) : Keeps s (takeLoadEndEffect s) := by
  refine keeps_withCommand (fun c number u => ?_) s
  split
  · refine .ite (fun _ => keeps_refuseWith _ _ _ u) fun _ => ?_
    split
    · exact keeps_refuseWith _ _ _ u
    · exact (keeps_answerDone c _).after (keeps_setTs (fun h => storeLoad_blocks h _) id)
  · exact keeps_refuseWith _ _ _ u

/-! ### The recorder and the taint (R85 to R89) -/

theorem keeps_recorderWrite (s : State) : Keeps s (recorderWriteEffect s) := by
  simp only [recorderWriteEffect]
  split
  · next c x rest _ _ =>
    refine .ite (fun _ => ?_) fun _ => .refl s
    obtain ⟨pool, heq⟩ := recordSample_eq s.cl.cfg.axisCount c.take x s.ts
    refine keeps_setTs (fun h => ?_) fun h => recordSample_poolWf h _ _ _
    rw [heq]
    exact h.of_eq rfl rfl
  · exact .refl s

theorem keeps_taint (s : State) : Keeps s (taintEffect s) := by
  simp only [taintEffect]
  split
  · exact .ite (fun _ => (keeps_returnToIdle _).after
      (keeps_setTs (fun h => taintRecording_blocks h _ _ _ _) fun h => taintRecording_poolWf h _ _ _ _)) fun _ => .refl s
  · exact .refl s

/-! ### ARM-RECORD and CUE (R84, R102 to R104) -/

/-- The play context is made, and the mode becomes one that has it. -/
theorem keeps_enterPlay {s : State} {m : Mode} (c : PlayContext) (hm : contextFree m = false) (hr : m ≠ .recording) :
    Keeps s (setMode m (s.setTc { s.tc with ctx := some c })) :=
  keeps_setMode (core_setTc s _) (fun _ => hm.symm) (fun h => absurd h hr) id

theorem keeps_armRecord (s : State) : Keeps s (armRecordEffect s) := by
  refine keeps_withEarly (fun c x u v hv => ?_) (fun c x u => ?_) s
  · dsimp only at hv
    split at hv
    · cases hv
    · exact Option.some.inj hv ▸ .refl u
  · dsimp only
    split
    · exact keeps_refuseWith _ _ _ u
    · refine (keeps_answerClamped _ _ _).after (Keeps.trans ?_ (keeps_enterPlay _ rfl (by simp)))
      exact keeps_setTs (fun h => armSlot_blocks h _ _ _ _) fun h => by rwa [armSlot_pool]

theorem keeps_cueTake (slot : Slot) (mode : CueMode) (start duration : Nat) (s : State) :
    Keeps s (cueTake slot mode start duration s) :=
  (keeps_checkArrivals _).after ((keeps_positionToPose _ _ _).after (keeps_enterPlay _ rfl (by simp)))

theorem keeps_checkCue (c : Command) (number : Nat) (stamp : BitVec 32) (mode : CueMode) (point : Option Nat)
    (duration : Nat) (s : State) : Keeps s (checkCue c number stamp mode point duration s) := by
  simp only [checkCue]
  split
  · exact keeps_refuseWith _ _ _ s
  · exact (keeps_answerClamped _ _ _).after (keeps_cueTake _ _ _ _ s)

theorem keeps_setCues (s : State) (l : List WaitingCue) : Keeps s (s.setTc { s.tc with cues := l }) :=
  keeps_setTc rfl rfl

theorem keeps_grantCue (s : State) : Keeps s (grantCue s) := by
  simp only [grantCue]
  split
  · exact .refl s
  · exact .ite (fun _ => (keeps_checkCue _ _ _ _ _ _ _).after (keeps_setCues s _)) fun _ => .refl s

theorem keeps_cue (s : State) : Keeps s (cueEffect s) := by
  refine .ite (fun _ => keeps_grantCue s) fun _ => keeps_withEarly (fun c x u v hv => ?_) (fun c x u => ?_) s
  · split at hv
    · exact Option.some.inj hv ▸ .refl u
    · cases hv
  · exact .ite (fun _ => keeps_setCues u _) fun _ => keeps_checkCue _ _ _ _ _ _ u

/-! ### WRAP (R88, R111) -/

theorem keeps_wrapRecording (c : PlayContext) (s : State) : Keeps s (wrapRecording c s) := by
  simp only [wrapRecording]
  split
  · next ts hts =>
    refine keeps_closeRecording _ _ _ (fun hb => ?_) fun hp => by rwa [sampleKeyframe_pool hts]
    obtain ⟨hshared, hothers⟩ := sampleKeyframe_shared hb hts
    exact ⟨hshared, fun k hk => hothers k hk ▸ hb.empty k⟩
  · exact keeps_closeRecording _ _ _ (fun hb => ⟨hb.shared, fun k _ => hb.empty k⟩) id

theorem keeps_wrapPlayback (s : State) : Keeps s (wrapPlayback s) := by
  refine .ite (fun _ => .refl s) fun _ => ?_
  have hends : Keeps s (endPunches s) :=
    Keeps.foldl (fun u i => .ite (fun _ => keeps_endPunch i u) fun _ => .refl u) allAxes s
  have hfront := hends.trans (keeps_modContext (fun c => { c with wrapPending := true }) _)
  exact .ite (fun _ => hfront.trans (keeps_returnToIdle _)) fun _ => hfront.trans (keeps_announce _)

theorem keeps_wrapStation (s : State) : Keeps s (wrapStation s) := by
  simp only [wrapStation]
  split
  · exact .refl s
  · exact .refl s
  · exact .refl s
  · exact (keeps_returnToIdle _).after (keeps_setTc rfl rfl)
  · split
    · exact keeps_returnToIdle s
    · exact .ite (fun _ => .refl s) fun _ => (keeps_returnToIdle _).after (keeps_wrapRecording _ s)
  · exact keeps_wrapPlayback s
  · exact keeps_wrapPlayback s
  · exact keeps_returnToIdle s

theorem keeps_wrap (s : State) : Keeps s (wrapEffect s) :=
  keeps_withCommand (fun c _ u => (keeps_answerDone c _).after (keeps_wrapStation u)) s

/-! ### The roll and its window (R105 to R109) -/

theorem rollRefusal_none_ctx {s : State} {mode : RollMode} {f : RollFields} (h : rollRefusal s mode f = none) :
    ∃ c, s.tc.ctx = some c := by
  simp only [rollRefusal] at h
  split at h
  · cases h
  · next hready =>
    cases hctx : s.tc.ctx with
    | none => simp [rollReady, hctx] at hready
    | some c => exact ⟨c, rfl⟩

theorem keeps_acceptRoll {mode : RollMode} {f : RollFields} {mark : StartMark} {s : State} {c : PlayContext}
    (hctx : s.tc.ctx = some c) : Keeps s (acceptRoll mode f mark s) := by
  have hroll : ∀ u : State, ∀ r, Keeps u (u.setTc { u.tc with roll := r }) := fun u r => keeps_setTc rfl rfl
  have hfront := (keeps_handOver (.rollAccept f.number) s).trans (hroll _
    { number := f.number, mode := some mode, accepted := 0,
      window := some (mark.instant + 1000 * (handOver (.rollAccept f.number) s).cl.cfg.rollWindow), result := .none,
      startSeq := f.startSeq })
  refine (keeps_handPace _).after (keeps_setMode hfront.toKeepsCore (fun _ => ?_) (fun h => by cases h) hfront.latch)
  simp [hctx, contextFree]

theorem keeps_takeRoll (f : RollFields) (mark : StartMark) (s : State) : Keeps s (takeRoll f mark s) := by
  simp only [takeRoll]
  split
  · exact keeps_setCounters s _
  · refine .ite (fun _ => .refl s) fun _ => .ite (fun _ => keeps_handOver _ s) fun _ => ?_
    split
    · exact (keeps_handOver _ _).after (keeps_setTc rfl rfl)
    · next hnone =>
      obtain ⟨c, hctx⟩ := rollRefusal_none_ctx hnone
      exact keeps_acceptRoll hctx

theorem keeps_roll (s : State) : Keeps s (rollEffect s) := by
  simp only [rollEffect]
  split
  · next htake =>
    split
    · exact (keeps_takeRoll _ _ _).after (keeps_takeOffer htake)
    · exact keeps_takeOffer htake
  · exact .refl s

theorem keeps_rollAccept (s : State) : Keeps s (rollAcceptEffect s) := by
  simp only [rollAcceptEffect]
  split
  · next htake =>
    split
    · refine (keeps_takeOffer htake).trans (.ite (fun _ => ?_) fun _ => .refl _)
      exact keeps_setTc rfl rfl
    · exact keeps_takeOffer htake
  · exact .refl s

theorem answersWindow_rolling {s : State} {sender : Station} {number : BitVec 8}
    (h : answersWindow s sender number = true) : s.tc.mode = .rolling := by
  simp only [answersWindow, Bool.and_eq_true, beq_iff_eq] at h
  exact h.1.1.1

theorem keeps_rollRefuse (s : State) : Keeps s (rollRefuseEffect s) := by
  simp only [rollRefuseEffect]
  split
  · next htake =>
    split
    · exact (Keeps.ite (fun h => keeps_cancelRoll _ (answersWindow_rolling h)) fun _ => .refl _).after
        (keeps_takeOffer htake)
    · exact keeps_takeOffer htake
  · exact .refl s

theorem keeps_followAll (s : State) : Keeps s (followAll s) := by
  simp only [followAll]
  refine Keeps.foldl_of (P := fun u => u.cl = s.cl) _ (fun u i hi hu => ⟨?_, by simpa using hu⟩) rfl
  have hconf : configured u i = true := by
    simp only [List.mem_filter, Bool.and_eq_true] at hi
    exact (configured_congr hu i).trans hi.2.1
  exact keeps_setChannel fun h => channelMay_of_eq (by simp [h.not_disabled hconf]) rfl rfl

theorem followAll_tc (s : State) : (followAll s).tc = s.tc := foldl_keeps State.tc _ (by simp) _ _

theorem beginFeeding_tc (c : PlayContext) (seq : BitVec 16) (s : State) : (beginFeeding c seq s).tc = s.tc := rfl

theorem rebuildFeeder_tc (c : PlayContext) (seq : BitVec 16) (s : State) : (rebuildFeeder c seq s).tc = s.tc := by
  simp only [rebuildFeeder]
  split <;> rfl

theorem keeps_startPlayback {resume : Bool} {c : PlayContext} {s : State} (hm : s.tc.mode = .rolling) :
    Keeps s (startPlayback resume c s) := by
  have hpu : Keeps s (s.setPu { s.pu with t := c.startTime, r := 0, alignTimer := some s.cl.cfg.alignWindow }) :=
    keeps_setPu (fun h => ⟨Nat.zero_le _, h.move, h.master, h.strain, h.guard⟩) fun h =>
      ⟨Nat.zero_le _, h.move, h.master, h.strain, h.guard, fun hr => by simp [hm] at hr, fun _ _ => rfl⟩
  simp only [startPlayback]
  have hmode : (s.setPu { s.pu with t := c.startTime, r := 0, alignTimer := some s.cl.cfg.alignWindow }).tc.mode =
      .rolling := hm
  generalize s.setPu { s.pu with t := c.startTime, r := 0, alignTimer := some s.cl.cfg.alignWindow } = u at hpu hmode ⊢
  have hfeed : Keeps u (if resume then rebuildFeeder c u.tc.roll.startSeq u else beginFeeding c u.tc.roll.startSeq u) :=
    .ite (fun _ => keeps_rebuildFeeder c _ u) fun _ => keeps_beginFeeding c _ u
  have hfeedMode : (if resume then rebuildFeeder c u.tc.roll.startSeq u
      else beginFeeding c u.tc.roll.startSeq u).tc.mode = .rolling := by
    split <;> simp [rebuildFeeder_tc, beginFeeding_tc, hmode]
  generalize (if resume then rebuildFeeder c u.tc.roll.startSeq u
      else beginFeeding c u.tc.roll.startSeq u) = v at hfeed hfeedMode ⊢
  refine (keeps_setMode_only ?_ (by simp)).after
    ((keeps_modContext _ _).after ((keeps_followAll v).after (hpu.trans hfeed)))
  rw [modContext, setTc_tc, followAll_tc, hfeedMode]
  rfl

theorem keeps_startRecording {c : PlayContext} {s : State} (hm : s.tc.mode = .rolling) :
    Keeps s (startRecording c s) := by
  have hpu : KeepsCore s (s.setPu { s.pu with t := 0, r := 1024 }) :=
    core_setPu fun h => ⟨Nat.le_refl _, h.move, h.master, h.strain, h.guard⟩
  simp only [startRecording]
  generalize hu : s.setPu { s.pu with t := 0, r := 1024 } = u at hpu ⊢
  have hset : BlocksInv u.ts → BlocksInv (setEntry c.take { entryOf u c.take with state := .recording } u.ts) :=
    fun h => h.set rfl (by simp)
  have hts : Keeps u (u.setTs ((sampleKeyframe c.take (encoderPose u)
      (setEntry c.take { entryOf u c.take with state := .recording } u.ts)).getD
        (setEntry c.take { entryOf u c.take with state := .recording } u.ts))) := by
    cases hs : sampleKeyframe c.take (encoderPose u)
        (setEntry c.take { entryOf u c.take with state := .recording } u.ts) with
    | none => exact keeps_setTs hset id
    | some ts =>
      refine keeps_setTs (fun h => sampleKeyframe_blocks (hset h) (by simp) hs) fun h => ?_
      rw [Option.getD_some, sampleKeyframe_pool hs]
      exact h
  refine keeps_setMode (hpu.trans hts.toKeepsCore) (fun h => ?_) (fun _ => by subst hu; rfl) fun h => ?_
  · subst hu
    rw [ContextInv, hm] at h
    exact h
  · subst hu
    exact h

theorem keeps_beginRoll {c : PlayContext} {s : State} (hm : s.tc.mode = .rolling) : Keeps s (beginRoll c s) := by
  have htc : Keeps s (s.setTc { s.tc with
      ctx := some { c with roll := some s.tc.roll.number }, grace := .running (2 * s.cl.cfg.statePeriod),
      roll := { s.tc.roll with window := none, result := .started } }) := by
    refine ⟨core_setTc s _, fun h => ?_, fun _ => ?_, id⟩
    · exact ⟨h.path, h.move, h.master, h.strain, h.guard, h.recording, h.standing⟩
    · simp [ContextInv, hm, contextFree]
  refine htc.trans (keeps_setPu (fun h => ?_) fun h => ?_)
  · exact ⟨h.path, h.move, h.master, by simp, h.guard⟩
  · exact ⟨h.path, h.move, h.master, by simp, h.guard, h.recording, h.standing⟩

theorem keeps_startRoll {c : PlayContext} {s : State} (hm : s.tc.mode = .rolling) : Keeps s (startRoll c s) := by
  have hbegin : Keeps s (beginRoll c s) := keeps_beginRoll hm
  have hmode : (beginRoll c s).tc.mode = .rolling := hm
  simp only [startRoll]
  generalize beginRoll c s = u at hbegin hmode ⊢
  refine (keeps_reform _ _).after (hbegin.trans ?_)
  split
  · exact keeps_startRecording hmode
  · exact keeps_startPlayback hmode
  · exact keeps_startPlayback hmode

theorem keeps_rollWindowExpiry (s : State) : Keeps s (rollWindowExpiryEffect s) := by
  simp only [rollWindowExpiryEffect]
  split
  · exact .refl s
  · refine .ite (fun h => ?_) fun _ => .refl s
    split
    · exact keeps_cancelRoll _ h.1
    · exact keeps_startRoll h.1

/-! ### The stop unit's frames (R164 to R167, R172) -/

theorem keeps_takeStop (e : RxEntry) (f : StopFields) (s : State) : Keeps s (takeStop e f s) :=
  (keeps_stopTakes _ _ _ _ _).after (.ite (fun _ => .refl s) fun _ => keeps_setPeer _ _ s)

theorem keeps_stopClaim (s : State) : Keeps s (stopClaimEffect s) := by
  simp only [stopClaimEffect]
  split
  · next htake =>
    split
    · exact (keeps_takeStop _ _ _).after (keeps_takeOffer htake)
    · exact keeps_takeOffer htake
  · exact .refl s

theorem keeps_stopRelease (s : State) : Keeps s (stopReleaseEffect s) := by
  simp only [stopReleaseEffect]
  split
  · next htake =>
    split
    · exact (keeps_takeStop _ _ _).after (keeps_takeOffer htake)
    · exact keeps_takeOffer htake
  · exact .refl s

theorem keeps_clearOriginator (n : Station) (s : State) : Keeps s (clearOriginator n s) :=
  (keeps_releaseKey (by simp) _).after (keeps_writeStopEntry _ _ _ s)

theorem keeps_stopClearOf (c : Command) (n : Station) (s : State) : Keeps s (stopClear c n s) := by
  refine .ite (fun _ => keeps_refuseWith _ _ _ s) fun _ => ?_
  split
  · exact keeps_refuse _ _ s
  · exact (keeps_answerDone c _).after (keeps_clearOriginator n s)
  · exact keeps_answerDone c s

theorem keeps_stopClear (s : State) : Keeps s (stopClearEffect s) := by
  refine keeps_withEarly (fun c n u v hv => ?_) (fun c n u => ?_) s
  · split at hv
    · cases hv
    · exact Option.some.inj hv ▸ keeps_setCounters u _
  · split
    · exact keeps_stopClearOf _ _ u
    · exact .refl u

theorem keeps_rearm (s : State) : Keeps s (rearmEffect s) := by
  refine keeps_withCommand (fun c _ u => ?_) s
  refine .ite (fun _ => keeps_refuse _ _ u) fun hsever => (keeps_answerDone c _).after (keeps_setSu (fun h => ?_) fun _ => ?_)
  · exact ⟨h.keys, h.classes, h.mismatch, h.line, h.effective⟩
  · exact fun _ => hsever

theorem recoverRefusal_halted {n : BitVec 16} {s : State} (h : recoverRefusal n s = none) : s.tc.mode = .halted := by
  simp only [recoverRefusal] at h
  split at h
  · cases h
  · next hm => exact not_not.mp hm

theorem keeps_recoverTo {n : BitVec 16} {e : QueueEntry} {s : State} (hm : s.tc.mode = .halted) :
    Keeps s (recoverTo n e s) := by
  refine (keeps_checkArrivals _).after ((keeps_positionToPose _ _ _).after ?_)
  refine (keeps_setMode_only ?_ (by simp)).after ((keeps_modContext _ _).after (keeps_keepRestart e s))
  rw [modContext, setTc_tc, keepRestart, setFd_tc, hm]
  rfl

theorem keeps_recover (s : State) : Keeps s (recoverEffect s) := by
  refine keeps_withCommand (fun c n u => ?_) s
  split
  · exact keeps_refuseWith _ _ _ u
  · next hnone =>
    split
    · exact keeps_refuseWith _ _ _ u
    · exact (keeps_answerClamped _ _ _).after (keeps_recoverTo (recoverRefusal_halted hnone))

/-! ### The state after a reset (chapter 13) -/

theorem allBlocks_ascending : allBlocks.Pairwise (· < ·) := List.pairwise_lt_range

theorem reset_blocks : BlocksInv State.reset.ts := by
  refine ⟨?_, allBlocks_ascending, fun slot _ => ?_⟩
  · have hheld : heldBlocks State.reset.ts = [] := by decide
    rw [hheld, List.append_nil]
    exact List.Perm.refl _
  · simp [State.reset, TakeStore.reset, TakeEntry.empty]

theorem reset_setpoint : SetpointInv State.reset := by
  have hconf : ∀ i, configured State.reset i = false := by decide
  exact ⟨fun i => ⟨fun _ => hconf i, fun _ => by simp [axisCh, State.reset, AxisBlock.reset, AxisChannel.disabled]⟩,
    fun i hi => by simp [hconf] at hi, fun i hi => by simp [hconf] at hi⟩

/-- Settles O54: the reset values are those of the definitions. -/
theorem resetStateIsSound : Obligations.ResetStateIsSound := by
  refine ⟨rfl, rfl, rfl, rfl, rfl, rfl, fun n => ?_, fun i => ?_, fun slot => ?_, rfl, rfl, rfl, rfl, rfl, rfl, rfl, rfl,
    rfl, rfl, rfl, rfl, rfl, rfl, ?_, ?_, rfl, ?_, ?_, reset_blocks, reset_poolWf, reset_setpoint⟩
  · simp [peer, State.reset, PeerTable.reset, PeerEntry.reset]
  · simp [axisCh, State.reset, AxisBlock.reset, AxisChannel.disabled]
  · simp [entryOf, State.reset, TakeStore.reset]
  · exact ⟨by decide, List.Pairwise.nil, by decide, by decide⟩
  · exact ⟨by decide, by decide, by decide, by decide, by decide, by decide, by decide⟩
  · exact ⟨by decide, by decide, by decide, by decide, by decide⟩
  · simp [LatchInv, State.reset, StopUnit.reset]

/-- A state that differs from the reset state in its peers, its maps, its store, its loader and its queue of commands
holds what every step keeps as the reset state does. -/
theorem keeps_ofReset {s t : State} (hlc : t.lc = State.reset.lc) (hax : t.ax = State.reset.ax)
    (hfd : t.fd = State.reset.fd) (htc : t.tc = State.reset.tc) (hpu : t.pu = State.reset.pu)
    (hgu : t.gu = State.reset.gu) (hsu : t.su = State.reset.su) (hcfg : t.cl.cfg = State.reset.cl.cfg)
    (hb : BlocksInv s.ts → BlocksInv t.ts) (hp : Pool.wf s.ts.pool → Pool.wf t.ts.pool) : Keeps s t := by
  obtain ⟨-, -, -, -, -, -, -, -, -, -, -, -, -, -, -, -, -, -, -, -, -, -, -, hq, hr, hc, hcl, hl, -, -, hs⟩ :=
    resetStateIsSound
  have hrates : RatesInv t := by
    obtain ⟨h1, h2, h3, h4, h5, h6, h7⟩ := hr
    constructor <;> simpa only [htc, hpu, hgu]
  refine ⟨⟨fun _ => ?_, fun _ => hrates.bound, fun _ => ?_, hb, hp, fun _ => ?_⟩, fun _ => hrates, fun _ => ?_, fun _ => ?_⟩
  · obtain ⟨h1, h2, h3, h4⟩ := hq
    constructor <;> simpa only [hlc, hfd]
  · obtain ⟨h1, h2, h3, h4, h5⟩ := hcl
    constructor <;> simpa only [hsu]
  · obtain ⟨h1, h2, h3⟩ := hs
    constructor <;> simpa only [axisCh, axisCfg, configured, hax, hcfg]
  · rwa [ContextInv, htc]
  · rwa [LatchInv, hsu]

theorem keeps_powerOnReset (s : State) : Keeps s (powerOnResetEffect s) :=
  keeps_ofReset rfl rfl rfl rfl rfl rfl rfl rfl (fun _ => reset_blocks) fun _ => reset_poolWf

theorem keeps_stationReset (s : State) : Keeps s (stationReset s) :=
  keeps_ofReset rfl rfl rfl rfl rfl rfl rfl rfl resetStore_blocks id

theorem keeps_stationResetEffect (s : State) : Keeps s (stationResetEffect s) :=
  (keeps_stationReset s).trans (keeps_setCl rfl)

theorem keeps_resetPinRelease (s : State) : Keeps s (resetPinReleaseEffect s) := keeps_setCl rfl

theorem keeps_reset (s : State) : Keeps s (resetEffect s) := keeps_withCommand (fun _ _ u => keeps_stationReset u) s

/-! ### The end of START (R48, R183) -/

theorem axisParams_deriveAxis {a : AxisConfig} {period : Nat} (ht : a.smin < a.smax) (hv : 4 ≤ a.vmax)
    (hp : 1 ≤ period) : AxisParams (deriveAxis a period) where
  travel := ht
  vmax := by
    have hprod : 4 * 1 ≤ a.vmax * (period : Int) := Int.mul_le_mul hv (by omega) (by omega) (by omega)
    show 1 ≤ a.vmax * (period : Int) * 256 / 1000
    omega
  amax := le_max_left _ _
  ahalt := le_max_left _ _

theorem axisParams_imageAxis (image : List (BitVec 8)) {period : Nat} (hp : 1 ≤ period) (i : Axis) :
    AxisParams (imageAxis image period i) := by
  refine axisParams_deriveAxis ?_ ?_ hp
  · show imageLower _ < imageUpper (imageLower _) _
    simp only [imageUpper]
    split
    · assumption
    · exact Int.lt_succ _
  · show (4 : Int) ≤ (clampNat 4 8388607 _ : Nat)
    simp only [clampNat]
    omega

theorem axisParams_loadConfig (image : List (BitVec 8)) {i : Axis} (hi : i.val < (loadConfig image).axisCount) :
    AxisParams ((loadConfig image).axes.get i) := by
  simp only [loadConfig] at hi ⊢
  split at hi
  · next hgood =>
    rw [if_pos hgood]
    simp only [imageConfig, Table.get_ofFn]
    exact axisParams_imageAxis image (by simp only [clampNat]; omega) i
  · simp [NodeConfig.unconfigured] at hi

theorem startChannel_holds {cfg : NodeConfig} {i : Axis} (hi : i.val < cfg.axisCount) (ha : AxisParams (cfg.axes.get i)) :
    SetpointHolds (cfg.axes.get i) (startChannel cfg i) := by
  have ht := ha.travel
  have hv := ha.vmax
  simp only [startChannel, hi, if_true]
  constructor
  · show 256 * (cfg.axes.get i).smin ≤ 256 * clampInt (cfg.axes.get i).smin (cfg.axes.get i).smax 0
    simp only [clampInt]
    omega
  · show 256 * clampInt (cfg.axes.get i).smin (cfg.axes.get i).smax 0 ≤ 256 * (cfg.axes.get i).smax
    simp only [clampInt]
    omega
  · show ((0 : Int).natAbs : Int) ≤ _
    omega

theorem startChannel_disabled (cfg : NodeConfig) (i : Axis) :
    (startChannel cfg i).state = .disabled ↔ ¬ i.val < cfg.axisCount := by
  simp only [startChannel]
  split
  · next h => simp [h]
  · next h => simp [h, AxisChannel.disabled]

/-- The loader settles a configuration and the channels start in it. -/
theorem keeps_configure {s : State} {x : Loader} {y : AxisBlock} (h : SetpointInv ((s.setCl x).setAx y)) :
    Keeps s ((s.setCl x).setAx y) where
  queues h := ⟨h.tx, h.order, h.rx, h.segments⟩
  bound h := ⟨h.path, h.move, h.master, h.strain, h.guard⟩
  claims h := ⟨h.keys, h.classes, h.mismatch, h.line, h.effective⟩
  blocks h := h
  pool h := h
  setpoint _ := h
  rates h := ⟨h.path, h.move, h.master, h.strain, h.guard, h.recording, h.standing⟩
  context h := h
  latch h := h

theorem startChannels_setpoint (image : List (BitVec 8)) (s : State) (n : Station) :
    SetpointInv ((s.setCl { s.cl with station := n, cfg := loadConfig image }).setAx
      { AxisBlock.reset with ch := Table.ofFn (startChannel (loadConfig image)) }) := by
  constructor
  · intro i
    rw [axisCh, setAx_ax, Table.get_ofFn, startChannel_disabled]
    exact decide_eq_false_iff_not.symm
  · intro i hi
    exact axisParams_loadConfig image (of_decide_eq_true hi)
  · intro i hi
    have hi : i.val < (loadConfig image).axisCount := of_decide_eq_true hi
    simpa [axisCh, axisCfg] using startChannel_holds hi (axisParams_loadConfig image hi)

/-- The configuration loaded, and the channels with it. -/
def configLoaded (image : List (BitVec 8)) (pins : StartPins) (s : State) : State :=
  (s.setCl { s.cl with station := loadStation image pins.straps, cfg := loadConfig image }).setAx
    { AxisBlock.reset with ch := Table.ofFn (startChannel (loadConfig image)) }

/-- The other units started with a configuration. -/
def unitsStarted (cfg : NodeConfig) (pins : StartPins) (s : State) : State :=
  let s := s.setLmu (Table.ofFn fun i => startMaps cfg i (s.lmu.get i))
  let s := s.setGu { s.gu with zones := startZones cfg }
  let s := s.setSu { s.su with loopClosed := pins.loopClosed }
  let s := s.setFd { s.fd with cueLow := pins.cueLow }
  s.setPu { s.pu with
    markLow := pins.markLow, cueTerm := if cfg.cueMode = .runLevel ∧ !pins.cueLow then 0 else 1024 }

theorem keeps_unitsStarted (cfg : NodeConfig) (pins : StartPins) (s : State) : Keeps s (unitsStarted cfg pins s) := by
  have hgu : ∀ (v : State) z, Keeps v (v.setGu { v.gu with zones := z }) := fun v z => keeps_setGu id
  have hpu : ∀ (v : State) b n, Keeps v (v.setPu { v.pu with markLow := b, cueTerm := n }) := fun v b n =>
    keeps_setPu_same rfl rfl rfl rfl
  have hfd : ∀ (v : State) b, Keeps v (v.setFd { v.fd with cueLow := b }) := fun v b => keeps_setFd id
  have hsu : ∀ (v : State) b, Keeps v (v.setSu { v.su with loopClosed := b }) := fun v b =>
    keeps_setSu_same rfl rfl rfl rfl rfl
  refine (hpu _ _ _).after ?_
  refine (hfd _ _).after ?_
  refine (hsu _ _).after ?_
  exact (hgu _ _).after (keeps_setLmu s _)

theorem keeps_endOfStart (image : List (BitVec 8)) (pins : StartPins) (s : State) :
    Keeps s (endOfStartEffect image pins s) := by
  refine .ite (fun h => ?_) fun _ => .refl s
  have hconf : Keeps s (configLoaded image pins s) :=
    keeps_configure (startChannels_setpoint image s (loadStation image pins.straps))
  have hmode : (unitsStarted (loadConfig image) pins (configLoaded image pins s)).tc.mode = .start := h.1
  refine Keeps.after (t := unitsStarted (loadConfig image) pins (configLoaded image pins s))
    (keeps_setMode_only ?_ ?_) ((keeps_unitsStarted _ pins _).after hconf)
  · rw [hmode]
    split <;> rfl
  · split <;> simp

/-! ### Every step -/

theorem exec_keeps {i : Instr} {s t : State} (h : exec i s = .next t) : Keeps s t := by
  have hnext : ∀ u, Keeps s u → (.next u : Host.Outcome State Fault Refusal) = .next t → Keeps s t := fun u hu h =>
    Host.Outcome.next.inj h ▸ hu
  cases i with
  | powerOnReset => exact hnext _ (keeps_powerOnReset s) h
  | stationReset => exact hnext _ (keeps_stationResetEffect s) h
  | endOfStart image pins => exact hnext _ (keeps_endOfStart image pins s) h
  | transmitAttempt won instant => exact hnext _ (keeps_transmitAttempt won instant s) h
  | frameSentWhole => exact hnext _ (keeps_frameSentWhole s) h
  | attemptFails => exact hnext _ (keeps_attemptFails s) h
  | linkLostEntry => exact hnext _ (keeps_linkLostEntry s) h
  | quietTimeExpiry => exact hnext _ (keeps_quietTimeExpiry s) h
  | framingViolation line => exact hnext _ (keeps_framingViolation line s) h
  | frameArrives f => exact execFrameArrives_keeps h
  | readoutReoffer => exact hnext _ (keeps_readoutReoffer s) h
  | stopClaim => exact hnext _ (keeps_stopClaim s) h
  | stopRelease => exact hnext _ (keeps_stopRelease s) h
  | stopClear => exact hnext _ (keeps_stopClear s) h
  | rearm => exact hnext _ (keeps_rearm s) h
  | roll => exact hnext _ (keeps_roll s) h
  | rollAccept => exact hnext _ (keeps_rollAccept s) h
  | rollRefuse => exact hnext _ (keeps_rollRefuse s) h
  | rollWindowExpiry => exact hnext _ (keeps_rollWindowExpiry s) h
  | armRecord => exact hnext _ (keeps_armRecord s) h
  | cue => exact hnext _ (keeps_cue s) h
  | wrap => exact hnext _ (keeps_wrap s) h
  | resume => exact hnext _ (keeps_resume s) h
  | recover => exact hnext _ (keeps_recover s) h
  | brk => exact hnext _ (keeps_brk s) h
  | advance => exact hnext _ (keeps_advance s) h
  | jog => exact hnext _ (keeps_jog s) h
  | goto => exact hnext _ (keeps_goto s) h
  | controlRelease => exact hnext _ (keeps_controlRelease s) h
  | punchIn => exact hnext _ (keeps_punchInEffect s) h
  | punchOut => exact hnext _ (keeps_punchOut s) h
  | masterRate => exact hnext _ (keeps_masterRate s) h
  | mark => exact hnext _ (keeps_mark s) h
  | unmark => exact hnext _ (keeps_unmark s) h
  | cuePoints => exact hnext _ (keeps_cuePoints s) h
  | trim => exact hnext _ (keeps_trim s) h
  | delete => exact hnext _ (keeps_delete s) h
  | lensPoint => exact hnext _ (keeps_lensPoint s) h
  | lensCommit => exact hnext _ (keeps_lensCommit s) h
  | zoneArm => exact hnext _ (keeps_zoneArm s) h
  | zoneDisarm => exact hnext _ (keeps_zoneDisarm s) h
  | zoneAck => exact hnext _ (keeps_zoneAck s) h
  | faultClear => exact hnext _ (keeps_faultClear s) h
  | queryCounters => exact hnext _ (keeps_queryCounters s) h
  | queryMarker => exact hnext _ (keeps_queryMarker s) h
  | queryTrip => exact hnext _ (keeps_queryTrip s) h
  | queryDirectory => exact hnext _ (keeps_queryDirectory s) h
  | takeRead => exact hnext _ (keeps_takeRead s) h
  | takeLoadBegin => exact hnext _ (keeps_takeLoadBegin s) h
  | takeLoadEnd => exact hnext _ (keeps_takeLoadEnd s) h
  | reset => exact hnext _ (keeps_reset s) h
  | pace => exact hnext _ (keeps_pace s) h
  | state => exact hnext _ (keeps_state s) h
  | keyframeData => exact hnext _ (keeps_keyframeData s) h
  | silenceExpiry n takeControllerFirst axesFirst =>
    exact hnext _ (keeps_silenceExpiry n takeControllerFirst axesFirst s) h
  | statePeriodExpiry => exact hnext _ (keeps_statePeriodExpiry s) h
  | pacePeriodExpiry => exact hnext _ (keeps_pacePeriodExpiry s) h
  | jogTimeout a => exact hnext _ (keeps_jogTimeout a s) h
  | idleReleaseExpiry a => exact hnext _ (keeps_idleReleaseExpiry a s) h
  | mismatchGraceEnd => exact hnext _ (keeps_mismatchGraceEnd s) h
  | alignmentWindowEnd => exact hnext _ (keeps_alignmentWindowEnd s) h
  | servoUpdate a words holdEndFirst => exact hnext _ (keeps_servoUpdate a words holdEndFirst s) h
  | followingFault a words => exact hnext _ (keeps_followingFault a words s) h
  | encoderFault a words => exact hnext _ (keeps_encoderFault a words s) h
  | paceStep cueLow order => exact hnext _ (keeps_paceStep cueLow order s) h
  | guardSample levels closed stopLineFirst => exact hnext _ (keeps_guardSampleEffect levels closed stopLineFirst s) h
  | levelFilterChange levels closed stopLineFirst =>
    exact hnext _ (keeps_levelFilterChange levels closed stopLineFirst s) h
  | edgeLatch i => exact hnext _ (keeps_edgeLatch i s) h
  | stopLineOpens => exact hnext _ (keeps_stopLineOpens s) h
  | stopLineClosed levels stopLineFirst => exact hnext _ (keeps_stopLineClosed levels stopLineFirst s) h
  | markerEdge => exact hnext _ (keeps_markerEdge s) h
  | cueEdge => exact hnext _ (keeps_cueEdge s) h
  | feederReadDone => exact hnext _ (keeps_feederReadDone s) h
  | recorderWrite => exact hnext _ (keeps_recorderWrite s) h
  | punchWrite => exact hnext _ (keeps_punchWrite s) h
  | readoutFetch => exact hnext _ (keeps_readoutFetch s) h
  | taint => exact hnext _ (keeps_taint s) h
  | startBit instant => exact hnext _ (keeps_startBit instant s) h
  | resetPinRelease => exact hnext _ (keeps_resetPinRelease s) h

/-- Settles O1: a step takes the front command by its definition. -/
theorem stepRunsFrontCommand : Obligations.StepRunsFrontCommand := by
  intro c rest s hp
  simp only [step, hp]

theorem step_keeps {s t : State} (h : step s = .next t) : Keeps s t := by
  cases hp : s.pending with
  | nil =>
    rw [step, hp] at h
    exact Host.Outcome.next.inj h ▸ .refl s
  | cons c rest =>
    rw [stepRunsFrontCommand c rest s hp] at h
    exact (keeps_pending s rest).trans (exec_keeps h)

/-- Settles O56: each command keeps the queues, which change by hand-overs, arrivals and the feeder alone. -/
theorem stepsKeepTheQueues : Obligations.StepsKeepTheQueues := fun _ _ hs h => (step_keeps h).queues hs

/-- Settles O57: each command keeps the rates, and a change of mode sets the play context with them. -/
theorem stepsKeepTheRatesAndTheContext : Obligations.StepsKeepTheRatesAndTheContext := fun _ _ h =>
  ⟨(step_keeps h).rates, (step_keeps h).context⟩

/-- Settles O58: claims change by raises and releases, each of which forms the class and lets the blocks take it. -/
theorem stepsKeepTheClaims : Obligations.StepsKeepTheClaims := fun _ _ h => ⟨(step_keeps h).claims, (step_keeps h).latch⟩

/-- Settles O59: the take store's operations share the 64 blocks out, and write the pool in its canonical form. -/
theorem stepsKeepTheStore : Obligations.StepsKeepTheStore := fun _ _ h => ⟨(step_keeps h).blocks, (step_keeps h).pool⟩

/-- Settles O60: a setpoint moves by the limiter, the braking step and tracking alone. -/
theorem stepsKeepTheSetpoint : Obligations.StepsKeepTheSetpoint := fun _ _ hs h => (step_keeps h).setpoint hs

end Sys2Proof.Machine
end


section
/-! PROOFS. The line's phase (O5), the receive queue (O7), the checks of commands (O8), the queries (O9) and PACE
(O10). -/

namespace Sys2Proof.Machine

/-! ### The line's phase (R1 to R4) -/

-- In place, so that the parts of the text are elaborated one after the other and not all at once.
set_option Elab.async false in
theorem transmitAttempt_sends {s : State} {f : TxFrame} {rest : List TxFrame} (won : Bool) (instant : Nat)
    (hrun : running s = true) (hidle : s.lc.phase = .idle) (hquiet : s.lc.quiet = none) (hlink : s.lc.link ≠ .fault)
    (hq : s.lc.txq = f :: rest) :
    transmitAttemptEffect won instant s = s.setLc { s.lc with
      txq := { payload := stampPace s.pu.t f.payload, onLine := won } :: rest,
      phase := if won then .sending { instant := instant, time := s.pu.t }
               else .receiving { instant := instant, time := s.pu.t } } := by
  have hmay : mayStart s = true := by simp [mayStart, hrun, hidle, hquiet, hlink, hq]
  simp [transmitAttemptEffect, hmay, hq]

theorem stampPace_of_ne {p : Payload} (t : TakeTime) (h : p.kind ≠ .pace) : stampPace t p = p := by
  cases p with
  | pace f => exact absurd rfl h
  | _ => rfl

/-- Settles O5: each of the three events by its definition. -/
theorem linePhaseFollowsTheLine : Obligations.LinePhaseFollowsTheLine := by
  refine ⟨fun s f rest won instant hrun hidle hquiet hlink hq => ?_, fun s instant mark line => ⟨fun hrun hidle => ?_,
    fun recessive hph hviol => ?_, fun hno => ?_⟩⟩
  · have heq := transmitAttempt_sends won instant hrun hidle hquiet hlink hq
    refine ⟨_, { payload := stampPace s.pu.t f.payload, onLine := won }, congrArg Host.Outcome.next heq, ?_, rfl, rfl,
      fun p hp => ?_, stampPace_of_ne _⟩
    · exact changesOnly_lc (.head _)
    · rw [hp]
      rfl
  · show Host.Outcome.next (startBitEffect instant s) = _
    rw [startBitEffect, if_pos ⟨hrun, hidle⟩]
  · show Host.Outcome.next (framingViolationEffect line s) = _
    cases recessive <;> simp [framingViolationEffect, hph, hviol, countCrcError, setCounters, State.setLc, bump]
  · show Host.Outcome.next (framingViolationEffect line s) = _
    simp only [framingViolationEffect]
    split
    · next h => exact absurd h (hno _)
    · rfl

/-! ### The receive queue (R10, R11) -/

/-- The entry that an admitted frame becomes. -/
def newEntry (n : Station) (p : Payload) (mark : StartMark) (own : Bool) (s : State) : RxEntry :=
  { sender := n, payload := p, mark := mark, own := own, serial := s.lc.nextSerial }

theorem enqueueRx_appends {n : Station} {p : Payload} {mark : StartMark} {own : Bool} {s : State}
    (h : s.lc.rxq.length < 4) : enqueueRx n p mark own s = s.setLc { s.lc with
      rxq := s.lc.rxq ++ [newEntry n p mark own s], nextSerial := s.lc.nextSerial + 1 } := by
  simp [enqueueRx, h, newEntry]

theorem enqueueRx_drops {n : Station} {p : Payload} {mark : StartMark} {own : Bool} {s : State}
    (h : 4 ≤ s.lc.rxq.length) (hp : frameClass p ≠ 0 ∨ ∀ x ∈ s.lc.rxq, frameClass x.payload = 0) :
    enqueueRx n p mark own s = countRxDrop s := by
  simp only [enqueueRx, Nat.not_lt.mpr h, if_false]
  split
  · rfl
  · next hcls =>
    have hall := hp.resolve_left hcls
    split
    · rfl
    · next q hq =>
      obtain ⟨l, e, r, hsplit, -, -, he⟩ := displaceOldest_split hq
      exact absurd (hall e (by simp [hsplit])) he

theorem displaceOldest_of {before after : List RxEntry} {x : RxEntry}
    (hb : ∀ y ∈ before, frameClass y.payload = 0) (hx : frameClass x.payload ≠ 0) :
    displaceOldest (before ++ x :: after) = some (before ++ after) := by
  induction before with
  | nil => simp [displaceOldest, hx]
  | cons b before ih =>
    have hhead : frameClass b.payload = 0 := hb b List.mem_cons_self
    simp [displaceOldest, hhead, ih fun y hy => hb y (List.mem_cons_of_mem b hy)]

theorem enqueueRx_displaces {n : Station} {p : Payload} {mark : StartMark} {own : Bool} {s : State} {x : RxEntry}
    {before after : List RxEntry} (h : 4 ≤ s.lc.rxq.length) (hp : frameClass p = 0)
    (hq : s.lc.rxq = before ++ x :: after) (hb : ∀ y ∈ before, frameClass y.payload = 0)
    (hx : frameClass x.payload ≠ 0) : enqueueRx n p mark own s = countRxDrop (s.setLc { s.lc with
      rxq := before ++ after ++ [newEntry n p mark own s], nextSerial := s.lc.nextSerial + 1 }) := by
  have hdis : displaceOldest s.lc.rxq = some (before ++ after) := by rw [hq, displaceOldest_of hb hx]
  simp [enqueueRx, Nat.not_lt.mpr h, hp, hdis, newEntry]

theorem enqueueRx_changesOnly (n : Station) (p : Payload) (mark : StartMark) (own : Bool) (s : State) :
    ChangesOnly [.lc] s (enqueueRx n p mark own s) := by
  simp only [enqueueRx]
  refine .ite (fun _ => changesOnly_lc (.head _)) fun _ => .ite (fun _ => changesOnly_lc (.head _)) fun _ => ?_
  split <;> exact changesOnly_lc (.head _)

/-- At a full queue a drop is counted, whatever is dropped. -/
theorem enqueueRx_full_counters {n : Station} {p : Payload} {mark : StartMark} {own : Bool} {s : State}
    (h : 4 ≤ s.lc.rxq.length) : (enqueueRx n p mark own s).lc.counters =
      { s.lc.counters with rxDrops := min 65535 (s.lc.counters.rxDrops + 1) } := by
  simp only [enqueueRx, Nat.not_lt.mpr h, if_false]
  split
  · rfl
  · split <;> rfl

/-- Of the entries older than e, those of its class that may be taken themselves: none, as the offer has it. -/
theorem zipIdx_all_iff (p : RxEntry → List RxEntry → Bool) (before : List RxEntry) :
    (before.zipIdx.all fun (b, k) => p b (before.take k)) = true ↔
      ∀ pre b post, before = pre ++ b :: post → p b pre = true := by
  simp only [List.all_eq_true, Prod.forall]
  constructor
  · intro h pre b post hsplit
    have hmem : (b, pre.length) ∈ before.zipIdx := by
      rw [List.mem_zipIdx_iff_getElem?]
      simp [hsplit]
    simpa [hsplit] using h b pre.length hmem
  · intro h b k hmem
    obtain ⟨hk, hb⟩ : ∃ hk : k < before.length, before[k] = b :=
      List.getElem?_eq_some_iff.mp (List.mem_zipIdx_iff_getElem?.mp hmem)
    refine h (before.take k) b (before.drop (k + 1)) ?_
    rw [← hb, ← List.drop_eq_getElem_cons, List.take_append_drop]

/-- An entry of class 0 is offered when it is the oldest of class 0; any other when none of class 0 waits, it may be
taken and no older one of its class may. -/
theorem offerable_iff (s : State) (before after : List RxEntry) (e : RxEntry) : offerable s before after e = true ↔
    (frameClass e.payload = 0 → ∀ b ∈ before, frameClass b.payload ≠ 0) ∧
    (frameClass e.payload ≠ 0 → mayTake s before e = true ∧ (∀ b ∈ before ++ after, frameClass b.payload ≠ 0) ∧
      ∀ pre b post, before = pre ++ b :: post → frameClass b.payload = frameClass e.payload →
        mayTake s pre b = false) := by
  have hzip := zipIdx_all_iff (fun b pre => !(frameClass b.payload == frameClass e.payload && mayTake s pre b)) before
  simp only [offerable]
  split
  · next h =>
    rw [List.all_eq_true]
    exact ⟨fun hall => ⟨fun _ b hb => of_decide_eq_true (hall b hb), fun hne => absurd h hne⟩,
      fun ⟨hall, _⟩ b hb => decide_eq_true (hall h b hb)⟩
  · next h =>
    rw [Bool.and_eq_true, Bool.and_eq_true, hzip]
    simp only [h, List.all_eq_true, decide_eq_true_eq, Bool.not_eq_true', Bool.and_eq_false_imp, beq_iff_eq, ne_eq,
      not_false_eq_true, forall_const, false_implies, true_and]
    constructor
    · rintro ⟨⟨hall, hmay⟩, hold⟩
      exact ⟨hmay, hall, hold⟩
    · rintro ⟨hmay, hall, hold⟩
      exact ⟨⟨hall, hmay⟩, hold⟩

/-- The first entry that is wanted is found when it may be offered. -/
theorem findOffer_first {s : State} {want : Payload → Bool} {e : RxEntry} {l r : List RxEntry} (before : List RxEntry)
    (hl : ∀ b ∈ l, want b.payload = false) (hw : want e.payload = true)
    (ho : offerable s (before ++ l) r e = true) :
    findOffer s want before (l ++ e :: r) = some (e, before ++ l ++ r) := by
  induction l generalizing before with
  | nil =>
    rw [List.append_nil] at ho
    simp [findOffer, hw, ho]
  | cons b l ih =>
    have hb : want b.payload = false := hl b List.mem_cons_self
    have htail := ih (before ++ [b]) (fun x hx => hl x (List.mem_cons_of_mem b hx)) (by simpa using ho)
    simpa [findOffer, hb] using htail

theorem takeOffer_first {s : State} {want : Payload → Bool} {e : RxEntry} {l r : List RxEntry}
    (hrun : running s = true) (hq : s.lc.rxq = l ++ e :: r) (hl : ∀ b ∈ l, want b.payload = false)
    (hw : want e.payload = true) (ho : offerable s l r e = true) :
    takeOffer want s = some (e, s.setLc { s.lc with rxq := l ++ r }) := by
  simp [takeOffer, hrun, hq, findOffer_first [] hl hw ho]

theorem takeOffer_running {s s1 : State} {want : Payload → Bool} {e : RxEntry} (h : takeOffer want s = some (e, s1)) :
    running s = true := by
  simp only [takeOffer] at h
  split at h
  · assumption
  · cases h

theorem needsPort_iff (p : Payload) : needsPort p = true ↔ .ts ∈ ownersOf p := by simp [needsPort]

theorem mayTake_iff (s : State) (older : List RxEntry) (e : RxEntry) : mayTake s older e = true ↔
    (∀ b ∈ older, ∀ o, o ∈ ownersOf b.payload → o ∉ ownersOf e.payload) ∧
    (.ts ∈ ownersOf e.payload →
      feederWants s = false ∧ recorderWants s = false ∧ punchWants s = false ∧
      (∀ b ∈ older, .ts ∉ ownersOf b.payload) ∧ (∀ n, fetchSince s = some n → e.serial < n) ∧
      ∀ w ∈ s.tc.cues, e.serial < w.since) := by
  have horder : inOwnersOrder older e = true ↔
      ∀ b ∈ older, ∀ o, o ∈ ownersOf b.payload → o ∉ ownersOf e.payload := by
    simp only [inOwnersOrder, List.all_eq_true, Bool.not_eq_true', List.contains_eq_mem, decide_eq_false_iff_not]
  have hfetch : ((fetchSince s).all fun n => decide (e.serial < n)) = true ↔
      ∀ n, fetchSince s = some n → e.serial < n := by
    cases fetchSince s <;> simp
  have hport : takeable s older e = true ↔ (.ts ∈ ownersOf e.payload →
      feederWants s = false ∧ recorderWants s = false ∧ punchWants s = false ∧
      (∀ b ∈ older, .ts ∉ ownersOf b.payload) ∧ (∀ n, fetchSince s = some n → e.serial < n) ∧
      ∀ w ∈ s.tc.cues, e.serial < w.since) := by
    rw [takeable, Bool.or_eq_true, Bool.and_eq_true, Bool.and_eq_true, Bool.and_eq_true, hfetch, ← needsPort_iff]
    simp only [portFreeForBulk, Bool.and_eq_true, Bool.not_eq_true', List.all_eq_true, decide_eq_true_eq,
      ← Bool.not_eq_true, needsPort_iff, and_assoc, ← imp_iff_not_or]
  rw [mayTake, Bool.and_eq_true, hport, horder, and_comm]

/-- Settles O7: admission by the length of the queue, and the offer of the first entry that may go. -/
theorem receiveQueueInOrder : Obligations.ReceiveQueueInOrder := by
  refine ⟨fun n p mark own s => ⟨enqueueRx_changesOnly n p mark own s, newEntry n p mark own s, rfl, rfl, rfl, rfl,
      fun h => ?_, enqueueRx_full_counters, fun h hp => ?_, fun h hp => ⟨fun hall => ?_, fun before x after hq hb hx => ?_⟩⟩,
    fun want s s1 e h => ?_, fun want s before after e hrun hq hw hb => ⟨fun h0 hold => ?_, fun h0 hmay hall hold => ?_⟩,
    mayTake_iff⟩
  · rw [enqueueRx_appends h]
    exact ⟨rfl, rfl⟩
  · rw [enqueueRx_drops h (.inl hp)]
    rfl
  · rw [enqueueRx_drops h (.inr hall)]
    rfl
  · rw [enqueueRx_displaces h hp hq hb hx]
    rfl
  · obtain ⟨l, r, hq, heq, hw, ho⟩ := takeOffer_rxq h
    exact ⟨takeOffer_running h, hw, l, r, hq, heq, (offerable_iff s l r e).mp ho⟩
  · exact takeOffer_first hrun hq hb hw ((offerable_iff s before after e).mpr ⟨fun _ => hold, fun h => absurd h0 h⟩)
  · exact takeOffer_first hrun hq hb hw
      ((offerable_iff s before after e).mpr ⟨fun h => absurd h h0, fun _ => ⟨hmay, hall, hold⟩⟩)

/-! ### Commands and answers (R14, R15) -/

theorem answer_shown {c : Command} {r : AnswerResult} (d : Detail) (s : State)
    (h : c.target ≠ targetAll ∨ ∃ why, r = .refused why) : answer c r d s =
      handOver (.answer { station := c.sender, kind := c.kind, tag := c.tag, result := r, detail := d }) s := by
  rcases h with h | ⟨why, rfl⟩
  · have hno : ∀ b, (decide (c.target = targetAll) && b) = false := fun b => by rw [decide_eq_false h]; rfl
    simp only [answer, hno, Bool.false_eq_true, if_false]
  · simp [answer]

theorem answer_silent {c : Command} {r : AnswerResult} (d : Detail) (s : State) (h : c.target = targetAll)
    (hr : ∀ why, r ≠ .refused why) : answer c r d s = s := by
  cases r with
  | refused why => exact absurd rfl (hr why)
  | _ => simp [answer, h]

theorem answer_changesOnly (c : Command) (r : AnswerResult) (d : Detail) (s : State) :
    ChangesOnly [.lc] s (answer c r d s) := by
  simp only [answer]
  exact .ite (fun _ => .refl _ _) fun _ => handOver_changesOnly _ s

theorem refuse_eq (c : Command) (why : Reason) (s : State) : refuse c why s =
    handOver (.answer { station := c.sender, kind := c.kind, tag := c.tag, result := .refused why, detail := {} }) s :=
  answer_shown _ s (.inr ⟨why, rfl⟩)

/-- A command that nothing acts on before its checks, and that fails one, is refused. -/
theorem withCommand_refused {α : Type} {pick : CommandBody → Option α} {early : Command → α → State → Option State}
    {act : Command → α → State → State} {s s1 : State} {e : RxEntry} {c : Command} {x : α} {why : Reason}
    (ht : takeOffer (picksCommand pick) s = some (e, s1)) (hc : commandOf pick e = some (c, x))
    (he : early c x s1 = none) (hr : commandRefusal s1 c = some why) :
    withCommand pick early act s = refuse c why s1 := by
  simp [withCommand, ht, hc, he, hr]

/-- The command of an entry that carries one. -/
def entryCommand (e : RxEntry) (target tag : BitVec 8) (k : Kind) : Command :=
  { sender := e.sender, target := target, tag := tag, kind := k }

/-- A row refuses the command it takes by its checks on arrival, unless that meets none. -/
def RowRefuses (i : Instr) (k : Kind) : Prop :=
  ∀ (s s1 : State) (e : RxEntry) (target tag : BitVec 8) (body : CommandBody) (why : Reason),
    takeOffer (rowTakes i k) s = some (e, s1) → e.payload = .command target tag body → ¬ meetsNoCheck s body →
    commandRefusal s1 (entryCommand e target tag k) = some why →
    exec i s = .next (refuse (entryCommand e target tag k) why s1)

theorem meetsNoCheck_congr {s s1 : State} (hts : s1.ts = s.ts) (hcl : s1.cl = s.cl) (body : CommandBody) :
    meetsNoCheck s1 body ↔ meetsNoCheck s body := by
  unfold meetsNoCheck ignoresCue entryOf
  rw [hts, hcl]

/-- The kinds of the frames that carry no command. -/
def frameKinds : List Kind :=
  [.stopClaim, .stopRelease, .roll, .rollAccept, .rollRefuse, .pace, .state, .answer, .directoryEntry, .tripReport,
   .markerReport, .counters, .keyframeData]

theorem kind_of_command (b : CommandBody) : frameKinds.contains b.kind = false := by cases b <;> rfl

/-- A frame of the kind of a command carries one. -/
theorem exists_command_of_kind {p : Payload} {b : CommandBody} (h : p.kind = b.kind) :
    ∃ target tag body, p = .command target tag body := by
  have hno : frameKinds.contains p.kind = false := h ▸ kind_of_command b
  cases p with
  | command target tag body => exact ⟨target, tag, body, rfl⟩
  | _ => cases hno

/-- A row takes no frame of another kind. -/
theorem rowTakes_of_ne {i : Instr} {k : Kind} {p : Payload} (h : p.kind ≠ k) : rowTakes i k p = false :=
  Bool.and_eq_false_iff.mpr (.inl (beq_false_of_ne h))

/-- A row that takes what `pick` reads, and acts early on nothing that meets a check. -/
theorem rowRefuses_of {α : Type} {i : Instr} {k : Kind} {pick : CommandBody → Option α}
    {early : Command → α → State → Option State} {act : Command → α → State → State}
    (b : CommandBody) (hb : b.kind = k := by rfl)
    (hpick : ∀ target tag body, rowTakes i k (.command target tag body) = (pick body).isSome)
    (hexec : ∀ s s1 e, takeOffer (picksCommand pick) s = some (e, s1) →
      exec i s = .next (withCommand pick early act s) := by intros; rfl)
    (hkind : ∀ body x, pick body = some x → body.kind = k)
    (hearly : ∀ c body x u, pick body = some x → ¬ meetsNoCheck u body → early c x u = none) : RowRefuses i k := by
  intro s s1 e target tag body why ht hp hno hr
  have hwant : ∀ p, rowTakes i k p = picksCommand pick p := by
    intro p
    by_cases hk : p.kind = k
    · obtain ⟨target, tag, body, rfl⟩ := exists_command_of_kind (hk.trans hb.symm)
      exact hpick target tag body
    · cases p with
      | command target tag body => exact hpick target tag body
      | _ => exact rowTakes_of_ne hk
  rw [takeOffer_congr hwant] at ht
  obtain ⟨-, -, -, hts, -, -, -, -, -, hcl, -⟩ := takeOffer_frame ht
  have hsome : (pick body).isSome = true := by
    obtain ⟨_, _, _, _, hw, _⟩ := takeOffer_rxq ht
    simpa [picksCommand, hp] using hw
  obtain ⟨x, hx⟩ := Option.isSome_iff_exists.mp hsome
  rw [hexec s s1 e ht]
  refine congrArg _ (withCommand_refused ht (x := x) ?_ (hearly _ body x s1 hx ?_) hr)
  · simp [commandOf, hp, hx, entryCommand, hkind body x hx]
  · exact fun h => hno ((meetsNoCheck_congr hts hcl body).mp h)

/-- A row that takes every command of its kind. -/
theorem rowRefuses_ofKind {α : Type} {i : Instr} {k : Kind} {pick : CommandBody → Option α}
    {early : Command → α → State → Option State} {act : Command → α → State → State}
    (b : CommandBody) (hpick : ∀ body, (pick body).isSome = (body.kind == k)) (hb : b.kind = k := by rfl)
    (htakes : ∀ target tag body, rowTakes i k (.command target tag body) = (body.kind == k && true) := by intros; rfl)
    (hexec : ∀ s s1 e, takeOffer (picksCommand pick) s = some (e, s1) →
      exec i s = .next (withCommand pick early act s) := by intros; rfl)
    (hearly : ∀ c body x u, pick body = some x → ¬ meetsNoCheck u body → early c x u = none) : RowRefuses i k := by
  refine rowRefuses_of b hb (fun target tag body => ?_) hexec (fun body x hx => ?_) hearly
  · rw [htakes, Bool.and_true, hpick]
  · have hkind := hpick body
    rw [hx] at hkind
    exact beq_iff_eq.mp hkind.symm

/-- A row that takes every command of its kind, and acts early on nothing. -/
theorem rowRefuses_noEarly {α : Type} {i : Instr} {k : Kind} {pick : CommandBody → Option α}
    {act : Command → α → State → State} (b : CommandBody) (hpick : ∀ body, (pick body).isSome = (body.kind == k))
    (hb : b.kind = k := by rfl)
    (htakes : ∀ target tag body, rowTakes i k (.command target tag body) = (body.kind == k && true) := by intros; rfl)
    (hexec : ∀ s, exec i s = .next (withCommand pick noEarly act s) := by intros; rfl) : RowRefuses i k :=
  rowRefuses_ofKind b hpick hb htakes (fun s _ _ _ => hexec s) fun _ _ _ _ _ _ => rfl

/-- Whether a conditional pick picks is its condition. -/
theorem isSome_ite {α : Type} (p : Prop) [Decidable p] (x : α) : (if p then some x else none).isSome = decide p := by
  split <;> simp [*]

/-- Whether the picks of the rows of a playback and of the axes read a command, row by row. -/
def playPicks (b : CommandBody) : List Bool :=
  [(pickRearm b).isSome, (pickWrap b).isSome, (pickResume b).isSome, (pickRecover b).isSome, (pickBreak b).isSome,
   (pickAdvance b).isSome, (pickJog b).isSome, (pickGoto b).isSome, (pickControlRelease b).isSome,
   (pickPunchIn b).isSome]

theorem playPicks_eq (b : CommandBody) : playPicks b =
    [.rearm, .wrap, .resume, .recover, .brk, .advance, .jog, .goto, .controlRelease, .punchIn].map (b.kind == ·) := by cases b <;> rfl

/-- The pick of row `n` reads the commands of its kind. -/
theorem playPick (n : Nat) (b : CommandBody) : (playPicks b).getD n false =
    ([.rearm, .wrap, .resume, .recover, .brk, .advance, .jog, .goto, .controlRelease, .punchIn].map (b.kind == ·)).getD n false :=
  congrArg (·.getD n false) (playPicks_eq b)

/-- Whether the picks of the rows of the edits read a command, row by row. -/
def editPicks (b : CommandBody) : List Bool :=
  [(pickPunchOut b).isSome, (pickMasterRate b).isSome, (pickMark b).isSome, (pickUnmark b).isSome,
   (pickCuePoints b).isSome, (pickTrim b).isSome, (pickDelete b).isSome, (pickLensPoint b).isSome,
   (pickLensCommit b).isSome, (pickZoneArm b).isSome]

theorem editPicks_eq (b : CommandBody) : editPicks b =
    [.punchOut, .masterRate, .mark, .unmark, .cuePoints, .trim, .delete, .lensPoint, .lensCommit, .zoneArm].map (b.kind == ·) := by cases b <;> rfl

/-- The pick of row `n` reads the commands of its kind. -/
theorem editPick (n : Nat) (b : CommandBody) : (editPicks b).getD n false =
    ([.punchOut, .masterRate, .mark, .unmark, .cuePoints, .trim, .delete, .lensPoint, .lensCommit, .zoneArm].map (b.kind == ·)).getD n false :=
  congrArg (·.getD n false) (editPicks_eq b)

/-- Whether the picks of the rows of the store and the stops read a command, row by row. -/
def storePicks (b : CommandBody) : List Bool :=
  [(pickZoneDisarm b).isSome, (pickZoneAck b).isSome, (pickFaultClear b).isSome, (pickTakeRead b).isSome,
   (pickLoadBegin b).isSome, (pickLoadEnd b).isSome, (pickReset b).isSome, (pickStopClear b).isSome,
   (pickArmRecord b).isSome, (pickCue b).isSome]

theorem storePicks_eq (b : CommandBody) : storePicks b =
    [.zoneDisarm, .zoneAck, .faultClear, .takeRead, .takeLoadBegin, .takeLoadEnd, .reset, .stopClear, .armRecord,
     .cue].map (b.kind == ·) := by cases b <;> rfl

/-- The pick of row `n` reads the commands of its kind. -/
theorem storePick (n : Nat) (b : CommandBody) : (storePicks b).getD n false =
    ([.zoneDisarm, .zoneAck, .faultClear, .takeRead, .takeLoadBegin, .takeLoadEnd, .reset, .stopClear, .armRecord,
     .cue].map (b.kind == ·)).getD n false :=
  congrArg (·.getD n false) (storePicks_eq b)

/-- The subject and the parameter of a query. -/
def queryFields : CommandBody → Option (BitVec 8 × BitVec 8)
  | .query subject low => some (subject, low)
  | _ => none

theorem queryFields_kind (b : CommandBody) : (queryFields b).isSome = (b.kind == .query) := by cases b <;> rfl

theorem query_of_kind {b : CommandBody} (h : b.kind = .query) : ∃ subject low, b = .query subject low := by
  obtain ⟨x, hx⟩ := Option.isSome_iff_exists.mp ((queryFields_kind b).trans (beq_iff_eq.mpr h))
  rw [queryFields.eq_def] at hx
  split at hx
  · exact ⟨_, _, rfl⟩
  · cases hx

/-- A row takes the queries that `pick` reads, where both leave every other command. -/
theorem takesQuery_of {α : Type} {i : Instr} {pick : CommandBody → Option α} {target tag : BitVec 8}
    (hquery : ∀ subject low, rowTakes i .query (.command target tag (.query subject low)) =
      (pick (.query subject low)).isSome)
    (hother : ∀ b, (∀ subject low, b ≠ .query subject low) → pick b = none) (b : CommandBody) :
    rowTakes i .query (.command target tag b) = (pick b).isSome := by
  by_cases hk : b.kind = .query
  · obtain ⟨subject, low, rfl⟩ := query_of_kind hk
    exact hquery subject low
  · have hno : (Payload.command target tag b).kind ≠ .query := hk
    rw [hother b fun subject low hb => hk (hb ▸ rfl)]
    exact rowTakes_of_ne hno

/-- What a pick that reads queries alone reads is a query. -/
theorem kind_of_query {α : Type} {pick : CommandBody → Option α}
    (hother : ∀ b, (∀ subject low, b ≠ .query subject low) → pick b = none) {b : CommandBody} {x : α}
    (hx : pick b = some x) : ∃ subject low, b = .query subject low := by
  by_contra hno
  rw [hother b fun subject low hb => hno ⟨subject, low, hb⟩] at hx
  cases hx

theorem pickQueryCounters_other (b : CommandBody) (h : ∀ subject low, b ≠ .query subject low) :
    pickQueryCounters b = none := by
  rw [pickQueryCounters]
  exact fun subject low hb => h subject low hb

theorem pickQueryMarker_other (b : CommandBody) (h : ∀ subject low, b ≠ .query subject low) :
    pickQueryMarker b = none := by
  rw [pickQueryMarker]
  exact fun subject low hb => h subject low hb

theorem pickQueryTrip_other (b : CommandBody) (h : ∀ subject low, b ≠ .query subject low) :
    pickQueryTrip b = none := by
  rw [pickQueryTrip]
  exact fun subject low hb => h subject low hb

theorem pickQueryDirectory_other (b : CommandBody) (h : ∀ subject low, b ≠ .query subject low) :
    pickQueryDirectory b = none := by
  rw [pickQueryDirectory]
  exact fun subject low hb => h subject low hb

theorem stopClear_refuses : RowRefuses .stopClear .stopClear := by
  refine rowRefuses_ofKind (pick := pickStopClear) (.stopClear 0) (storePick 7) (hearly := fun c b n u hx hno => ?_)
  rw [pickStopClear.eq_def] at hx
  split at hx <;> cases hx
  exact if_pos (Nat.lt_of_not_le hno)

theorem armRecord_refuses : RowRefuses .armRecord .armRecord := by
  refine rowRefuses_ofKind (pick := pickArmRecord) (.armRecord 0 0 0 0 false) (storePick 8)
    (hearly := fun c b x u hx hno => ?_)
  rw [pickArmRecord.eq_def] at hx
  split at hx <;> cases hx
  exact if_pos (Bool.eq_true_of_not_eq_false hno)

theorem cue_refuses : RowRefuses .cue .cue := by
  refine rowRefuses_ofKind (pick := pickCue) (.cue 0 0 .once none 0) (storePick 9)
    (hexec := fun s s1 e ht => congrArg Host.Outcome.next (if_neg (by simp [ht]))) (hearly := fun c b x u hx hno => ?_)
  rw [pickCue.eq_def] at hx
  split at hx <;> cases hx
  exact if_neg hno

theorem queryCounters_refuses : RowRefuses .queryCounters .query := by
  refine rowRefuses_of (pick := pickQueryCounters) (.query 0 0)
    (hpick := fun _ _ => takesQuery_of (fun subject low => ?_) pickQueryCounters_other)
    (hkind := fun b x hx => ?_) (hearly := fun c b x u hx hno => ?_)
  · have htakes : (subject == 0 || decide (3 < subject.toNat)) = decide (subject = 0 ∨ 3 < subject.toNat) := by
      rw [beq_eq_decide, Bool.decide_or]
    exact htakes.trans (isSome_ite _ _).symm
  · obtain ⟨_, _, rfl⟩ := kind_of_query pickQueryCounters_other hx
    rfl
  · obtain ⟨subject, low, rfl⟩ := kind_of_query pickQueryCounters_other hx
    obtain ⟨-, hx⟩ := Option.ite_none_right_eq_some.mp hx
    obtain rfl := Option.some.inj hx
    exact if_neg fun hlt => hno (.inl hlt)

theorem queryMarker_refuses : RowRefuses .queryMarker .query := by
  refine rowRefuses_of (pick := pickQueryMarker) (.query 1 0)
    (hpick := fun _ _ => takesQuery_of (fun subject low => ?_) pickQueryMarker_other)
    (hkind := fun b x hx => ?_) (hearly := fun _ _ _ _ _ _ => rfl)
  · exact (beq_eq_decide subject 1).trans (isSome_ite (subject = 1) _).symm
  · obtain ⟨_, _, rfl⟩ := kind_of_query pickQueryMarker_other hx
    rfl

theorem queryDirectory_refuses : RowRefuses .queryDirectory .query := by
  refine rowRefuses_of (pick := pickQueryDirectory) (.query 3 0)
    (hpick := fun _ _ => takesQuery_of (fun subject low => ?_) pickQueryDirectory_other)
    (hkind := fun b x hx => ?_) (hearly := fun _ _ _ _ _ _ => rfl)
  · exact (beq_eq_decide subject 3).trans (isSome_ite (subject = 3) _).symm
  · obtain ⟨_, _, rfl⟩ := kind_of_query pickQueryDirectory_other hx
    rfl

theorem queryTrip_refuses : RowRefuses .queryTrip .query := by
  refine rowRefuses_of (pick := pickQueryTrip) (.query 2 0)
    (hpick := fun _ _ => takesQuery_of (fun subject low => ?_) pickQueryTrip_other)
    (hkind := fun b x hx => ?_) (hearly := fun c b x u hx hno => ?_)
  · exact (beq_eq_decide subject 2).trans (isSome_ite (subject = 2) _).symm
  · obtain ⟨_, _, rfl⟩ := kind_of_query pickQueryTrip_other hx
    rfl
  · obtain ⟨subject, low, rfl⟩ := kind_of_query pickQueryTrip_other hx
    obtain ⟨hsub, hx⟩ := Option.ite_none_right_eq_some.mp hx
    obtain rfl := Option.some.inj hx
    have hlow : low.toNat < 8 := Nat.lt_of_not_le fun hle => hno (.inr ⟨hsub, hle⟩)
    simp [zoneNamed, hlow]

/-- What holds of the kind that a row names holds of the kind that it has. -/
theorem onKind {i : Instr} {k k' : Kind} (h : RowRefuses i k) (heq : some k = some k') : RowRefuses i k' :=
  Option.some.inj heq ▸ h

/-- A row without a kind needs no argument. -/
theorem withoutKind {i : Instr} {k : Kind} (heq : none = some k) : RowRefuses i k := nomatch heq

theorem playRows_refuse :
    RowRefuses .rearm .rearm ∧ RowRefuses .wrap .wrap ∧ RowRefuses .resume .resume ∧ RowRefuses .recover .recover ∧
    RowRefuses .brk .brk ∧ RowRefuses .advance .advance ∧ RowRefuses .jog .jog ∧ RowRefuses .goto .goto ∧
    RowRefuses .controlRelease .controlRelease ∧ RowRefuses .punchIn .punchIn :=
  ⟨rowRefuses_noEarly (pick := pickRearm) .rearm (playPick 0),
    rowRefuses_noEarly (pick := pickWrap) .wrap (playPick 1),
    rowRefuses_noEarly (pick := pickResume) .resume (playPick 2),
    rowRefuses_noEarly (pick := pickRecover) (.recover 0) (playPick 3),
    rowRefuses_noEarly (pick := pickBreak) .brk (playPick 4),
    rowRefuses_noEarly (pick := pickAdvance) .advance (playPick 5),
    rowRefuses_noEarly (pick := pickJog) (.jog (Table.fill 3 none)) (playPick 6),
    rowRefuses_noEarly (pick := pickGoto) (.goto 0 (Table.fill 3 none)) (playPick 7),
    rowRefuses_noEarly (pick := pickControlRelease) (.controlRelease 0) (playPick 8),
    rowRefuses_noEarly (pick := pickPunchIn) (.punchIn 0 false) (playPick 9)⟩

theorem editRows_refuse :
    RowRefuses .punchOut .punchOut ∧ RowRefuses .masterRate .masterRate ∧ RowRefuses .mark .mark ∧
    RowRefuses .unmark .unmark ∧ RowRefuses .cuePoints .cuePoints ∧ RowRefuses .trim .trim ∧
    RowRefuses .delete .delete ∧ RowRefuses .lensPoint .lensPoint ∧ RowRefuses .lensCommit .lensCommit ∧
    RowRefuses .zoneArm .zoneArm :=
  ⟨rowRefuses_noEarly (pick := pickPunchOut) (.punchOut 0) (editPick 0),
    rowRefuses_noEarly (pick := pickMasterRate) (.masterRate 0) (editPick 1),
    rowRefuses_noEarly (pick := pickMark) (.mark 0 0 0 0 0) (editPick 2),
    rowRefuses_noEarly (pick := pickUnmark) (.unmark 0 0) (editPick 3),
    rowRefuses_noEarly (pick := pickCuePoints) (.cuePoints 0 []) (editPick 4),
    rowRefuses_noEarly (pick := pickTrim) (.trim 0 0) (editPick 5),
    rowRefuses_noEarly (pick := pickDelete) (.delete 0) (editPick 6),
    rowRefuses_noEarly (pick := pickLensPoint) (.lensPoint 0 0 0 0) (editPick 7),
    rowRefuses_noEarly (pick := pickLensCommit) (.lensCommit 0 0) (editPick 8),
    rowRefuses_noEarly (pick := pickZoneArm) (.zoneArm 0) (editPick 9)⟩

theorem storeRows_refuse :
    RowRefuses .zoneDisarm .zoneDisarm ∧ RowRefuses .zoneAck .zoneAck ∧ RowRefuses .faultClear .faultClear ∧
    RowRefuses .takeRead .takeRead ∧ RowRefuses .takeLoadBegin .takeLoadBegin ∧
    RowRefuses .takeLoadEnd .takeLoadEnd ∧ RowRefuses .reset .reset :=
  ⟨rowRefuses_noEarly (pick := pickZoneDisarm) (.zoneDisarm 0) (storePick 0),
    rowRefuses_noEarly (pick := pickZoneAck) (.zoneAck 0) (storePick 1),
    rowRefuses_noEarly (pick := pickFaultClear) (.faultClear 0) (storePick 2),
    rowRefuses_noEarly (pick := pickTakeRead) (.takeRead 0 0 0) (storePick 3),
    rowRefuses_noEarly (pick := pickLoadBegin) (.takeLoadBegin 0 0 0 0 0) (storePick 4),
    rowRefuses_noEarly (pick := pickLoadEnd) (.takeLoadEnd 0) (storePick 5),
    rowRefuses_noEarly (pick := pickReset) .reset (storePick 6)⟩

theorem checkedRow_refuses {i : Instr} {k : Kind} (h : checkedRow i = some k) : RowRefuses i k := by
  obtain ⟨hrearm, hwrap, hresume, hrecover, hbrk, hadvance, hjog, hgoto, hcontrolRelease, hpunchIn⟩ := playRows_refuse
  obtain ⟨hpunchOut, hmasterRate, hmark, hunmark, hcuePoints, htrim, hdelete, hlensPoint, hlensCommit, hzoneArm⟩ := editRows_refuse
  obtain ⟨hzoneDisarm, hzoneAck, hfaultClear, htakeRead, htakeLoadBegin, htakeLoadEnd, hreset⟩ := storeRows_refuse
  cases i with
  | stopClear => exact onKind stopClear_refuses h
  | armRecord => exact onKind armRecord_refuses h
  | cue => exact onKind cue_refuses h
  | queryCounters => exact onKind queryCounters_refuses h
  | queryMarker => exact onKind queryMarker_refuses h
  | queryDirectory => exact onKind queryDirectory_refuses h
  | queryTrip => exact onKind queryTrip_refuses h
  | rearm => exact onKind hrearm h
  | wrap => exact onKind hwrap h
  | resume => exact onKind hresume h
  | recover => exact onKind hrecover h
  | brk => exact onKind hbrk h
  | advance => exact onKind hadvance h
  | jog => exact onKind hjog h
  | goto => exact onKind hgoto h
  | controlRelease => exact onKind hcontrolRelease h
  | punchIn => exact onKind hpunchIn h
  | punchOut => exact onKind hpunchOut h
  | masterRate => exact onKind hmasterRate h
  | mark => exact onKind hmark h
  | unmark => exact onKind hunmark h
  | cuePoints => exact onKind hcuePoints h
  | trim => exact onKind htrim h
  | delete => exact onKind hdelete h
  | lensPoint => exact onKind hlensPoint h
  | lensCommit => exact onKind hlensCommit h
  | zoneArm => exact onKind hzoneArm h
  | zoneDisarm => exact onKind hzoneDisarm h
  | zoneAck => exact onKind hzoneAck h
  | faultClear => exact onKind hfaultClear h
  | takeRead => exact onKind htakeRead h
  | takeLoadBegin => exact onKind htakeLoadBegin h
  | takeLoadEnd => exact onKind htakeLoadEnd h
  | reset => exact onKind hreset h
  | _ => exact withoutKind h

/-- The three checks on arrival, and which fails first. -/
theorem commandRefusal_cases (s : State) (c : Command) :
    (s.tc.mode = .unconfigured → c.kind ≠ .query → c.kind ≠ .reset → commandRefusal s c = some .unconfigured) ∧
    ((s.tc.mode ≠ .unconfigured ∨ c.kind = .query) → addressedOnly c.kind = true → c.target = 0xFF →
      commandRefusal s c = some .notAddressed) ∧
    ((s.tc.mode ≠ .unconfigured ∨ c.kind = .query ∨ c.kind = .reset) → (addressedOnly c.kind = false ∨ c.target ≠ 0xFF) →
      c.kind ≠ .advance → inMask s.cl.cfg.permitted c.sender = false → commandRefusal s c = some .notPermitted) := by
  refine ⟨fun hm hq hr => ?_, fun hm ha ht => ?_, fun hm ha hadv hperm => ?_⟩
  · rw [commandRefusal, if_pos ⟨hm, hq, hr⟩]
  · have hfirst : ¬ (s.tc.mode = .unconfigured ∧ c.kind ≠ .query ∧ c.kind ≠ .reset) := by tauto
    rw [commandRefusal, if_neg hfirst, if_pos ⟨ha, ht⟩]
  · have hfirst : ¬ (s.tc.mode = .unconfigured ∧ c.kind ≠ .query ∧ c.kind ≠ .reset) := by tauto
    have hsecond : ¬ (addressedOnly c.kind = true ∧ c.target = targetAll) := by
      rintro ⟨h1, h2⟩
      rcases ha with ha | ha
      · simp [ha] at h1
      · exact ha h2
    rw [commandRefusal, if_neg hfirst, if_neg hsecond, if_pos ⟨hadv, by simp [hperm]⟩]

/-- Settles O8: an answer is a hand-over, and each row of a command refuses by the checks in their order. -/
theorem commandsAreCheckedAndAnswered : Obligations.CommandsAreCheckedAndAnswered := by
  refine ⟨fun c r d s => ⟨answer_shown d s, answer_silent d s, answer_changesOnly c r d s⟩,
    fun i k s s1 e target tag body hi ht hp hno => ?_⟩
  obtain ⟨-, -, -, -, -, htc, -, -, -, hcl, -⟩ := takeOffer_frame ht
  obtain ⟨hunconf, haddr, hperm⟩ := commandRefusal_cases s1 (entryCommand e target tag k)
  have hrow : ∀ why, commandRefusal s1 (entryCommand e target tag k) = some why → exec i s = .next (handOver
      (.answer { station := e.sender, kind := k, tag := tag, result := .refused why, detail := {} }) s1) := fun why hr =>
    (checkedRow_refuses hi s s1 e target tag body why ht hp hno hr).trans
      (congrArg Host.Outcome.next (refuse_eq _ why s1))
  rw [htc] at hunconf haddr hperm
  rw [hcl] at hperm
  exact ⟨fun hm hq hr => hrow _ (hunconf hm hq hr), fun hm ha h => hrow _ (haddr hm ha h),
    fun hm ha hadv h => hrow _ (hperm hm ha hadv h)⟩

end Sys2Proof.Machine
end


section
/-! PROOFS. The queries (O9), PACE (O10), and the roll answers (O40). -/

namespace Sys2Proof.Machine

/-! ### Queries (R16, R117, R159) -/

-- In place, so that the parts of the text are elaborated one after the other and not all at once.
set_option Elab.async false in
/-- What is delivered as a query of the counters was asked with that subject, or with an unknown one. -/
theorem queryCounters_subject {e : RxEntry} {c : Command} {x : BitVec 8 × BitVec 8}
    (h : commandOf pickQueryCounters e = some (c, x)) : x.1 = 0 ∨ 3 < x.1.toNat := by
  simp only [commandOf] at h
  split at h
  · next target tag body _ =>
    simp only [Option.map_eq_some_iff] at h
    obtain ⟨y, hy, heq⟩ := h
    cases heq
    obtain ⟨subject, low, rfl⟩ := kind_of_query pickQueryCounters_other hy
    obtain ⟨hsub, hx⟩ := Option.ite_none_right_eq_some.mp hy
    obtain rfl := Option.some.inj hx
    exact hsub
  · cases h

/-- A command that is taken and counted malformed before its checks, or acted on otherwise before them. -/
theorem withCommand_early {α : Type} {pick : CommandBody → Option α} {early : Command → α → State → Option State}
    {act : Command → α → State → State} {s s1 u : State} {e : RxEntry} {c : Command} {x : α}
    (ht : takeOffer (picksCommand pick) s = some (e, s1)) (hc : commandOf pick e = some (c, x))
    (he : early c x s1 = some u) : withCommand pick early act s = u := by
  simp [withCommand, ht, hc, he]

/-- A frame of no replaceable kind that finds room joins the transmit queue. -/
theorem handOver_joins {p : Payload} {s : State} (hk : p.kind ≠ .pace) (hk' : p.kind ≠ .state)
    (hlink : s.lc.link ≠ .fault) (hlen : s.lc.txq.length < 8) :
    (handOver p s).lc.counters = s.lc.counters ∧ ∃ before after, s.lc.txq = before ++ after ∧
      (handOver p s).lc.txq = before ++ newFrame p :: after := by
  have hnone : ∀ f ∈ s.lc.txq, replaceable p.kind f = false := fun f _ => by
    simp [replaceable, coalesces, hk, hk']
  have hq := queueFrame_joins hnone hlen
  obtain ⟨before, after, hsplit, -, -, heq⟩ := insertFrame_split p s.lc.txq
  refine ⟨by simp [handOver_counters p hlink, hq], before, after, hsplit, ?_⟩
  rw [handOver_txq p hlink, hq, heq]

/-- The mask of one member. -/
theorem one_shiftLeft_bit {n : Nat} (i j : Fin n) : (1#n <<< j.val).getLsbD i.val = decide (i = j) := by
  refine (BitVec.getLsbD_twoPow j.val i.val).trans ?_
  rw [decide_eq_true j.isLt, Bool.true_and]
  exact decide_eq_decide.mpr (eq_comm.trans Fin.ext_iff.symm)

/-- Bit i of the set of the inputs with a property. -/
theorem inputSet_bit (p : Input → Bool) (i : Input) : (inputSet p).getLsbD i.val = p i := by
  have hfold : ∀ (l : List Input) (m : BitVec 8), (l.foldl (fun m i => if p i then m ||| (1#8 <<< i.val) else m) m).getLsbD
      i.val = (m.getLsbD i.val || (decide (i ∈ l) && p i)) := by
    intro l
    induction l with
    | nil => simp
    | cons j l ih =>
      intro m
      have hstep : (if p j then m ||| (1#8 <<< j.val) else m).getLsbD i.val = (m.getLsbD i.val || (decide (i = j) && p i)) := by
        by_cases hij : i = j
        · subst hij
          by_cases hp : p i = true <;> simp [hp]
        · split
          · rw [BitVec.getLsbD_or, one_shiftLeft_bit]
            simp [hij]
          · simp [hij]
      rw [List.foldl_cons, ih, hstep]
      simp only [List.mem_cons, Bool.decide_or, Bool.or_assoc, Bool.and_or_distrib_right]
  have hall := hfold allInputs 0
  simpa [inputSet, allInputs] using hall

theorem activeFor_bit (s : State) (z : Zone) (i : Input) :
    (activeFor s z).getLsbD i.val = true ↔ inputActiveFor s z i := by
  rw [activeFor, inputSet_bit, Bool.and_eq_true, inputActiveFor]
  cases (s.cl.cfg.inputs.get i).mode <;> simp

theorem zoneOf_setZone (z y : Zone) (r : ZoneRecord) (s : State) :
    zoneOf (setZone z r s) y = if z = y then r else zoneOf s y := by
  simp [zoneOf, setZone, Table.get_set]

/-- Settles O9: each query reports and empties its record, or is counted malformed before its checks. -/
theorem queriesReport : Obligations.QueriesReport := by
  refine ⟨fun s s1 c x hd hx hlink hlen => ?_, fun s s1 e c x ht hc hx => ?_, fun s s1 c hd => ?_,
    fun s s1 c low z hd hz => ?_, fun s s1 e c low ht hc hlow => ?_⟩
  · have hrun : queryCountersEffect s = handOver (.counters c.tag s1.lc.counters) (setCounters s1 Counters.zero) :=
      withCommand_of hd (if_neg (by simp [hx]))
    obtain ⟨hcount, before, after, hsplit, heq⟩ := handOver_joins (p := .counters c.tag s1.lc.counters)
      (s := setCounters s1 Counters.zero) (by simp [Payload.kind]) (by simp [Payload.kind]) hlink hlen
    obtain ⟨-, -, -, hsame⟩ := hd.lc
    have hframe := hd.frame
    refine ⟨_, congrArg Host.Outcome.next hrun, ?_, ?_, hcount, before, after, hsplit, heq⟩
    · exact hd.changesOnly.trans ((changesOnly_lc (.head _)).trans (handOver_changesOnly _ _))
    · obtain ⟨h1, h2, h3, h4⟩ := (handOver_link (.counters c.tag s1.lc.counters) (setCounters s1 Counters.zero)).1
      obtain ⟨h1', h2', h3', h4'⟩ := hsame
      exact ⟨h1.trans h1', h2.trans h2', h3.trans h3', h4.trans h4'⟩
  · exact congrArg Host.Outcome.next (withCommand_early ht hc (if_pos hx))
  · obtain ⟨-, -, -, -, -, -, hpu, -⟩ := hd.frame
    refine congrArg Host.Outcome.next ((withCommand_noEarly hd).trans ?_)
    rw [hpu]
  · have hname : zoneNamed low = some z := by simp [zoneNamed, hz]
    obtain ⟨hpt, hax, hlmu, hts, hfd, htc, hpu, hgu, hsu, hcl, hpend⟩ := hd.frame
    have hzone : ∀ y, zoneOf s1 y = zoneOf s y := fun y => by rw [zoneOf, hgu, zoneOf]
    have hrun : queryTripEffect s =
        handOver (tripReport c z s1) (setZone z { zoneOf s1 z with trip := none, overrun := false } s1) := by
      refine (withCommand_of hd (by simp [hname])).trans ?_
      simp [hname]
    refine ⟨setZone z { zoneOf s1 z with trip := none, overrun := false } s1, activeFor s1 z, ?_, ?_, rfl, ?_, ?_, ?_, ?_⟩
    · refine congrArg Host.Outcome.next (hrun.trans ?_)
      rw [tripReport, hzone]
    · exact (hd.changesOnly.among (.head _)).trans (changesOnly_gu (.tail _ (.head _)))
    · simp [setZone, hgu]
    · simp [zoneOf_setZone, hzone]
    · exact fun y hy => by rw [zoneOf_setZone, if_neg (Ne.symm hy), hzone]
    · intro i
      rw [activeFor_bit]
      simp only [inputActiveFor, zoneCfg, hcl, hgu, hzone]
  · exact congrArg Host.Outcome.next (withCommand_early ht hc (by simp [zoneNamed, Nat.not_lt.mpr hlow]))

/-! ### PACE (R26, R114) -/

theorem peer_setPeer (n m : Station) (e : PeerEntry) (s : State) :
    peer (setPeer n e s) m = if n = m then e else peer s m := by
  simp [peer, setPeer, Table.get_set]

theorem recordPace_silent {f : PaceFields} {e : PeerEntry} (h : e.liveness = .silent) : recordPace f e = e := if_pos h

theorem recordPace_mode (f : PaceFields) (e : PeerEntry) : (recordPace f e).mode = e.mode := by
  simp only [recordPace]
  split <;> rfl

/-- When the pace unit forms an offset, the peer table taking a PACE frame or not. -/
theorem formsOffset_setPeer (s : State) (e : RxEntry) (f : PaceFields) :
    formsOffset (setPeer e.sender (recordPace f (peer s e.sender)) s) e = true ↔
      e.own = false ∧ isParticipant s e.sender = true ∧ (peer s e.sender).mode = .playing ∧ s.tc.mode = .playing ∧
        s.pu.alignTimer ≠ none := by
  have hpart : isParticipant (setPeer e.sender (recordPace f (peer s e.sender)) s) e.sender = isParticipant s e.sender := rfl
  simp only [formsOffset, hpart, peer_setPeer, if_true, recordPace_mode, Bool.and_eq_true, Bool.not_eq_true', beq_iff_eq,
    Option.isSome_iff_ne_none, and_assoc]
  rfl

/-- Settles O10: the entry of the sender is written and the offset added. -/
theorem paceFrameRecorded : Obligations.PaceFrameRecorded := by
  intro s s1 e f ht hp
  obtain ⟨hpt, hax, hlmu, hts, hfd, htc, hpu, hgu, hsu, hcl, hpend⟩ := takeOffer_frame ht
  have hpeer : ∀ m, peer s1 m = peer s m := fun m => by rw [peer, hpt, peer]
  have hpart : isParticipant s1 e.sender = isParticipant s e.sender := by rw [isParticipant, htc, isParticipant]
  have hforms := formsOffset_setPeer s1 e f
  rw [hpart, hpeer, htc, hpu] at hforms
  generalize hu : setPeer e.sender (recordPace f (peer s e.sender)) s1 = u at hforms
  have hrun : paceEffect s = if formsOffset u e then u.setPu (addOffset (tdiff f.time e.mark.time) u.pu) else u := by
    rw [← hu, ← hpeer]
    simp only [paceEffect, show takeOffer (fun p => p.kind == .pace) s = some (e, s1) from ht, hp]
  have hpeers : ∀ m, peer u m = if e.sender = m then recordPace f (peer s e.sender) else peer s m := fun m => by
    rw [← hu, peer_setPeer, hpeer]
  have hpu' : u.pu = s.pu := by rw [← hu]; exact hpu
  have hsame : (paceEffect s).lc = s1.lc ∧ (paceEffect s).pt = u.pt ∧ ChangesOnly [.lc, .pt, .pu] s (paceEffect s) := by
    rw [hrun]
    have huframe : u.lc = s1.lc ∧ u.ax = s.ax ∧ u.lmu = s.lmu ∧ u.ts = s.ts ∧ u.fd = s.fd ∧ u.tc = s.tc ∧ u.gu = s.gu ∧
        u.su = s.su ∧ u.cl = s.cl ∧ u.pending = s.pending := by
      rw [← hu]
      exact ⟨rfl, hax, hlmu, hts, hfd, htc, hgu, hsu, hcl, hpend⟩
    split <;> simp [changesOnly_iff, huframe]
  obtain ⟨hlc, hptu, honly⟩ := hsame
  have hpeert : ∀ m, peer (paceEffect s) m = peer u m := fun m => by rw [peer, hptu, peer]
  refine ⟨_, rfl, honly, hlc, ?_, fun m hm => ?_, fun hl => ?_, fun hl => ?_, fun h => ?_, fun h => ?_⟩
  · rw [hptu, ← hu]
    show s1.pt.stateTimer = _
    rw [hpt]
  · rw [hpeert, hpeers, if_neg (Ne.symm hm)]
  · rw [hpeert, hpeers, if_pos rfl, recordPace_silent hl]
  · rw [hpeert, hpeers, if_pos rfl, recordPace, if_neg hl]
  · rw [hrun, if_pos (hforms.mpr h), hpu']
    rfl
  · rw [hrun, if_neg fun hf => h (hforms.mp hf), hpu']

/-! ### The answers to a roll (R107, R108) -/

theorem modeEffects_ts {old : Mode} (m : Mode) (s : State) (h : old ≠ .idle) : (modeEffects old m s).ts = s.ts := by
  simp only [modeEffects, h, false_and, if_false]
  split <;> split <;> rfl

theorem setMode_ts {s : State} (m : Mode) (h : s.tc.mode ≠ .idle) : (setMode m s).ts = s.ts := by
  simp only [setMode]
  split <;> split <;> simp [modeEffects_ts m _ h]

/-- A change of mode but from IDLE leaves the take store alone too. -/
theorem setMode_changesOnly {s : State} (m : Mode) (h : s.tc.mode ≠ .idle) :
    ChangesOnly [.lc, .pt, .fd, .tc, .pu] s (setMode m s) := by
  simp [changesOnly_iff, setMode_ts m h]

theorem cancelRoll_tc (cause : CancelCause) (s : State) : (cancelRoll cause s).tc = { s.tc with
    mode := if s.tc.roll.mode = some .record then .armed else .ready,
    roll := { s.tc.roll with window := none, result := .cancelled cause } } := by
  simp [cancelRoll]

theorem cancelRoll_changesOnly {cause : CancelCause} {s : State} (h : s.tc.mode = .rolling) :
    ChangesOnly [.lc, .pt, .fd, .tc, .pu] s (cancelRoll cause s) := by
  refine ChangesOnly.trans (t := s.setTc { s.tc with roll := { s.tc.roll with window := none, result := .cancelled cause } })
    ?_ (setMode_changesOnly _ (by simp [h]))
  exact changesOnly_tc (by decide)

theorem acceptStation_mask (n m : Station) (set : BitVec 16) :
    inMask (acceptStation n set) m = (inMask set m || m == n) := by
  rw [inMask, acceptStation, BitVec.getLsbD_or, one_shiftLeft_bit, inMask, beq_eq_decide]

theorem takeOffer_changesOnly {want : Payload → Bool} {s s1 : State} {e : RxEntry}
    (h : takeOffer want s = some (e, s1)) : ChangesOnly [.lc] s s1 := by
  obtain ⟨hpt, hax, hlmu, hts, hfd, htc, hpu, hgu, hsu, hcl, hpend⟩ := takeOffer_frame h
  exact (changesOnly_iff _ _ _).mpr ⟨(absurd (.head _) ·), fun _ => hpt, fun _ => hax, fun _ => hlmu, fun _ => hts,
    fun _ => hfd, fun _ => htc, fun _ => hpu, fun _ => hgu, fun _ => hsu, fun _ => hcl, hpend⟩

theorem answersWindow_iff (s : State) (sender : Station) (number : BitVec 8) : answersWindow s sender number = true ↔
    s.tc.mode = .rolling ∧ s.tc.roll.window ≠ none ∧ number = s.tc.roll.number ∧ isParticipant s sender = true := by
  simp [answersWindow, Option.isSome_iff_ne_none, and_assoc]

/-- Settles O40: an answer to the open window is entered, any other is dropped. -/
theorem rollAnswersAreCounted : Obligations.RollAnswersAreCounted := by
  intro s s1 e number reason
  have hanswers : ∀ {k}, TakenFrame k s e s1 → (answersWindow s1 e.sender number = true ↔
      s.tc.mode = .rolling ∧ s.tc.roll.window ≠ none ∧ number = s.tc.roll.number ∧ isParticipant s e.sender = true) := by
    intro k ht
    obtain ⟨-, -, -, -, -, htc, -⟩ := takeOffer_frame ht
    rw [answersWindow_iff, isParticipant, isParticipant, htc]
  refine ⟨fun ht hp => ?_, fun ht hp => ?_⟩
  · have htake : takeOffer (fun p => p.kind == .rollAccept) s = some (e, s1) := ht
    have hrun : rollAcceptEffect s = if answersWindow s1 e.sender number then
        s1.setTc { s1.tc with roll := { s1.tc.roll with accepted := acceptStation e.sender s1.tc.roll.accepted } }
        else s1 := by
      simp only [rollAcceptEffect, htake, hp]
    obtain ⟨-, -, -, -, -, htc, -⟩ := takeOffer_frame ht
    refine ⟨fun h => ⟨_, congrArg Host.Outcome.next (hrun.trans (if_pos ((hanswers ht).mpr h))), ?_, rfl, ?_, fun n => ?_⟩,
      fun h => congrArg Host.Outcome.next (hrun.trans (if_neg (fun ha => h ((hanswers ht).mp ha))))⟩
    · exact ((takeOffer_changesOnly htake).among (.head _)).trans (changesOnly_tc (.tail _ (.head _)))
    · simp [htc]
    · rw [setTc_tc, htc]
      exact acceptStation_mask _ _ _
  · have htake : takeOffer (fun p => p.kind == .rollRefuse) s = some (e, s1) := ht
    have hrun : rollRefuseEffect s =
        if answersWindow s1 e.sender number then cancelRoll (.refused e.sender reason) s1 else s1 := by
      simp only [rollRefuseEffect, htake, hp]
    obtain ⟨-, -, -, -, -, htc, -⟩ := takeOffer_frame ht
    refine ⟨fun h => ⟨_, congrArg Host.Outcome.next (hrun.trans (if_pos ((hanswers ht).mpr h))), ?_, ?_⟩,
      fun h => congrArg Host.Outcome.next (hrun.trans (if_neg (fun ha => h ((hanswers ht).mp ha))))⟩
    · exact ((takeOffer_changesOnly htake).among (.head _)).trans (cancelRoll_changesOnly (htc ▸ h.1))
    · rw [cancelRoll_tc, htc]

end Sys2Proof.Machine
end


section
/-! PROOFS. The line controller under the shared operations: all that they do to it is to hand frames over; and what
hand-overs leave of the queues. -/

namespace Sys2Proof.Machine

/-! ### Hand-overs at the line controller -/

/-- The line controller with a frame handed over. -/
def handed (l : LineController) (p : Payload) : LineController :=
  if l.link = .fault then l
  else { l with
    txq := (queueFrame p l.txq).1,
    counters := if (queueFrame p l.txq).2 then { l.counters with txDrops := bump l.counters.txDrops } else l.counters }

-- In place, so that the parts of the text are elaborated one after the other and not all at once.
set_option Elab.async false in
theorem handOver_handed (p : Payload) (s : State) : (handOver p s).lc = handed s.lc p := by
  simp only [handOver, handed]
  split
  · rfl
  · split <;> rfl

/-- The line controller is handed frames, of which at most n are no PACE and no STATE. -/
def Hands (n : Nat) (l l' : LineController) : Prop :=
  ∃ ps : List Payload, l' = ps.foldl handed l ∧ (ps.filter fun p => !coalesces p.kind).length ≤ n

theorem Hands.refl (l : LineController) : Hands 0 l l := ⟨[], rfl, Nat.le_refl 0⟩

theorem Hands.of_eq {l l' : LineController} (h : l' = l) : Hands 0 l l' := ⟨[], h, Nat.le_refl 0⟩

theorem Hands.trans {n m : Nat} {l l' l'' : LineController} (h : Hands n l l') (h' : Hands m l' l'') :
    Hands (n + m) l l'' := by
  obtain ⟨ps, rfl, hn⟩ := h
  obtain ⟨qs, rfl, hm⟩ := h'
  refine ⟨ps ++ qs, by rw [List.foldl_append], ?_⟩
  rw [List.filter_append, List.length_append]
  omega

theorem Hands.mono {n m : Nat} {l l' : LineController} (h : Hands n l l') (hle : n ≤ m) : Hands m l l' := by
  obtain ⟨ps, heq, hn⟩ := h
  exact ⟨ps, heq, hn.trans hle⟩

/-- Only PACE and STATE frames are handed over, by both operations. -/
theorem Hands.andThen {n : Nat} {l l' l'' : LineController} (h : Hands n l l') (h' : Hands 0 l' l'') : Hands n l l'' :=
  h.trans h'

theorem Hands.ite {n : Nat} {s t u : State} {p : Prop} [Decidable p] (ht : Hands n s.lc t.lc) (hu : Hands n s.lc u.lc) :
    Hands n s.lc (if p then t else u).lc := by
  split
  · exact ht
  · exact hu

theorem hands_handOver {p : Payload} (s : State) (h : coalesces p.kind = true) : Hands 0 s.lc (handOver p s).lc :=
  ⟨[p], by rw [handOver_handed]; rfl, by simp [h]⟩

theorem hands_any (p : Payload) (s : State) : Hands 1 s.lc (handOver p s).lc :=
  ⟨[p], by rw [handOver_handed]; rfl, List.length_filter_le _ [p]⟩

/-! ### What hand-overs leave -/

/-- Link state, quiet time, phase, count of failures, receive queue and arrival serial are as they were. -/
theorem Hands.link {n : Nat} {l l' : LineController} (h : Hands n l l') :
    l'.link = l.link ∧ l'.quiet = l.quiet ∧ l'.phase = l.phase ∧ l'.failRun = l.failRun ∧ l'.rxq = l.rxq ∧
      l'.nextSerial = l.nextSerial := by
  obtain ⟨ps, rfl, -⟩ := h
  induction ps generalizing l with
  | nil => exact ⟨rfl, rfl, rfl, rfl, rfl, rfl⟩
  | cons p ps ih =>
    obtain ⟨h1, h2, h3, h4, h5, h6⟩ := ih (l := handed l p)
    have hp : (handed l p).link = l.link ∧ (handed l p).quiet = l.quiet ∧ (handed l p).phase = l.phase ∧
        (handed l p).failRun = l.failRun ∧ (handed l p).rxq = l.rxq ∧ (handed l p).nextSerial = l.nextSerial := by
      simp only [handed]
      split <;> exact ⟨rfl, rfl, rfl, rfl, rfl, rfl⟩
    obtain ⟨g1, g2, g3, g4, g5, g6⟩ := hp
    exact ⟨h1.trans g1, h2.trans g2, h3.trans g3, h4.trans g4, h5.trans g5, h6.trans g6⟩

/-- Of the counters the transmit drops alone may differ. -/
theorem Hands.counters {n : Nat} {l l' : LineController} (h : Hands n l l') :
    ∃ m, l'.counters = { l.counters with txDrops := m } := by
  obtain ⟨ps, rfl, -⟩ := h
  induction ps generalizing l with
  | nil => exact ⟨_, rfl⟩
  | cons p ps ih =>
    obtain ⟨m, hm⟩ := ih (l := handed l p)
    have hp : ∃ k, (handed l p).counters = { l.counters with txDrops := k } := by
      simp only [handed]
      split
      · exact ⟨_, rfl⟩
      · split
        · exact ⟨_, rfl⟩
        · exact ⟨_, rfl⟩
    obtain ⟨k, hk⟩ := hp
    exact ⟨m, by rw [List.foldl_cons, hm, hk]⟩

/-- In FAULT nothing is queued. -/
theorem Hands.fault {n : Nat} {l l' : LineController} (h : Hands n l l') (hl : l.link = .fault) : l' = l := by
  obtain ⟨ps, rfl, -⟩ := h
  induction ps with
  | nil => rfl
  | cons p ps ih =>
    have hp : handed l p = l := if_pos hl
    rw [List.foldl_cons, hp]
    exact ih

theorem mem_queueFrame {p : Payload} {q : List TxFrame} {g : TxFrame} (h : g ∈ (queueFrame p q).1) :
    g ∈ q ∨ g = newFrame p := by
  have hins : ∀ r : List TxFrame, g ∈ insertFrame p r → g ∈ r ∨ g = newFrame p := fun r hr => by
    obtain ⟨before, after, hsplit, -, -, heq⟩ := insertFrame_split p r
    rw [heq] at hr
    rw [hsplit]
    exact (List.mem_cons.mp (List.perm_middle.mem_iff.mp hr)).symm
  by_cases hrep : ∃ f ∈ q, replaceable p.kind f = true
  · obtain ⟨before, f, after, hsplit, -, -, heq⟩ := replaceFrame_split hrep
    rw [queueFrame_replaces hrep, heq] at h
    rw [hsplit]
    exact (List.mem_cons.mp (List.perm_middle.mem_iff.mp h)).symm.imp_left fun h =>
      List.perm_middle.mem_iff.mpr (.tail _ h)
  have hnone : ∀ f ∈ q, replaceable p.kind f = false := fun f hf => Bool.eq_false_iff.mpr fun h => hrep ⟨f, hf, h⟩
  by_cases hlen : q.length < 8
  · rw [queueFrame_joins hnone hlen] at h
    exact hins q h
  by_cases hcls : frameClass p = 0
  · obtain ⟨last, hlast⟩ := exists_getLast_of_full (Nat.le_of_not_lt hlen)
    rw [queueFrame_displaces hnone (Nat.le_of_not_lt hlen) hcls hlast] at h
    dsimp only at h
    split at h
    · exact .inl h
    · exact (hins _ h).imp_left List.mem_of_mem_dropLast
  · rw [queueFrame_drops hnone (Nat.le_of_not_lt hlen) hcls] at h
    exact .inl h

/-- No frame comes on the line by a hand-over. -/
theorem Hands.offLine {n : Nat} {l l' : LineController} (h : Hands n l l') (hl : ∀ g ∈ l.txq, g.onLine = false) :
    ∀ g ∈ l'.txq, g.onLine = false := by
  obtain ⟨ps, rfl, -⟩ := h
  induction ps generalizing l with
  | nil => exact hl
  | cons p ps ih =>
    refine ih (l := handed l p) fun g hg => ?_
    simp only [handed] at hg
    split at hg
    · exact hl g hg
    · rcases mem_queueFrame hg with hg | rfl
      · exact hl g hg
      · rfl

/-- A frame that no newer one replaces: of a kind other than PACE and STATE. -/
abbrev plainFrame (g : TxFrame) : Prop := coalesces g.payload.kind = false

theorem plainFrame_iff (g : TxFrame) : plainFrame g ↔ g.payload.kind ≠ .state ∧ g.payload.kind ≠ .pace := by
  simp [plainFrame, coalesces, and_comm]

theorem mem_insertFrame {p : Payload} {q : List TxFrame} {g : TxFrame} (h : g ∈ q) : g ∈ insertFrame p q := by
  obtain ⟨before, after, hsplit, -, -, heq⟩ := insertFrame_split p q
  rw [heq]
  rw [hsplit] at h
  simp only [List.mem_append, List.mem_cons] at h ⊢
  tauto

/-- A frame of another kind than PACE and STATE stays, when a PACE or a STATE is handed over, or any where there is
room. -/
theorem queueFrame_keepsPlain {p : Payload} {q : List TxFrame} {g : TxFrame} (hg : g ∈ q) (hplain : plainFrame g)
    (h : coalesces p.kind = true ∨ q.length < 8) : g ∈ (queueFrame p q).1 := by
  by_cases hrep : ∃ f ∈ q, replaceable p.kind f = true
  · obtain ⟨before, f, after, hsplit, hf, -, heq⟩ := replaceFrame_split hrep
    rw [queueFrame_replaces hrep, heq]
    rw [hsplit] at hg
    have hne : g ≠ f := by
      rintro rfl
      simp only [replaceable, Bool.and_eq_true, beq_iff_eq] at hf
      rw [plainFrame, hf.1.2, hf.1.1] at hplain
      cases hplain
    exact List.perm_middle.mem_iff.mpr
      (.tail _ ((List.mem_cons.mp (List.perm_middle.mem_iff.mp hg)).resolve_left hne))
  have hnone : ∀ f ∈ q, replaceable p.kind f = false := fun f hf => Bool.eq_false_iff.mpr fun h => hrep ⟨f, hf, h⟩
  by_cases hlen : q.length < 8
  · rw [queueFrame_joins hnone hlen]
    exact mem_insertFrame hg
  · have hcls : frameClass p ≠ 0 := by
      have hc : coalesces p.kind = true := h.resolve_right hlen
      rw [frameClass]
      simp only [coalesces, Bool.or_eq_true, beq_iff_eq] at hc
      rcases hc with hc | hc <;> rw [hc] <;> decide
    rw [queueFrame_drops hnone (Nat.le_of_not_lt hlen) hcls]
    exact hg

/-- The room that a queue can take up by frames of PACE and STATE, one of each: its length, and one for each of the two
kinds that no frame of it gives place to. -/
def roomFor (q : List TxFrame) : Nat :=
  q.length + (if q.any (replaceable .pace) then 0 else 1) + (if q.any (replaceable .state) then 0 else 1)

theorem replaceable_newFrame (p : Payload) (k : Kind) : replaceable k (newFrame p) = (coalesces k && p.kind == k) := by
  simp [replaceable]

theorem length_le_roomFor (q : List TxFrame) : q.length ≤ roomFor q := by
  simp only [roomFor]
  omega

theorem roomFor_le (q : List TxFrame) : roomFor q ≤ q.length + 2 := by
  simp only [roomFor]
  split <;> split <;> omega

/-- A frame that joins takes up room, unless its kind had none yet. -/
theorem roomFor_join {p : Payload} {before after : List TxFrame}
    (h : ∀ f ∈ before ++ after, replaceable p.kind f = false) : roomFor (before ++ newFrame p :: after) ≤
      roomFor (before ++ after) + if coalesces p.kind then 0 else 1 := by
  have hany : ∀ k, (before ++ newFrame p :: after).any (replaceable k) =
      ((coalesces k && p.kind == k) || (before ++ after).any (replaceable k)) := fun k => by
    rw [List.any_append, List.any_cons, replaceable_newFrame, List.any_append]
    exact Bool.or_left_comm _ _ _
  have hnone : (before ++ after).any (replaceable p.kind) = false := any_replaceable_eq_false h
  have hlen : (before ++ newFrame p :: after).length = (before ++ after).length + 1 :=
    List.perm_middle.length_eq
  simp only [roomFor, hany, hlen]
  generalize (before ++ after).length = n
  by_cases hpace : p.kind = .pace
  · rw [hpace] at hnone ⊢
    rw [hnone]
    generalize (before ++ after).any (replaceable .state) = b
    cases b <;> exact Nat.le_refl _
  · by_cases hstate : p.kind = .state
    · rw [hstate] at hnone ⊢
      rw [hnone]
      generalize (before ++ after).any (replaceable .pace) = b
      cases b <;> exact Nat.le_refl _
    · rw [beq_false_of_ne hpace, beq_false_of_ne hstate, Bool.and_false, Bool.and_false, Bool.false_or, Bool.false_or]
      have hplain : coalesces p.kind = false := by simp [coalesces, hpace, hstate]
      rw [hplain, if_neg Bool.false_ne_true]
      omega

/-- A frame that replaces one of its kind takes up no room. -/
theorem roomFor_replace {p : Payload} {before after : List TxFrame} {f : TxFrame}
    (hf : replaceable p.kind f = true) : roomFor (before ++ newFrame p :: after) = roomFor (before ++ f :: after) := by
  have hany : ∀ k, replaceable k (newFrame p) = replaceable k f := fun k => by
    rw [replaceable_newFrame]
    simp only [replaceable, Bool.and_eq_true, beq_iff_eq, Bool.not_eq_true'] at hf ⊢
    obtain ⟨⟨-, hkind⟩, hline⟩ := hf
    simp [hkind, hline]
  simp only [roomFor, List.any_append, List.any_cons, hany, List.length_append, List.length_cons]

theorem roomFor_queueFrame {p : Payload} {q : List TxFrame} (h : coalesces p.kind = true ∨ q.length < 8) :
    roomFor (queueFrame p q).1 ≤ roomFor q + if coalesces p.kind then 0 else 1 := by
  by_cases hrep : ∃ f ∈ q, replaceable p.kind f = true
  · obtain ⟨before, f, after, rfl, hf, -, heq⟩ := replaceFrame_split hrep
    rw [queueFrame_replaces hrep, heq, roomFor_replace hf]
    exact Nat.le_add_right _ _
  have hnone : ∀ f ∈ q, replaceable p.kind f = false := fun f hf => Bool.eq_false_iff.mpr fun h => hrep ⟨f, hf, h⟩
  by_cases hlen : q.length < 8
  · obtain ⟨before, after, hsplit, -, -, heq⟩ := insertFrame_split p q
    rw [queueFrame_joins hnone hlen, heq]
    subst hsplit
    exact roomFor_join hnone
  · have hc : coalesces p.kind = true := h.resolve_right hlen
    have hcls : frameClass p ≠ 0 := by
      rw [frameClass]
      simp only [coalesces, Bool.or_eq_true, beq_iff_eq] at hc
      rcases hc with hc | hc <;> rw [hc] <;> decide
    rw [queueFrame_drops hnone (Nat.le_of_not_lt hlen) hcls]
    exact Nat.le_add_right _ _

/-- A frame that no newer one replaces stays under hand-overs that find room. -/
theorem Hands.keepsPlain {n : Nat} {l l' : LineController} (h : Hands n l l') (hroom : n = 0 ∨ roomFor l.txq + n ≤ 8)
    {g : TxFrame} (hg : g ∈ l.txq) (hplain : plainFrame g) : g ∈ l'.txq := by
  obtain ⟨ps, rfl, hn⟩ := h
  induction ps generalizing l n with
  | nil => exact hg
  | cons p ps ih =>
    have hstep : coalesces p.kind = true ∨ l.txq.length < 8 := by
      cases hc : coalesces p.kind with
      | true => exact .inl rfl
      | false =>
        rw [List.filter_cons_of_pos (by simp [hc]), List.length_cons] at hn
        have hle := length_le_roomFor l.txq
        exact .inr (by omega)
    by_cases hlink : l.link = .fault
    · have hp : handed l p = l := if_pos hlink
      rw [List.foldl_cons, hp]
      refine ih hroom hg ?_
      exact (((List.sublist_cons_self p ps).filter _).length_le).trans hn
    have htxq : (handed l p).txq = (queueFrame p l.txq).1 := by rw [handed, if_neg hlink]
    have hmem : g ∈ (handed l p).txq := htxq ▸ queueFrame_keepsPlain hg hplain hstep
    have hgrow := roomFor_queueFrame hstep
    rw [List.foldl_cons]
    cases hc : coalesces p.kind with
    | true =>
      rw [List.filter_cons_of_neg (by simp [hc])] at hn
      rw [hc, if_pos rfl] at hgrow
      exact ih (hroom.imp_right fun hr => by rw [htxq]; omega) hmem hn
    | false =>
      rw [List.filter_cons_of_pos (by simp [hc]), List.length_cons] at hn
      rw [hc, if_neg Bool.false_ne_true] at hgrow
      exact ih (n := n - 1) (.inr (by rw [htxq]; omega)) hmem (by omega)

/-! ### The shared operations -/

/-- What holds of the four ways in which the take controller takes a rise holds after it. -/
theorem modeOnRise_cases {P : State → Prop} {s : State} (hsame : P s) (hidle : P (returnToIdle s))
    (hcancel : P (cancelRoll .stopped s)) (hhalt : P (enterHalted s)) : P (modeOnRise s) := by
  have hplay : P (if clsGe s.su.effective .halt then enterHalted s else s) := by
    split
    · exact hhalt
    · exact hsame
  simp only [modeOnRise]
  split
  · exact hidle
  · exact hidle
  · exact hcancel
  · exact hplay
  · exact hplay
  · exact hsame

/-- A class that is formed again stays, falls or rises. -/
theorem classFormed_cases {P : State → Prop} {old : Cls} {trip : TakeTime} {s : State} (hsame : P s)
    (htake : P (takeClass old trip s)) (hrise : P (modeOnRise (takeClass old trip s))) : P (classFormed old trip s) := by
  simp only [classFormed]
  split
  · exact hsame
  · split
    · exact hrise
    · exact htake

/-- A raise finds its claim, or changes the claim set within the class, or forms another class. -/
theorem raiseKey_cases {P : State → Prop} {c : Cause} {cls : Cls} {s : State} (hnone : raisedSet c cls s.su.own = none → P s)
    (hstay : ∀ own, raisedSet c cls s.su.own = some own → P (announce (changeOwn true c own s)))
    (hform : ∀ own trip, raisedSet c cls s.su.own = some own →
      P (classFormed s.su.effective trip (changeOwn true c own s))) : P (raiseKey c cls s) := by
  simp only [raiseKey]
  split
  · next h => exact hnone h
  · next own h =>
    split
    · exact hstay own h
    · exact hform own _ h

/-- A release finds no claim, or changes the claim set within the class, or forms another class. -/
theorem releaseKey_cases {P : State → Prop} {c : Cause} {s : State}
    (hnone : (∀ k ∈ s.su.own, k.cause ≠ c) → P s)
    (hstay : P (announce (changeOwn false c (s.su.own.filter fun k => k.cause != c) s)))
    (htake : ∀ trip, P (takeClass s.su.effective trip (changeOwn false c (s.su.own.filter fun k => k.cause != c) s))) :
    P (releaseKey c s) := by
  simp only [releaseKey]
  split
  · split
    · exact hstay
    · exact htake _
  · next h => exact hnone fun k hk hc => h (List.any_eq_true.mpr ⟨k, hk, beq_iff_eq.mpr hc⟩)

theorem hands_handState (s : State) : Hands 0 s.lc (handState s).lc := by
  simp only [handState]
  split
  · exact .refl _
  · exact hands_handOver (s.setPt _) rfl

theorem hands_handPace (s : State) : Hands 0 s.lc (handPace s).lc := hands_handOver (s.setPu _) rfl

theorem hands_announce (s : State) : Hands 0 s.lc (announce s).lc := Hands.ite (hands_handPace s) (.refl _)

theorem hands_setMode (m : Mode) (s : State) : Hands 0 s.lc (setMode m s).lc := by
  have hfirst : ∀ u : State, u.lc = s.lc → Hands 0 s.lc (if s.tc.mode = m then u else handState u).lc := fun u hu =>
    Hands.ite (.of_eq hu) (hu ▸ hands_handState u)
  have hthen : ∀ u : State, Hands 0 s.lc u.lc → ∀ b : Bool, Hands 0 s.lc (if readyFlag u = b then u else handState u).lc :=
    fun u hu b => Hands.ite hu (hu.andThen (hands_handState u))
  simp only [setMode]
  exact hthen _ (hfirst _ (by simp)) _

theorem hands_takeClass (old : Cls) (trip : TakeTime) (s : State) : Hands 0 s.lc (takeClass old trip s).lc := by
  have hfold : ∀ u : State, (allAxes.foldl (takeClassAt old) u).lc = u.lc := fun u => foldl_keeps State.lc _ (by simp) _ _
  have hreport : ∀ u : State, Hands 0 u.lc (reportClass old u).lc := fun u =>
    (hands_handState u).andThen (Hands.ite (hands_handState _) (.refl _))
  simp only [takeClass, requestTaint_lc]
  refine Hands.andThen ?_ (hreport _)
  rw [hfold, dropLatch_lc]
  exact dropRates_lc old s ▸ hands_announce _

theorem hands_changeOwn (raised : Bool) (c : Cause) (own : List Claim) (s : State) :
    Hands 1 s.lc (changeOwn raised c own s).lc :=
  hands_any _ ((formClass (s.setSu { s.su with own := own })).setSu _)

theorem hands_releaseKey (c : Cause) (s : State) : Hands 1 s.lc (releaseKey c s).lc := by
  have hown := hands_changeOwn false c (s.su.own.filter fun k => k.cause != c) s
  exact releaseKey_cases (P := fun t => Hands 1 s.lc t.lc) (fun _ => (Hands.refl _).mono (Nat.zero_le 1))
    (hown.andThen (hands_announce _)) fun _ => hown.andThen (hands_takeClass _ _ _)

theorem hands_beforeRelease (s : State) : Hands 0 s.lc (beforeRelease s).lc := by
  have hfront : (clearFeeder (allAxes.foldl idleAt (disarm s))).lc = s.lc := by simp
  simp only [beforeRelease]
  generalize clearFeeder (allAxes.foldl idleAt (disarm s)) = u at hfront ⊢
  rw [← hfront]
  exact hands_setMode .idle ((u.setTc _).setPu _)

theorem hands_returnToIdle (s : State) : Hands 1 s.lc (returnToIdle s).lc := by
  rw [returnToIdle_eq]
  exact ((hands_beforeRelease s).trans (hands_releaseKey _ _)).mono (Nat.le_refl _)

theorem hands_cancelRoll (cause : CancelCause) (s : State) : Hands 0 s.lc (cancelRoll cause s).lc := by
  have h := hands_setMode (if s.tc.roll.mode = some .record then .armed else .ready)
    (s.setTc { s.tc with roll := { s.tc.roll with window := none, result := .cancelled cause } })
  rw [setTc_lc] at h
  exact h

theorem hands_enterHalted (s : State) : Hands 1 s.lc (enterHalted s).lc := by
  simp only [enterHalted]
  generalize hu : modContext (fun c => { c with haltSeq := some (seqInPlay s.fd) }) (suspendFeeder s) = u
  have hlc : u.lc = s.lc := by rw [← hu]; rfl
  have hset : Hands 0 s.lc (setMode .halted (u.setPu { u.pu with slices := [] })).lc := by
    rw [← hlc]
    exact hands_setMode .halted (u.setPu _)
  exact Hands.ite ((hset.trans (hands_returnToIdle _)).mono (Nat.le_refl _)) (hset.mono (Nat.zero_le 1))

theorem hands_modeOnRise (s : State) : Hands 1 s.lc (modeOnRise s).lc := by
  exact modeOnRise_cases (P := fun t => Hands 1 s.lc t.lc) ((Hands.refl _).mono (Nat.zero_le 1)) (hands_returnToIdle s)
    ((hands_cancelRoll _ s).mono (Nat.zero_le 1)) (hands_enterHalted s)

theorem hands_classFormed (old : Cls) (trip : TakeTime) (s : State) : Hands 1 s.lc (classFormed old trip s).lc := by
  have htake := hands_takeClass old trip s
  exact classFormed_cases (P := fun t => Hands 1 s.lc t.lc) ((Hands.refl _).mono (Nat.zero_le 1)) (htake.mono (Nat.zero_le 1))
    ((htake.trans (hands_modeOnRise _)).mono (Nat.le_refl _))

theorem hands_raiseKey (c : Cause) (cls : Cls) (s : State) : Hands 2 s.lc (raiseKey c cls s).lc := by
  exact raiseKey_cases (P := fun t => Hands 2 s.lc t.lc) (fun _ => (Hands.refl _).mono (Nat.zero_le 2))
    (fun own _ => ((hands_changeOwn true c own s).andThen (hands_announce _)).mono (Nat.le_succ 1))
    fun own _ _ => (hands_changeOwn true c own s).trans (hands_classFormed _ _ _)

end Sys2Proof.Machine
end


section
/-! PROOFS. What of a state a change of the class looks at, and that raises and releases within the class leave it. -/

namespace Sys2Proof.Machine

/-! ### The view of a change of the class -/

/-- What the statements about a change of the effective class look at is in t as in s. -/
structure SameView (s t : State) : Prop where
  /-- The channels and the punches. -/
  ax : t.ax = s.ax
  /-- The take controller. -/
  tc : t.tc = s.tc
  /-- The feeder. -/
  fd : t.fd = s.fd
  /-- The taint that waits. -/
  taint : t.ts.taintTrip = s.ts.taintTrip
  /-- The class. -/
  effective : t.su.effective = s.su.effective
  /-- The drive latch. -/
  latch : t.su.driveLatch = s.su.driveLatch
  /-- The clocks. -/
  clocks : t.pu.t = s.pu.t ∧ t.pu.tm = s.pu.tm
  /-- The rates and the shift. -/
  rates : t.pu.r = s.pu.r ∧ t.pu.rm = s.pu.rm ∧ t.pu.slices = s.pu.slices

-- In place, so that the parts of the text are elaborated one after the other and not all at once.
set_option Elab.async false in
theorem SameView.refl (s : State) : SameView s s := ⟨rfl, rfl, rfl, rfl, rfl, rfl, ⟨rfl, rfl⟩, rfl, rfl, rfl⟩

theorem SameView.symm {s t : State} (h : SameView s t) : SameView t s := by
  obtain ⟨hax, htc, hfd, htaint, heff, hlatch, ⟨ht, htm⟩, hr, hrm, hslices⟩ := h
  exact ⟨hax.symm, htc.symm, hfd.symm, htaint.symm, heff.symm, hlatch.symm, ⟨ht.symm, htm.symm⟩, hr.symm, hrm.symm,
    hslices.symm⟩

theorem SameView.trans {s t u : State} (h : SameView s t) (g : SameView t u) : SameView s u := by
  obtain ⟨hax, htc, hfd, htaint, heff, hlatch, ⟨ht, htm⟩, hr, hrm, hslices⟩ := g
  obtain ⟨gr, grm, gslices⟩ := h.rates
  exact ⟨hax.trans h.ax, htc.trans h.tc, hfd.trans h.fd, htaint.trans h.taint, heff.trans h.effective,
    hlatch.trans h.latch, ⟨ht.trans h.clocks.1, htm.trans h.clocks.2⟩, hr.trans gr, hrm.trans grm,
    hslices.trans gslices⟩

/-- No change in the line controller, the peer table, the lens maps and the guard unit is seen. -/
theorem sameView_of_changesOnly {s t : State} (h : ChangesOnly [.lc, .pt, .lmu, .gu, .cl] s t) : SameView s t := by
  have hpu : t.pu = s.pu := h.1 .pu (by decide)
  have hsu : t.su = s.su := h.1 .su (by decide)
  have hts : t.ts = s.ts := h.1 .ts (by decide)
  exact ⟨h.1 .ax (by decide), h.1 .tc (by decide), h.1 .fd (by decide), by rw [hts], by rw [hsu], by rw [hsu],
    by rw [hpu]; exact ⟨rfl, rfl⟩, by rw [hpu]; exact ⟨rfl, rfl, rfl⟩⟩

/-- A claim set and an announced ceiling that change within the class are not seen. -/
theorem sameView_of_sameClass {s t : State} {a : Nat} {n : Option Nat} (h : ChangesOnly [.lc, .pu, .su] s t)
    (heff : t.su.effective = s.su.effective) (hlatch : t.su.driveLatch = s.su.driveLatch)
    (hpu : t.pu = { s.pu with announced := a, paceTimer := n }) : SameView s t := by
  have hts : t.ts = s.ts := h.1 .ts (by decide)
  exact ⟨h.1 .ax (by decide), h.1 .tc (by decide), h.1 .fd (by decide), by rw [hts], heff, hlatch,
    by rw [hpu]; exact ⟨rfl, rfl⟩, by rw [hpu]; exact ⟨rfl, rfl, rfl⟩⟩

theorem SameView.axisCh {s t : State} (h : SameView s t) (i : Axis) : axisCh t i = axisCh s i := by
  rw [Machine.axisCh, h.ax, Machine.axisCh]

theorem SameView.wrapPending {s t : State} (h : SameView s t) : wrapPending t = wrapPending s := by
  simp only [Machine.wrapPending, h.tc]

theorem SameView.endsOnRise {s t : State} (h : SameView s t) (new : Cls) : endsOnRise new t = endsOnRise new s := by
  simp only [Machine.endsOnRise, h.tc, h.wrapPending]

/-- A rise of the class, from and to states that look the same. -/
theorem ClassRises.congr {new : Cls} {trip : TakeTime} {s t s' t' : State} (h : ClassRises new trip s t)
    (hs : SameView s s') (ht : SameView t t') : ClassRises new trip s' t' := by
  obtain ⟨gr, grm, -⟩ := hs.rates
  obtain ⟨fr, frm, fslices⟩ := ht.rates
  constructor <;> simp only [hs.axisCh, hs.wrapPending, hs.endsOnRise, hs.tc, hs.fd, hs.taint, hs.latch,
    hs.clocks.1, hs.clocks.2, gr, grm, ht.axisCh, ht.ax, ht.tc, ht.fd, ht.taint, ht.effective, ht.latch,
    ht.clocks.1, ht.clocks.2, fr, frm, fslices]
  exacts [h.formed, h.latch, h.clocks, h.rates, h.slower, h.untouched, h.severed, h.braking, h.stopped, h.punches,
    h.held, h.ended, h.cancelled, h.halted, h.kept, h.taint]

/-- A class that stays, from and to states that look the same. -/
theorem ClassStays.congr {s t s' t' : State} (h : ClassStays s t) (hs : SameView s s') (ht : SameView t t') :
    ClassStays s' t' := by
  obtain ⟨gr, grm, gslices⟩ := hs.rates
  obtain ⟨fr, frm, fslices⟩ := ht.rates
  simp only [ClassStays, hs.effective, hs.latch, hs.tc, hs.fd, hs.clocks.1, hs.clocks.2, gr, grm, gslices,
    ht.effective, ht.latch, ht.tc, ht.fd, ht.clocks.1, ht.clocks.2, fr, frm, fslices]
  exact h

theorem SameView.stays {s t : State} (h : SameView s t) : ClassStays s t := by
  obtain ⟨hr, hrm, hslices⟩ := h.rates
  exact ⟨h.effective, h.latch, h.tc, h.fd, h.clocks.1, h.clocks.2, hr, hrm, hslices⟩

theorem claimsInv_congr {s s' : State} (hsu : s'.su = s.su) (h : ClaimsInv s) : ClaimsInv s' := by
  constructor <;> rw [hsu]
  exacts [h.keys, h.classes, h.mismatch, h.line, h.effective]

/-- What a raise does, from and to states that look the same. -/
theorem OwnClaimActs.congr {cls : Cls} {s t s' t' : State} (h : OwnClaimActs cls s t) (hsu : s'.su = s.su)
    (hs : SameView s s') (ht : SameView t t') : OwnClaimActs cls s' t' := fun hi => by
  obtain ⟨hrises, hstays⟩ := h (claimsInv_congr hsu.symm hi)
  rw [hs.effective, hs.clocks.1]
  refine ⟨fun hlt => (hrises hlt).congr hs ht, fun hle => ?_⟩
  obtain ⟨hst, hch⟩ := hstays hle
  exact ⟨hst.congr hs ht, fun i => by rw [ht.axisCh, hch, hs.axisCh]⟩

/-! ### The own claim set after a raise and a release -/

theorem takeClass_own (old : Cls) (trip : TakeTime) (s : State) : (takeClass old trip s).su.own = s.su.own := by
  rw [(takeClass_blocks old trip s).1]

theorem announce_own (s : State) : (announce s).su.own = s.su.own := by
  rw [show (announce s).su = s.su from (announce_changes s).1.1 .su (by decide)]

/-- A raised key stands in the set with its class. -/
theorem raisedSet_mem {c : Cause} {cls : Cls} {own raised : List Claim} (h : raisedSet c cls own = some raised) :
    ∃ k ∈ raised, k.cause = c ∧ k.cls = cls := by
  simp only [raisedSet] at h
  split at h
  · cases h
    exact ⟨_, List.mem_append_right _ (List.mem_singleton_self _), rfl, rfl⟩
  · next k hfind =>
    have hkc : k.cause = c := beq_iff_eq.mp (List.find?_some (p := fun k : Claim => k.cause == c) hfind)
    obtain ⟨-, h⟩ := Option.ite_none_right_eq_some.mp h
    obtain rfl := Option.some.inj h
    refine ⟨_, List.mem_map.mpr ⟨k, List.mem_of_find?_eq_some hfind, rfl⟩, ?_⟩
    rw [if_pos hkc]
    exact ⟨hkc, rfl⟩

/-- A release takes the claims of its key, and no other. -/
theorem releaseKey_claims (c : Cause) (s : State) :
    (releaseKey c s).su.own = s.su.own.filter fun k => k.cause != c := by
  refine releaseKey_cases (P := fun t => t.su.own = s.su.own.filter fun k => k.cause != c) (fun hnone => ?_) ?_ fun _ => ?_
  · exact (List.filter_eq_self.mpr fun k hk => bne_iff_ne.mpr (hnone k hk)).symm
  · rw [announce_own, changeOwn_own]
  · rw [takeClass_own, changeOwn_own]

theorem mem_releaseKey {c : Cause} {s : State} {k : Claim} :
    k ∈ (releaseKey c s).su.own ↔ k ∈ s.su.own ∧ k.cause ≠ c := by
  rw [releaseKey_claims, List.mem_filter, bne_iff_ne]

/-- The release of a claim below the class leaves the class, where a claim of that class stays. -/
theorem releaseKey_within {c : Cause} {s : State} (heff : s.su.effective = formEffective s.su) {k : Claim}
    (hk : k ∈ s.su.own) (hc : k.cause ≠ c) (hcls : k.cls = s.su.effective) : SameView s (releaseKey c s) := by
  have hle := (formEffective_le (clsRank s.su.effective) s.su).mp (by rw [← heff])
  have hsame : formEffective { s.su with own := s.su.own.filter fun k => k.cause != c } = s.su.effective := by
    apply clsRank_inj
    apply Nat.le_antisymm
    · rw [formEffective_le]
      exact ⟨fun j hj => hle.1 j (List.mem_of_mem_filter hj), hle.2.1, hle.2.2⟩
    · rw [← hcls]
      exact ((formEffective_le _ { s.su with own := _ }).mp (Nat.le_refl _)).1 k
        (List.mem_filter.mpr ⟨hk, by simpa using hc⟩)
  obtain ⟨hb, he, hl, -, a, n, hpu⟩ := releaseKey_sameClass hsame
  exact sameView_of_sameClass hb he hl hpu

/-- A rise at the take controller keeps every claim of another key than PEER-MISMATCH. -/
theorem modeOnRise_claims {s : State} {k : Claim} (hk : k ∈ s.su.own) (hc : k.cause ≠ .peerMismatch) :
    k ∈ (modeOnRise s).su.own := by
  have hidle : ∀ u : State, k ∈ u.su.own → k ∈ (returnToIdle u).su.own := fun u hu => by
    rw [returnToIdle_eq, mem_releaseKey, (beforeRelease_blocks u).1]
    exact ⟨hu, hc⟩
  have hhalt : k ∈ (enterHalted s).su.own := by
    simp only [enterHalted]
    split
    · exact hidle _ (by simpa using hk)
    · simpa using hk
  exact modeOnRise_cases (P := fun t => k ∈ t.su.own) hk (hidle s hk) (by simpa [cancelRoll] using hk) hhalt

/-- A raised key other than PEER-MISMATCH stands with its class, or with a greater one that it had. -/
theorem raiseKey_claims {c : Cause} (hc : c ≠ .peerMismatch) (cls : Cls) (s : State) :
    ∃ k ∈ (raiseKey c cls s).su.own, k.cause = c ∧ clsRank cls ≤ clsRank k.cls := by
  have hstands : ∀ {own : List Claim} {u : State}, raisedSet c cls s.su.own = some own →
      (∀ k ∈ own, k.cause ≠ .peerMismatch → k ∈ u.su.own) → ∃ k ∈ u.su.own, k.cause = c ∧ clsRank cls ≤ clsRank k.cls := by
    intro own u hraised hall
    obtain ⟨k, hk, heq, hcls⟩ := raisedSet_mem hraised
    exact ⟨k, hall k hk (heq ▸ hc), heq, Nat.le_of_eq (congrArg clsRank hcls.symm)⟩
  refine raiseKey_cases (P := fun t => ∃ k ∈ t.su.own, k.cause = c ∧ clsRank cls ≤ clsRank k.cls) raisedSet_none
    (fun own hraised => hstands hraised fun k hk _ => ?_) fun own trip hraised => hstands hraised fun k hk hm => ?_
  · rwa [announce_own, changeOwn_own]
  · have hown : k ∈ (changeOwn true c own s).su.own := by rwa [changeOwn_own]
    have htake : k ∈ (takeClass s.su.effective trip (changeOwn true c own s)).su.own := by rwa [takeClass_own]
    exact classFormed_cases (P := fun t => k ∈ t.su.own) hown htake (modeOnRise_claims htake hm)

/-- The take controller raises no claim. -/
theorem modeOnRise_subset {s : State} {k : Claim} (hk : k ∈ (modeOnRise s).su.own) : k ∈ s.su.own := by
  have hidle : ∀ u : State, k ∈ (returnToIdle u).su.own → k ∈ u.su.own := fun u hu => by
    rw [returnToIdle_eq, mem_releaseKey, (beforeRelease_blocks u).1] at hu
    exact hu.1
  have hhalt : k ∈ (enterHalted s).su.own → k ∈ s.su.own := fun h => by
    simp only [enterHalted] at h
    split at h
    · simpa using hidle _ h
    · simpa using h
  have hcancel : k ∈ (cancelRoll .stopped s).su.own → k ∈ s.su.own := fun h => by simpa [cancelRoll] using h
  exact modeOnRise_cases (P := fun t => k ∈ t.su.own → k ∈ s.su.own) id (hidle s) hcancel hhalt hk

theorem classFormed_subset {old : Cls} {trip : TakeTime} {s : State} {k : Claim}
    (hk : k ∈ (classFormed old trip s).su.own) : k ∈ s.su.own := by
  have htake : k ∈ (takeClass old trip s).su.own → k ∈ s.su.own := fun h => by rwa [takeClass_own] at h
  exact classFormed_cases (P := fun t => k ∈ t.su.own → k ∈ s.su.own) id htake (htake ∘ modeOnRise_subset) hk

/-- A raise raises no other key. -/
theorem mem_raiseKey {c : Cause} {cls : Cls} {s : State} {k : Claim} (hk : k ∈ (raiseKey c cls s).su.own) :
    k.cause = c ∨ ∃ j ∈ s.su.own, j.cause = k.cause := by
  have hset : ∀ own, raisedSet c cls s.su.own = some own → k ∈ own → k.cause = c ∨ ∃ j ∈ s.su.own, j.cause = k.cause := by
    intro own hown hmem
    simp only [raisedSet] at hown
    split at hown
    · cases hown
      rcases List.mem_append.mp hmem with h | h
      · exact .inr ⟨k, h, rfl⟩
      · rw [List.mem_singleton] at h
        exact .inl (by rw [h])
    · split at hown
      · cases hown
        obtain ⟨j, hj, rfl⟩ := List.mem_map.mp hmem
        exact .inr ⟨j, hj, by split <;> rfl⟩
      · cases hown
  refine raiseKey_cases (P := fun t => k ∈ t.su.own → k.cause = c ∨ ∃ j ∈ s.su.own, j.cause = k.cause)
    (fun _ h => .inr ⟨k, h, rfl⟩) (fun own hown h => hset own hown ?_) (fun own trip hown h => hset own hown ?_) hk
  · rwa [announce_own, changeOwn_own] at h
  · have h := classFormed_subset h
    rwa [changeOwn_own] at h

end Sys2Proof.Machine
end


section
/-! PROOFS. The line controller's own events: a frame sent whole, a failed attempt, and an arriving frame. -/

namespace Sys2Proof.Machine

/-! ### Admission (R10) -/

/-- A frame that is admitted meets the receive queue, and another does not. -/
def admitFrame (n : Station) (p : Payload) (mark : StartMark) (own : Bool) (s : State) : State :=
  if admits s own p then enqueueRx n p mark own s else s

-- In place, so that the parts of the text are elaborated one after the other and not all at once.
set_option Elab.async false in
theorem receiveValid_own (n : Station) (p : Payload) (mark : StartMark) (s : State) :
    receiveValid n p mark true s = admitFrame n p mark true (refreshLiveness n s) := by
  simp [receiveValid, admitFrame]

theorem receiveValid_other {n : Station} (p : Payload) (mark : StartMark) {s : State} (h : n ≠ s.cl.station) :
    receiveValid n p mark false s = admitFrame n p mark false (refreshLiveness n s) := by
  simp [receiveValid, admitFrame, h]

theorem receiveValid_duplicate (p : Payload) (mark : StartMark) (s : State) :
    receiveValid s.cl.station p mark false s =
      admitFrame s.cl.station p mark false (duplicateFound (refreshLiveness s.cl.station s)) := by
  simp [receiveValid, admitFrame]

theorem admits_congr {s u : State} (h : u.cl = s.cl) (own : Bool) (p : Payload) : admits u own p = admits s own p := by
  simp only [admits, h]

theorem admitFrame_changesOnly (n : Station) (p : Payload) (mark : StartMark) (own : Bool) (s : State) :
    ChangesOnly [.lc] s (admitFrame n p mark own s) := by
  simp only [admitFrame]
  split
  · exact enqueueRx_changesOnly n p mark own s
  · exact .refl _ s

/-- A counted receive drop, or none. -/
theorem enqueueRx_link (n : Station) (p : Payload) (mark : StartMark) (own : Bool) (s : State) :
    (enqueueRx n p mark own s).lc.txq = s.lc.txq ∧ SameLink s (enqueueRx n p mark own s) := by
  simp only [enqueueRx]
  split
  · exact ⟨rfl, rfl, rfl, rfl, rfl⟩
  · split
    · exact ⟨rfl, rfl, rfl, rfl, rfl⟩
    · split <;> exact ⟨rfl, rfl, rfl, rfl, rfl⟩

theorem admitFrame_link (n : Station) (p : Payload) (mark : StartMark) (own : Bool) (s : State) :
    (admitFrame n p mark own s).lc.txq = s.lc.txq ∧ SameLink s (admitFrame n p mark own s) := by
  simp only [admitFrame]
  split
  · exact enqueueRx_link n p mark own s
  · exact ⟨rfl, rfl, rfl, rfl, rfl⟩

/-- What becomes of the receive queue is told by the queue and the serial, and the counters follow theirs. -/
theorem admitFrame_congr {s u : State} (n : Station) (p : Payload) (mark : StartMark) (own : Bool) (hcl : u.cl = s.cl)
    (hrxq : u.lc.rxq = s.lc.rxq) (hserial : u.lc.nextSerial = s.lc.nextSerial) :
    (admitFrame n p mark own u).lc.rxq = (admitFrame n p mark own s).lc.rxq ∧
      (admitFrame n p mark own u).lc.nextSerial = (admitFrame n p mark own s).lc.nextSerial ∧
      (u.lc.counters = s.lc.counters → (admitFrame n p mark own u).lc.counters = (admitFrame n p mark own s).lc.counters) := by
  simp only [admitFrame, admits_congr hcl]
  split
  · simp only [enqueueRx, hrxq, hserial]
    split
    · exact ⟨rfl, rfl, id⟩
    · split
      · exact ⟨hrxq, hserial, fun hc => by simp [countRxDrop, setCounters, hc]⟩
      · split
        · exact ⟨hrxq, hserial, fun hc => by simp [countRxDrop, setCounters, hc]⟩
        · exact ⟨rfl, rfl, fun hc => by simp [countRxDrop, setCounters, hc]⟩
  · exact ⟨hrxq, hserial, id⟩

/-- The receive queue does not shrink. -/
theorem admitFrame_length (n : Station) (p : Payload) (mark : StartMark) (own : Bool) (s : State) :
    s.lc.rxq.length ≤ (admitFrame n p mark own s).lc.rxq.length := by
  simp only [admitFrame]
  split
  · simp only [enqueueRx]
    split
    · simp
    · split
      · exact Nat.le_refl _
      · split
        · exact Nat.le_refl _
        · next q hq =>
          obtain ⟨l, e, r, hsplit, rfl, -, -⟩ := displaceOldest_split hq
          rw [hsplit]
          simp [countRxDrop, setCounters]
  · exact Nat.le_refl _

/-! ### Liveness (R19) -/

/-- The peer table with an entry LIVE and its silence timer restarted. -/
def madeLive (n : Station) (s : State) : State :=
  setPeer n { peer s n with liveness := .live, silence := some s.cl.cfg.silenceLimit } s

theorem refreshLiveness_present {n : Station} {s : State} (h : (peer s n).liveness ≠ .silent) :
    refreshLiveness n s = madeLive n s := if_neg h

theorem refreshLiveness_return {n : Station} {s : State} (h : (peer s n).liveness = .silent) :
    refreshLiveness n s = releaseKey (.peerSilent n) (madeLive n s) := if_pos h

theorem madeLive_changesOnly (n : Station) (s : State) : ChangesOnly [.pt] s (madeLive n s) := by
  exact changesOnly_pt (.head _)

theorem peer_madeLive (n m : Station) (s : State) : peer (madeLive n s) m =
    if n = m then { peer s n with liveness := .live, silence := some s.cl.cfg.silenceLimit } else peer s m :=
  peer_setPeer n m _ s

/-! ### The peer entries stay -/

theorem handState_entries (s : State) : (handState s).pt.entries = s.pt.entries := by
  simp only [handState]
  split
  · rfl
  · rw [(handOver_changesOnly _ _).1 .pt (by decide)]
    rfl

theorem takeClass_entries (old : Cls) (trip : TakeTime) (s : State) :
    (takeClass old trip s).pt.entries = s.pt.entries := by
  have hfold : ∀ u : State, (allAxes.foldl (takeClassAt old) u).pt = u.pt := fun u =>
    foldl_keeps State.pt _ (by simp) _ _
  have hreport : ∀ u : State, (reportClass old u).pt.entries = u.pt.entries := fun u => by
    simp only [reportClass]
    split
    · rw [handState_entries, handState_entries]
    · exact handState_entries u
  simp only [takeClass, requestTaint_pt, hreport, hfold, dropLatch_pt, announce_pt, dropRates_pt]

theorem releaseKey_entries (c : Cause) (s : State) : (releaseKey c s).pt.entries = s.pt.entries := by
  refine releaseKey_cases (P := fun t => t.pt.entries = s.pt.entries) (fun _ => rfl) ?_ fun _ => ?_
  · rw [announce_pt, changeOwn_pt]
  · rw [takeClass_entries, changeOwn_pt]

theorem setMode_entries {m : Mode} (h : m ≠ .rolling) (s : State) : (setMode m s).pt.entries = s.pt.entries := by
  have heffects : ∀ u : State, (modeEffects s.tc.mode m u).pt = u.pt := fun u => by
    simp only [modeEffects, if_neg h]
    split <;> split <;> simp
  have hthen : ∀ (b : Bool) (u : State),
      (if readyFlag u = b then u else handState u).pt.entries = u.pt.entries := fun b u => by
    split
    · rfl
    · exact handState_entries u
  simp only [setMode, hthen]
  split
  · rw [heffects]
    rfl
  · rw [handState_entries, heffects]
    rfl

theorem returnToIdle_entries (s : State) : (returnToIdle s).pt.entries = s.pt.entries := by
  rw [returnToIdle_eq, releaseKey_entries, beforeRelease, setMode_entries (by decide)]
  simp

theorem modeOnRise_entries (s : State) : (modeOnRise s).pt.entries = s.pt.entries := by
  have hhalt : (enterHalted s).pt.entries = s.pt.entries := by
    simp only [enterHalted]
    split
    · rw [returnToIdle_entries, setMode_entries (by decide)]
      rfl
    · rw [setMode_entries (by decide)]
      rfl
  refine modeOnRise_cases (P := fun t => t.pt.entries = s.pt.entries) rfl (returnToIdle_entries s) ?_ hhalt
  rw [cancelRoll, setMode_entries (by split <;> decide)]
  rfl

theorem classFormed_entries (old : Cls) (trip : TakeTime) (s : State) :
    (classFormed old trip s).pt.entries = s.pt.entries := by
  have htake := takeClass_entries old trip s
  exact classFormed_cases (P := fun t => t.pt.entries = s.pt.entries) rfl htake ((modeOnRise_entries _).trans htake)

theorem raiseKey_entries (c : Cause) (cls : Cls) (s : State) : (raiseKey c cls s).pt.entries = s.pt.entries := by
  refine raiseKey_cases (P := fun t => t.pt.entries = s.pt.entries) (fun _ => rfl) (fun own _ => ?_) fun own trip _ => ?_
  · rw [announce_pt, changeOwn_pt]
  · rw [classFormed_entries, changeOwn_pt]

/-! ### Frames that stay queued -/

/-- A release at a queue with room leaves every frame that no newer one replaces. -/
theorem releaseKey_keepsPlain {c : Cause} {s : State} (h : s.lc.txq.length < 8) {g : TxFrame} (hg : g ∈ s.lc.txq)
    (hplain : plainFrame g) : g ∈ (releaseKey c s).lc.txq := by
  have hstop : g ∈ (changeOwn false c (s.su.own.filter fun k => k.cause != c) s).lc.txq := by
    simp only [changeOwn, handStop, handOver_handed, handed]
    split
    · exact hg
    · exact queueFrame_keepsPlain hg hplain (.inr h)
  exact releaseKey_cases (P := fun t => g ∈ t.lc.txq) (fun _ => hg) ((hands_announce _).keepsPlain (.inl rfl) hstop hplain)
    fun _ => (hands_takeClass _ _ _).keepsPlain (.inl rfl) hstop hplain

/-- The frames that are not on the line are fewer, where one is. -/
theorem offLine_length {q : List TxFrame} {f : TxFrame} (h : q.find? TxFrame.onLine = some f) :
    (q.filter fun g => !g.onLine).length < q.length := by
  refine List.length_filter_lt_length_iff_exists.mpr ⟨f, List.mem_of_find?_eq_some h, ?_⟩
  simpa using List.find?_some h

/-! ### FRAME_SENT_WHOLE (R5, R7, R19) -/

/-- The frame on the line has left the queue, and LINK-LOST has ended, its claim not yet released. -/
def sentOff (s : State) : State := s.setLc { s.lc with
  txq := s.lc.txq.filter fun f => !f.onLine, failRun := 0, phase := .idle,
  link := if s.lc.link = .linkLost then .joined else s.lc.link }

/-- The LINK-LOST claim is released where the link was lost. -/
def linkBack (s : State) : State := if s.lc.link = .linkLost then releaseKey .linkLost (sentOff s) else sentOff s

theorem linkBack_cl (s : State) : (linkBack s).cl = s.cl := by
  simp only [linkBack]
  split
  · rw [releaseKey_cl]
    rfl
  · rfl

theorem frameSentWhole_eq {s : State} {mark : StartMark} {f : TxFrame} (hphase : s.lc.phase = .sending mark)
    (hf : s.lc.txq.find? TxFrame.onLine = some f) : frameSentWholeEffect s =
      admitFrame s.cl.station f.payload mark true (refreshLiveness s.cl.station (linkBack s)) := by
  simp only [frameSentWholeEffect, frameOnLine, hphase, hf, Option.map_some, receiveValid_own, decide_eq_true_eq]
  show admitFrame (linkBack s).cl.station _ _ _ (refreshLiveness (linkBack s).cl.station (linkBack s)) = _
  rw [linkBack_cl]

theorem hands_refreshLiveness (n : Station) (s : State) : Hands 1 s.lc (refreshLiveness n s).lc := by
  by_cases h : (peer s n).liveness = .silent
  · rw [refreshLiveness_return h]
    exact hands_releaseKey _ (madeLive n s)
  · rw [refreshLiveness_present h]
    exact (Hands.refl _).mono (Nat.zero_le 1)

theorem peer_refreshLiveness (n m : Station) (s : State) : peer (refreshLiveness n s) m =
    if n = m then { peer s n with liveness := .live, silence := some s.cl.cfg.silenceLimit } else peer s m := by
  by_cases h : (peer s n).liveness = .silent
  · rw [refreshLiveness_return h, ← peer_madeLive n m s, peer, releaseKey_entries, peer]
  · rw [refreshLiveness_present h, peer_madeLive]

theorem linkBack_present {s : State} (h : s.lc.link ≠ .linkLost) : linkBack s = sentOff s := if_neg h

theorem hands_linkBack (s : State) : Hands 1 (sentOff s).lc (linkBack s).lc := by
  simp only [linkBack]
  split
  · exact hands_releaseKey _ _
  · exact (Hands.refl _).mono (Nat.zero_le 1)

theorem linkBack_entries (s : State) : (linkBack s).pt.entries = s.pt.entries := by
  simp only [linkBack]
  split
  · rw [releaseKey_entries]
    rfl
  · rfl

theorem peer_linkBack (s : State) (n : Station) : peer (linkBack s) n = peer s n := by
  rw [peer, linkBack_entries, peer]

theorem refreshLiveness_keepsPlain {n : Station} {s : State} (h : s.lc.txq.length < 8) {g : TxFrame}
    (hg : g ∈ s.lc.txq) (hplain : plainFrame g) : g ∈ (refreshLiveness n s).lc.txq := by
  by_cases hl : (peer s n).liveness = .silent
  · rw [refreshLiveness_return hl]
    exact releaseKey_keepsPlain (s := madeLive n s) h hg hplain
  · rw [refreshLiveness_present hl]
    exact hg

/-- What stays queued of a queue that a frame has left: with one claim released there was room for its STOP frame, and
with two in a short queue. -/
theorem sentWhole_keepsPlain {s : State} {n : Station} {f g : TxFrame} (hf : s.lc.txq.find? TxFrame.onLine = some f)
    (hone : s.lc.link ≠ .linkLost ∨ (peer s n).liveness ≠ .silent ∨ s.lc.txq.length ≤ 5) (hlen : s.lc.txq.length ≤ 8)
    (hg : g ∈ (sentOff s).lc.txq) (hplain : plainFrame g) : g ∈ (refreshLiveness n (linkBack s)).lc.txq := by
  have hleft : (sentOff s).lc.txq.length < s.lc.txq.length := offLine_length hf
  by_cases hlost : s.lc.link = .linkLost
  · by_cases hl : (peer s n).liveness = .silent
    · have hshort := (hone.resolve_left (not_not_intro hlost)).resolve_left (not_not_intro hl)
      have hroom := roomFor_le (sentOff s).lc.txq
      exact ((hands_linkBack s).trans (hands_refreshLiveness n _)).keepsPlain (.inr (by omega)) hg hplain
    · rw [refreshLiveness_present (by rwa [peer_linkBack]), linkBack, if_pos hlost]
      exact releaseKey_keepsPlain (s := sentOff s) (by omega) hg hplain
  · rw [linkBack_present hlost]
    exact refreshLiveness_keepsPlain (by omega) hg hplain

theorem linkBack_claims {s : State} (h : s.lc.link = .linkLost) : ∀ k ∈ (linkBack s).su.own, k.cause ≠ .linkLost := by
  rw [linkBack, if_pos h]
  exact fun k hk => (mem_releaseKey.mp hk).2

theorem refreshLiveness_claims {n : Station} {s : State} {k : Claim} (hk : k ∈ (refreshLiveness n s).su.own) :
    k ∈ s.su.own := by
  by_cases h : (peer s n).liveness = .silent
  · rw [refreshLiveness_return h] at hk
    exact (mem_releaseKey.mp hk).1
  · rw [refreshLiveness_present h] at hk
    exact hk

/-- Settles O3: the frame leaves, the claims that end are released, and admission touches the receive queue alone. -/
theorem sentFrameLeavesQueue : Obligations.SentFrameLeavesQueue := by
  intro s mark f hphase hf own left
  have hcl : (refreshLiveness own (linkBack s)).cl = s.cl := by simp [linkBack_cl]
  have hands := (hands_linkBack s).trans (hands_refreshLiveness own (linkBack s))
  obtain ⟨hlink, -, hph, hrun, hrxq, hserial⟩ := hands.link
  have hadm := admitFrame_changesOnly own f.payload mark true (refreshLiveness own (linkBack s))
  obtain ⟨htxq, arun, alink, -, aphase⟩ := admitFrame_link own f.payload mark true (refreshLiveness own (linkBack s))
  have hsu := hadm.1 .su (by decide)
  have hpeer : ∀ m, peer (admitFrame own f.payload mark true (refreshLiveness own (linkBack s))) m =
      if own = m then { peer s own with liveness := .live, silence := some s.cl.cfg.silenceLimit } else peer s m :=
    fun m => by
      have hpt := hadm.1 .pt (by decide)
      rw [peer, show _ = _ from hpt]
      rw [show (refreshLiveness own (linkBack s)).pt.entries.get m = peer (refreshLiveness own (linkBack s)) m from rfl,
        peer_refreshLiveness, peer_linkBack, peer_linkBack, linkBack_cl]
  refine ⟨_, congrArg Host.Outcome.next (frameSentWhole_eq hphase hf), aphase.trans hph, arun.trans hrun, ?_, ?_, ?_,
    alink.trans hlink, ?_, ?_, ?_, ?_, ?_, ?_, ?_, ?_⟩
  · intro hlost hsilent
    have hstay : refreshLiveness own (linkBack s) = madeLive own (sentOff s) := by
      rw [refreshLiveness_present (by rwa [peer_linkBack]), linkBack_present hlost]
    rw [hstay] at htxq alink hadm hpeer ⊢
    obtain ⟨arxq, -, acnt⟩ := admitFrame_congr (s := s) (u := madeLive own (sentOff s)) own f.payload mark true rfl rfl rfl
    refine ⟨htxq, alink.trans (if_neg hlost), ?_, fun m hm => by rw [hpeer, if_neg hm.symm], arxq, acnt rfl⟩
    have hsent : ChangesOnly [.lc, .pt] s (sentOff s) := changesOnly_lc (.head _)
    exact hsent.trans (((madeLive_changesOnly own _).among (.tail _ (.head _))).trans (hadm.among (.head _)))
  · intro hone hlen g hg hstate hpace
    rw [htxq]
    exact sentWhole_keepsPlain hf hone hlen hg ((plainFrame_iff g).mpr ⟨hstate, hpace⟩)
  · rw [htxq]
    exact hands.offLine fun g hg => by simpa using (List.mem_filter.mp hg).2
  · intro hlost k hk
    rw [show _ = _ from hsu] at hk
    exact linkBack_claims hlost k (refreshLiveness_claims hk)
  · rw [hpeer, if_pos rfl]
  · rw [hpeer, if_pos rfl]
  · rw [show _ = _ from hadm.1 .cl (by decide), hcl]
  · rw [show _ = _ from hadm.1 .gu (by decide), refreshLiveness_gu, linkBack]
    simp [apply_ite State.gu, sentOff]
  · rw [show _ = _ from hadm.1 .fd (by decide), refreshLiveness_fd, linkBack]
    simp [apply_ite State.fd, sentOff]
  · rw [show _ = _ from hadm.1 .tc (by decide), refreshLiveness_tc, linkBack]
    simp [apply_ite State.tc, sentOff]
  · rw [hadm.2, refreshLiveness_pending, linkBack]
    simp [apply_ite State.pending, sentOff]

end Sys2Proof.Machine
end


section
/-! PROOFS. A failed attempt, and a frame that arrives. -/

namespace Sys2Proof.Machine

/-! ### ATTEMPT_FAILS and LINK_LOST_ENTRY (R6, R7) -/

/-- A failed attempt is counted, before the link is lost by it. -/
def attemptCounted (f : TxFrame) (s : State) : State := countTxFailure (s.setLc { s.lc with
  txq := queueAfterFailure f s.lc.txq, failRun := s.lc.failRun + 1, phase := .idle })

/-- The link is lost, and its claim not yet raised. -/
def linkGone (s : State) : State := s.setLc { s.lc with link := .linkLost, failRun := 0, quiet := some 100 }

-- In place, so that the parts of the text are elaborated one after the other and not all at once.
set_option Elab.async false in
theorem failAttempt_short {s : State} (f : TxFrame) (h : s.lc.failRun < 15) :
    failAttempt f s = attemptCounted f s := by
  have hno : ¬ 16 ≤ (attemptCounted f s).lc.failRun := by
    show ¬ 16 ≤ s.lc.failRun + 1
    omega
  exact if_neg hno

theorem failAttempt_loses {s : State} (f : TxFrame) (h : 15 ≤ s.lc.failRun) :
    failAttempt f s = raiseKey .linkLost .halt (linkGone (attemptCounted f s)) := by
  have hyes : 16 ≤ (attemptCounted f s).lc.failRun := by
    show 16 ≤ s.lc.failRun + 1
    omega
  exact if_pos hyes

theorem attemptCounted_changesOnly (f : TxFrame) (s : State) : ChangesOnly [.lc] s (attemptCounted f s) := by
  exact changesOnly_lc (.head _)

theorem queueAfterFailure_length (f : TxFrame) (q : List TxFrame) : (queueAfterFailure f q).length ≤ q.length := by
  simp only [queueAfterFailure]
  split
  · exact List.length_filter_le _ _
  · simp

theorem attemptFails_eq {s : State} {mark : StartMark} {f : TxFrame} (hphase : s.lc.phase = .sending mark)
    (hf : s.lc.txq.find? TxFrame.onLine = some f) : attemptFailsEffect s = failAttempt f s := by
  simp only [attemptFailsEffect, frameOnLine, hphase, hf, Option.map_some]

theorem linkLostEntry_eq {s : State} {mark : StartMark} {f : TxFrame} (hphase : s.lc.phase = .sending mark)
    (hf : s.lc.txq.find? TxFrame.onLine = some f) :
    linkLostEntryEffect s = if 15 ≤ s.lc.failRun then failAttempt f s else s := by
  simp only [linkLostEntryEffect, frameOnLine, hphase, hf, Option.map_some]

/-- Settles O4: below the 16th failure the attempt is counted alone, and at it the LINK-LOST claim is raised. -/
theorem failedAttemptsLoseTheLink : Obligations.FailedAttemptsLoseTheLink := by
  intro s mark f hphase hf hlink newer
  have hnewer : newer ↔ s.lc.txq.any (replaceable f.payload.kind) = true := List.any_eq_true.symm
  have hattempt := attemptFails_eq hphase hf
  have hentry := linkLostEntry_eq hphase hf
  have hqueue : (newer → queueAfterFailure f s.lc.txq = s.lc.txq.filter fun g => !g.onLine) ∧
      (¬ newer → queueAfterFailure f s.lc.txq = s.lc.txq.map fun g => { g with onLine := false }) := by
    rw [hnewer]
    exact ⟨fun h => if_pos h, fun h => if_neg h⟩
  by_cases hrun : s.lc.failRun < 15
  · rw [failAttempt_short f hrun] at hattempt
    refine ⟨attemptCounted f s, queueAfterFailure f s.lc.txq, congrArg Host.Outcome.next hattempt, rfl, rfl,
      hqueue.1, hqueue.2, fun _ => ⟨rfl, rfl, rfl, rfl, attemptCounted_changesOnly f s, ?_⟩, fun h => by omega⟩
    exact congrArg Host.Outcome.next (hentry.trans (if_neg (by omega)))
  · have hfull : 15 ≤ s.lc.failRun := by omega
    rw [failAttempt_loses f hfull] at hattempt
    have hands := hands_raiseKey .linkLost .halt (linkGone (attemptCounted f s))
    obtain ⟨rlink, rquiet, rphase, rrun, -, -⟩ := hands.link
    obtain ⟨m, hm⟩ := hands.counters
    have hgone : ChangesOnly [.lc] s (linkGone (attemptCounted f s)) :=
      (attemptCounted_changesOnly f s).trans (changesOnly_lc (.head _))
    refine ⟨raiseKey .linkLost .halt (linkGone (attemptCounted f s)), queueAfterFailure f s.lc.txq,
      congrArg Host.Outcome.next hattempt, rphase, ?_, hqueue.1, hqueue.2, fun h => by omega, fun _ => ⟨?_, rrun, rlink,
      rquiet, ?_, ?_, ?_, ?_, ?_, ?_⟩⟩
    · rw [hm]
      rfl
    · intro hlen g hg hstate hpace
      have hshort := queueAfterFailure_length f s.lc.txq
      have hroom := roomFor_le (queueAfterFailure f s.lc.txq)
      refine hands.keepsPlain (.inr ?_) hg ((plainFrame_iff g).mpr ⟨hstate, hpace⟩)
      show roomFor (queueAfterFailure f s.lc.txq) + 2 ≤ 8
      omega
    · exact raiseKey_claims (by decide) .halt _
    · exact (raiseKey_acts (by decide)).congr (hgone.1 .su (by decide)).symm
        (sameView_of_changesOnly (hgone.among (.head _))).symm (.refl _)
    · rw [raiseKey_gu, show _ = _ from hgone.1 .gu (by decide)]
    · rw [raiseKey_cl, show _ = _ from hgone.1 .cl (by decide)]
    · rw [raiseKey_pending, hgone.2]
    · refine congrArg Host.Outcome.next (hentry.trans ?_)
      rw [if_pos hfull, failAttempt_loses f hfull]

/-! ### The checks of an arriving frame (R9) -/

/-- Class and kind code name a kind. -/
theorem kindOf_eq_some_iff (cls code : Nat) (k : Kind) :
    kindOf cls code = some k ↔ (kindRow k).cls = cls ∧ (kindRow k).code = code := by
  constructor
  · intro h
    simpa using List.find?_some h
  · rintro ⟨rfl, rfl⟩
    cases k <;> decide +kernel

theorem kindOf_eq_none_iff (cls code : Nat) :
    kindOf cls code = none ↔ ∀ k, ¬ ((kindRow k).cls = cls ∧ (kindRow k).code = code) := by
  simp only [← kindOf_eq_some_iff]
  exact Option.eq_none_iff_forall_not_mem

/-- A JOG, a GOTO and a CUE-POINTS have a word 1. -/
theorem minLen_two {k : Kind} (h : k = .jog ∨ k = .goto ∨ k = .cuePoints) : 2 ≤ (kindRow k).minLen := by
  rcases h with rfl | rfl | rfl <;> decide

theorem two_words {ws : List Word16} (h : 2 ≤ ws.length) : ∃ v w rest, ws = v :: w :: rest := by
  cases ws with
  | nil => cases h
  | cons v ws =>
    cases ws with
    | nil => exact absurd h (by decide : ¬ 2 ≤ 1)
    | cons w rest => exact ⟨v, w, rest, rfl⟩

/-- No other kind has such a length. -/
theorem lengthAgrees_other {k : Kind} (hjog : k ≠ .jog) (hgoto : k ≠ .goto) (hcue : k ≠ .cuePoints)
    (ws : List Word16) : lengthAgrees k ws = true := by
  cases k with
  | jog => exact absurd rfl hjog
  | goto => exact absurd rfl hgoto
  | cuePoints => exact absurd rfl hcue
  | _ => rfl

/-- The length that the axis set of a JOG or a GOTO, or the count of a CUE-POINTS, gives. -/
theorem lengthAgrees_iff {k : Kind} {ws : List Word16} (h : (kindRow k).minLen ≤ ws.length) :
    lengthAgrees k ws = true ↔
      let second := ws.getD 1 0
      let named := (second.getLsbD 0).toNat + (second.getLsbD 1).toNat + (second.getLsbD 2).toNat
      (k = .jog → ws.length = 2 + 2 * named) ∧ (k = .goto → ws.length = 3 + 2 * named) ∧
        (k = .cuePoints → ws.length = 2 + (13 * (loByte second).toNat + 15) / 16) := by
  by_cases hk : k = .jog ∨ k = .goto ∨ k = .cuePoints
  · obtain ⟨_, w, rest, rfl⟩ := two_words ((minLen_two hk).trans h)
    rcases hk with rfl | rfl | rfl
    · exact beq_iff_eq.trans ⟨fun h => ⟨fun _ => h, Kind.noConfusion, Kind.noConfusion⟩, fun ⟨h, _, _⟩ => h rfl⟩
    · exact beq_iff_eq.trans ⟨fun h => ⟨Kind.noConfusion, fun _ => h, Kind.noConfusion⟩, fun ⟨_, h, _⟩ => h rfl⟩
    · exact beq_iff_eq.trans ⟨fun h => ⟨Kind.noConfusion, Kind.noConfusion, fun _ => h⟩, fun ⟨_, _, h⟩ => h rfl⟩
  · obtain ⟨hjog, hgoto, hcue⟩ : k ≠ .jog ∧ k ≠ .goto ∧ k ≠ .cuePoints :=
      ⟨fun h => hk (.inl h), fun h => hk (.inr (.inl h)), fun h => hk (.inr (.inr h))⟩
    exact iff_of_true (lengthAgrees_other hjog hgoto hcue ws)
      ⟨fun h => absurd h hjog, fun h => absurd h hgoto, fun h => absurd h hcue⟩

/-- The checks of a frame whose kind is known. -/
theorem checkFrame_kind {f : LineFrame} {k : Kind} (habort : unstuff f.line ≠ .violation false) (hwhole : f.whole = true)
    (hcrc : frameCrc f.header f.words = f.crc) (hcls : (headerClass f.header).toNat ≤ 6)
    (hk : kindOf (headerClass f.header).toNat (headerCode f.header).toNat = some k) : checkFrame f =
      if f.words.length < (kindRow k).minLen || (kindRow k).maxLen < f.words.length then .malformed
      else if lengthAgrees k f.words then .valid k else .malformed := by
  simp [checkFrame, habort, hwhole, hcrc, Nat.not_lt.mpr hcls, hk]

/-- The checks of R9 in their order. -/
theorem checkFrame_ordered (f : LineFrame) :
    (unstuff f.line = .violation false → checkFrame f = .aborted) ∧
    (unstuff f.line ≠ .violation false →
      (f.whole = false → checkFrame f = .crcError) ∧
      (f.whole = true →
        let cls := (headerClass f.header).toNat
        let row := fun (k : Kind) => (kindRow k).cls = cls ∧ (kindRow k).code = (headerCode f.header).toNat
        (frameCrc f.header f.words ≠ f.crc → checkFrame f = .crcError) ∧
        (frameCrc f.header f.words = f.crc →
          (6 < cls → checkFrame f = .malformed) ∧
          ((∀ k, ¬ row k) → checkFrame f = .malformed) ∧
          (∀ k, cls ≤ 6 → row k →
            let allowed := (kindRow k).minLen ≤ f.words.length ∧ f.words.length ≤ (kindRow k).maxLen
            let second := f.words.getD 1 0
            let named := (second.getLsbD 0).toNat + (second.getLsbD 1).toNat + (second.getLsbD 2).toNat
            let agrees := (k = .jog → f.words.length = 2 + 2 * named) ∧
              (k = .goto → f.words.length = 3 + 2 * named) ∧
              (k = .cuePoints → f.words.length = 2 + (13 * (loByte second).toNat + 15) / 16)
            (¬ (allowed ∧ agrees) → checkFrame f = .malformed) ∧
            (allowed → agrees → checkFrame f = .valid k))))) := by
  refine ⟨fun h => if_pos h, fun habort => ⟨fun hno => ?_, fun hwhole => ⟨fun hcrc => ?_, fun hcrc => ⟨fun hcls => ?_,
    fun hnone => ?_, fun k hcls hrow => ?_⟩⟩⟩⟩
  · simp [checkFrame, habort, hno]
  · simp [checkFrame, habort, hwhole, hcrc]
  · simp [checkFrame, habort, hwhole, hcrc, hcls]
  · have hk := (kindOf_eq_none_iff _ _).mpr hnone
    simp [checkFrame, habort, hwhole, hcrc, hk]
  · have hcheck := checkFrame_kind habort hwhole hcrc hcls ((kindOf_eq_some_iff _ _ k).mpr hrow)
    by_cases hallowed : (kindRow k).minLen ≤ f.words.length ∧ f.words.length ≤ (kindRow k).maxLen
    · have hlen : (decide (f.words.length < (kindRow k).minLen) || decide ((kindRow k).maxLen < f.words.length)) =
          false := by
        simp only [Bool.or_eq_false_iff, decide_eq_false_iff_not]
        omega
      rw [hlen, if_neg Bool.false_ne_true] at hcheck
      have hagree := lengthAgrees_iff hallowed.1
      refine ⟨fun h => hcheck.trans (if_neg fun hl => h ⟨hallowed, hagree.mp hl⟩), fun _ h =>
        hcheck.trans (if_pos (hagree.mpr h))⟩
    · have hlen : (decide (f.words.length < (kindRow k).minLen) || decide ((kindRow k).maxLen < f.words.length)) =
          true := by
        simp only [Bool.or_eq_true, decide_eq_true_eq]
        omega
      rw [hlen, if_pos rfl] at hcheck
      exact ⟨fun _ => hcheck, fun h => absurd h hallowed⟩

/-! ### Which frames are admitted (R10) -/

theorem targetsStation_iff (target : BitVec 8) (n : Station) :
    targetsStation target n = true ↔ target = 0xFF ∨ target.toNat = n.val := by
  simp [targetsStation]

/-- No command is of class 5. -/
theorem frameClass_command (target tag : BitVec 8) (b : CommandBody) :
    (frameClass (.command target tag b) == 5) = false := by cases b <;> rfl

/-- The frames that are not admitted: those of class 5, commands for another station, and an own KEYFRAME-DATA. -/
theorem admits_frames (s : State) (own : Bool) (p : Payload) :
    (frameClass p = 5 → admits s own p = false) ∧
    (∀ target tag body, p = .command target tag body →
      (admits s own p = true ↔ target = 0xFF ∨ target.toNat = s.cl.station.val)) ∧
    (∀ f, p = .keyframeData f → admits s own p = !own) ∧
    (frameClass p ≠ 5 → (∀ target tag body, p ≠ .command target tag body) → (∀ f, p ≠ .keyframeData f) →
      admits s own p = true) := by
  refine ⟨fun h => ?_, fun target tag body h => ?_, fun f h => ?_, fun hcls hcmd hkey => ?_⟩
  · cases p with
    | command target tag body => exact absurd h (ne_of_beq_false (frameClass_command target tag body))
    | answer | directoryEntry | tripReport | markerReport | counters => rfl
    | _ => exact absurd h (ne_of_beq_false rfl)
  · subst h
    exact targetsStation_iff _ _
  · subst h
    rfl
  · cases p with
    | command target tag body => exact absurd rfl (hcmd target tag body)
    | keyframeData f => exact absurd rfl (hkey f)
    | answer | directoryEntry | tripReport | markerReport | counters => exact absurd rfl hcls
    | _ => rfl

/-! ### Another station under the own number (R8) -/

/-- The link goes to FAULT, its claims not yet raised and released. -/
def linkFaulted (s : State) : State := s.setLc { s.lc with link := .fault, txq := [], quiet := none }

theorem duplicateFound_known {s : State} (h : s.lc.link = .fault) : duplicateFound s = s := if_pos h

theorem duplicateFound_new {s : State} (h : s.lc.link ≠ .fault) :
    duplicateFound s = releaseKey .linkLost (raiseKey .duplicate .sever (linkFaulted s)) := if_neg h

/-- In FAULT nothing is queued, whatever the claims hand over. -/
theorem duplicateFound_lc {s : State} (h : s.lc.link ≠ .fault) : (duplicateFound s).lc = (linkFaulted s).lc := by
  rw [duplicateFound_new h]
  exact ((hands_raiseKey .duplicate .sever (linkFaulted s)).trans (hands_releaseKey .linkLost _)).fault rfl

theorem eq_sever_of_le {c : Cls} (h : clsRank .sever ≤ clsRank c) : c = .sever := by
  revert h
  cases c <;> simp [clsRank]

/-- A SEVER claim of a key other than LINK-LOST stands, and no LINK-LOST claim. -/
theorem duplicateFound_claims {s : State} (h : s.lc.link ≠ .fault) :
    (∀ c ∈ (duplicateFound s).su.own, c.cause ≠ .linkLost) ∧
      ∃ c ∈ (duplicateFound s).su.own, c.cause = .duplicate ∧ c.cls = .sever := by
  rw [duplicateFound_new h]
  refine ⟨fun c hc => (mem_releaseKey.mp hc).2, ?_⟩
  obtain ⟨c, hc, hcause, hcls⟩ := raiseKey_claims (c := .duplicate) (by decide) .sever (linkFaulted s)
  exact ⟨c, mem_releaseKey.mpr ⟨hc, by rw [hcause]; decide⟩, hcause, eq_sever_of_le hcls⟩

/-- The claim acts as a raise to SEVER does: the release of the LINK-LOST claim leaves the class. -/
theorem duplicateFound_acts {s : State} (h : s.lc.link ≠ .fault) : OwnClaimActs .sever s (duplicateFound s) := by
  intro hi
  have hi' : ClaimsInv (linkFaulted s) := claimsInv_congr (s := s) rfl hi
  have hfaulted : ChangesOnly [.lc] s (linkFaulted s) := changesOnly_lc (.head _)
  have hview : SameView s (linkFaulted s) := sameView_of_changesOnly (hfaulted.among (.head _))
  have hacts : OwnClaimActs .sever (linkFaulted s) (raiseKey .duplicate .sever (linkFaulted s)) :=
    raiseKey_acts (by decide)
  have hinv : ClaimsInv (raiseKey .duplicate .sever (linkFaulted s)) :=
    (keeps_raiseKey (by decide) (by decide) (by decide) _).claims hi'
  have hsever : (raiseKey .duplicate .sever (linkFaulted s)).su.effective = .sever := by
    obtain ⟨hrise, hstay⟩ := hacts hi'
    rcases Nat.lt_or_ge (clsRank (linkFaulted s).su.effective) (clsRank .sever) with hlt | hge
    · exact (hrise hlt).formed
    · obtain ⟨⟨heff, -⟩, -⟩ := hstay hge
      exact heff.trans (eq_sever_of_le hge)
  obtain ⟨c, hc, hcause, hcls⟩ := (duplicateFound_claims h).2
  rw [duplicateFound_new h] at hc ⊢
  have hwithin := releaseKey_within hinv.effective (mem_releaseKey.mp hc).1 (mem_releaseKey.mp hc).2
    (hcls.trans hsever.symm)
  exact hacts.congr rfl hview.symm hwithin hi

/-- No key other than DUPLICATE is raised. -/
theorem duplicateFound_mem {s : State} {k : Claim} (hk : k ∈ (duplicateFound s).su.own) :
    k.cause = .duplicate ∨ ∃ j ∈ s.su.own, j.cause = k.cause := by
  by_cases h : s.lc.link = .fault
  · rw [duplicateFound_known h] at hk
    exact .inr ⟨k, hk, rfl⟩
  · rw [duplicateFound_new h] at hk
    exact mem_raiseKey (s := linkFaulted s) (mem_releaseKey.mp hk).1

theorem duplicateFound_entries (s : State) : (duplicateFound s).pt.entries = s.pt.entries := by
  by_cases h : s.lc.link = .fault
  · rw [duplicateFound_known h]
  · rw [duplicateFound_new h, releaseKey_entries, raiseKey_entries]
    rfl

/-! ### FRAME_ARRIVES (R8 to R11, R19) -/

/-- The duplicate check of a frame of another node (R8). -/
def duplicateChecked (n : Station) (s : State) : State := if n = s.cl.station then duplicateFound s else s

theorem receiveValid_eq (n : Station) (p : Payload) (mark : StartMark) (s : State) : receiveValid n p mark false s =
    admitFrame n p mark false (duplicateChecked n (refreshLiveness n s)) := by
  simp [receiveValid, admitFrame, duplicateChecked]

/-- The check leaves phase, receive queue and serial, the peer entries, and the blocks that no claim reaches. -/
theorem duplicateChecked_leaves (n : Station) (s : State) :
    (duplicateChecked n s).lc.phase = s.lc.phase ∧ (duplicateChecked n s).lc.rxq = s.lc.rxq ∧
      (duplicateChecked n s).lc.nextSerial = s.lc.nextSerial ∧ (duplicateChecked n s).pt.entries = s.pt.entries ∧
      (duplicateChecked n s).gu = s.gu ∧ (duplicateChecked n s).cl = s.cl ∧
      (duplicateChecked n s).pending = s.pending := by
  simp only [duplicateChecked]
  split
  · by_cases h : s.lc.link = .fault
    · rw [duplicateFound_known h]
      exact ⟨rfl, rfl, rfl, rfl, rfl, rfl, rfl⟩
    · rw [duplicateFound_lc h]
      exact ⟨rfl, rfl, rfl, duplicateFound_entries s, by simp, by simp, by simp⟩
  · exact ⟨rfl, rfl, rfl, rfl, rfl, rfl, rfl⟩

theorem duplicateChecked_mem {n : Station} {s : State} {k : Claim} (hk : k ∈ (duplicateChecked n s).su.own) :
    k.cause = .duplicate ∨ ∃ j ∈ s.su.own, j.cause = k.cause := by
  simp only [duplicateChecked] at hk
  split at hk
  · exact duplicateFound_mem hk
  · exact .inr ⟨k, hk, rfl⟩

theorem refreshLiveness_released {n : Station} {s : State} (h : (peer s n).liveness = .silent) :
    ∀ k ∈ (refreshLiveness n s).su.own, k.cause ≠ .peerSilent n := by
  rw [refreshLiveness_return h]
  exact fun k hk => (mem_releaseKey.mp hk).2

/-- The frame is at an end, and not yet received. -/
def lineIdle (s : State) : State := s.setLc { s.lc with phase := .idle }

/-- What a valid frame under the own number makes of the link and the claims. -/
theorem received_duplicate (p : Payload) (mark : StartMark) (s : State) :
    let t := receiveValid s.cl.station p mark false (lineIdle s)
    t.lc.link = .fault ∧ (s.lc.link ≠ .fault →
      t.lc.txq = [] ∧ t.lc.quiet = none ∧ (∀ c ∈ t.su.own, c.cause ≠ .linkLost) ∧
      (∃ c ∈ t.su.own, c.cause = .duplicate ∧ c.cls = .sever) ∧
      ((peer s s.cl.station).liveness ≠ .silent → OwnClaimActs .sever s t)) := by
  intro t
  have hcl : (refreshLiveness s.cl.station (lineIdle s)).cl = s.cl := refreshLiveness_cl _ _
  have ht : t = admitFrame s.cl.station p mark false (duplicateFound (refreshLiveness s.cl.station (lineIdle s))) := by
    simp only [t, receiveValid_eq, duplicateChecked, hcl, if_true]
  obtain ⟨hlink, -, -, -, -, -⟩ := (hands_refreshLiveness s.cl.station (lineIdle s)).link
  obtain ⟨atxq, -, alink, aquiet, -⟩ :=
    admitFrame_link s.cl.station p mark false (duplicateFound (refreshLiveness s.cl.station (lineIdle s)))
  have hadm := admitFrame_changesOnly s.cl.station p mark false (duplicateFound (refreshLiveness s.cl.station (lineIdle s)))
  rw [ht]
  by_cases h : s.lc.link = .fault
  · refine ⟨?_, fun hno => absurd h hno⟩
    have hu : (refreshLiveness s.cl.station (lineIdle s)).lc.link = .fault := hlink.trans h
    rw [alink, duplicateFound_known hu, hu]
  · have hu : (refreshLiveness s.cl.station (lineIdle s)).lc.link ≠ .fault := fun hf => h (hlink.symm.trans hf)
    have hlc := duplicateFound_lc hu
    have hsu := hadm.1 .su (by decide)
    obtain ⟨hlost, hdup⟩ := duplicateFound_claims hu
    refine ⟨by rw [alink, hlc]; rfl, fun _ => ⟨by rw [atxq, hlc]; rfl, by rw [aquiet, hlc]; rfl, ?_, ?_, fun hpresent => ?_⟩⟩
    · rwa [show _ = _ from hsu]
    · rwa [show _ = _ from hsu]
    · have hlive : refreshLiveness s.cl.station (lineIdle s) = madeLive s.cl.station (lineIdle s) :=
        refreshLiveness_present (s := lineIdle s) hpresent
      have hfirst : ChangesOnly [.lc, .pt] s (refreshLiveness s.cl.station (lineIdle s)) := by
        rw [hlive]
        exact (changesOnly_lc (.head _)).trans (changesOnly_pt (.tail _ (.head _)))
      exact (duplicateFound_acts hu).congr (hfirst.1 .su (by decide)).symm
        (sameView_of_changesOnly (hfirst.mono (by simp +contextual))).symm
        (sameView_of_changesOnly (hadm.among (.head _)))

/-- Admission on the idle line. -/
theorem admitFrame_idle {s u : State} (n : Station) (p : Payload) (mark : StartMark) (own : Bool) (hcl : u.cl = s.cl)
    (hlc : u.lc = { s.lc with phase := .idle }) :
    (admitFrame n p mark own u).lc = { (admitFrame n p mark own s).lc with phase := .idle } := by
  simp only [admitFrame, admits_congr hcl]
  split
  · simp only [enqueueRx, countRxDrop, setCounters, hlc]
    split
    · rfl
    · split
      · rfl
      · split <;> rfl
  · exact hlc

/-- What a valid frame of another station leaves of the link, and, with its sender present, of all else. -/
theorem received_other {n : Station} (p : Payload) (mark : StartMark) {s : State} (hn : n ≠ s.cl.station) :
    let t := receiveValid n p mark false (lineIdle s)
    (t.lc.link = s.lc.link ∧ t.lc.quiet = s.lc.quiet) ∧ ((peer s n).liveness ≠ .silent →
      t.lc = { (admitFrame n p mark false s).lc with phase := .idle } ∧ ChangesOnly [.lc, .pt] s t ∧
        ∀ m, m ≠ n → peer t m = peer s m) := by
  intro t
  have ht : t = admitFrame n p mark false (refreshLiveness n (lineIdle s)) := receiveValid_other p mark hn
  obtain ⟨hlink, hquiet, -⟩ := (hands_refreshLiveness n (lineIdle s)).link
  obtain ⟨-, -, alink, aquiet, -⟩ := admitFrame_link n p mark false (refreshLiveness n (lineIdle s))
  refine ⟨by rw [ht, alink, aquiet, hlink, hquiet]; exact ⟨rfl, rfl⟩, fun hpresent => ?_⟩
  rw [refreshLiveness_present (s := lineIdle s) hpresent] at ht
  have hadm := admitFrame_changesOnly n p mark false (madeLive n (lineIdle s))
  refine ⟨?_, ?_, fun m hm => ?_⟩
  · rw [ht]
    exact admitFrame_idle n p mark false (s := s) rfl rfl
  · rw [ht]
    have hfirst : ChangesOnly [.lc, .pt] s (madeLive n (lineIdle s)) :=
      (changesOnly_lc (.head _)).trans (changesOnly_pt (.tail _ (.head _)))
    exact hfirst.trans (hadm.among (.head _))
  · rw [ht, peer, show _ = _ from hadm.1 .pt (by decide)]
    exact (peer_madeLive n m (lineIdle s)).trans (if_neg hm.symm)

/-- What every valid frame makes of its sender's entry, of the receive queue, and of the blocks that no claim
reaches. -/
theorem received_always (n : Station) (p : Payload) (mark : StartMark) (s : State) :
    let t := receiveValid n p mark false (lineIdle s)
    t.lc.phase = .idle ∧ (peer t n).liveness = .live ∧ (peer t n).silence = some s.cl.cfg.silenceLimit ∧
      ((peer s n).liveness = .silent → ∀ c ∈ t.su.own, c.cause ≠ .peerSilent n) ∧
      t.lc.rxq = (admitFrame n p mark false s).lc.rxq ∧ t.lc.nextSerial = (admitFrame n p mark false s).lc.nextSerial ∧
      s.lc.rxq.length ≤ t.lc.rxq.length ∧ t.gu = s.gu ∧ t.cl = s.cl ∧ t.pending = s.pending := by
  intro t
  have ht : t = admitFrame n p mark false (duplicateChecked n (refreshLiveness n (lineIdle s))) := receiveValid_eq n p mark _
  obtain ⟨hphase, hrxq, hserial, hentries, hgu, hcl, hpending⟩ :=
    duplicateChecked_leaves n (refreshLiveness n (lineIdle s))
  obtain ⟨-, -, lphase, -, lrxq, lserial⟩ := (hands_refreshLiveness n (lineIdle s)).link
  obtain ⟨-, -, -, -, aphase⟩ := admitFrame_link n p mark false (duplicateChecked n (refreshLiveness n (lineIdle s)))
  have hadm := admitFrame_changesOnly n p mark false (duplicateChecked n (refreshLiveness n (lineIdle s)))
  have hcl' : (duplicateChecked n (refreshLiveness n (lineIdle s))).cl = s.cl := hcl.trans (refreshLiveness_cl _ _)
  obtain ⟨arxq, aserial, -⟩ := admitFrame_congr (s := s) n p mark false hcl' (hrxq.trans lrxq) (hserial.trans lserial)
  have hpeer : peer t n = { peer s n with liveness := .live, silence := some s.cl.cfg.silenceLimit } := by
    have hsame : peer t n = peer (refreshLiveness n (lineIdle s)) n := by
      rw [ht, peer, show _ = _ from hadm.1 .pt (by decide), hentries]
      rfl
    rw [hsame, peer_refreshLiveness, if_pos rfl]
    rfl
  refine ⟨by rw [ht, aphase, hphase, lphase]; rfl, by rw [hpeer], by rw [hpeer], fun hsilent c hc heq => ?_,
    by rw [ht, arxq], by rw [ht, aserial], ?_, ?_, ?_, ?_⟩
  · rw [ht, show _ = _ from hadm.1 .su (by decide)] at hc
    rcases duplicateChecked_mem hc with hdup | ⟨j, hj, hjc⟩
    · rw [hdup] at heq
      cases heq
    · exact refreshLiveness_released (s := lineIdle s) hsilent j hj (hjc.trans heq)
  · rw [ht, arxq]
    exact admitFrame_length n p mark false s
  · rw [ht, show _ = _ from hadm.1 .gu (by decide), hgu, refreshLiveness_gu]
    rfl
  · rw [ht, show _ = _ from hadm.1 .cl (by decide), hcl']
  · rw [ht, hadm.2, hpending, refreshLiveness_pending]
    rfl

/-- Settles O6: the checks, and the path of a valid frame. -/
theorem arrivingFrameIsChecked : Obligations.ArrivingFrameIsChecked := by
  refine ⟨admits_frames, checkFrame_ordered, fun s f mark hphase => ?_⟩
  have hexec : exec (.frameArrives f) s =
      match checkFrame f with
      | .aborted => .next (lineIdle s)
      | .crcError => .next (countCrcError (lineIdle s))
      | .malformed => .next (countMalformed (lineIdle s))
      | .valid k =>
        match decodePayload k f.words f.fields with
        | none => .fault .contradictoryFrame
        | some p => .next (receiveValid (headerSender f.header) p mark false (lineIdle s)) := by
    show execFrameArrives f s = _
    simp only [execFrameArrives, hphase]
    rfl
  refine ⟨fun h => by rw [hexec, h]; rfl, fun h => by rw [hexec, h]; rfl, fun h => by rw [hexec, h]; rfl,
    fun k p h hp => ?_, fun k h hp => by rw [hexec, h]; dsimp only; rw [hp]⟩
  obtain ⟨tphase, tlive, tsilence, treleased, trxq, tserial, tlength, tgu, tcl, tpending⟩ :=
    received_always (headerSender f.header) p mark s
  refine ⟨receiveValid (headerSender f.header) p mark false (lineIdle s), by rw [hexec, h]; dsimp only; rw [hp],
    tphase, tlive, tsilence, treleased, fun hn => ?_, fun hn => (received_other p mark hn).1,
    ⟨trxq, tserial, fun hn => (received_other p mark hn).2⟩, tlength, tgu, tcl, tpending⟩
  rw [hn]
  exact received_duplicate p mark s

end Sys2Proof.Machine
end


section
/-! PROOFS. What a STATE frame shows, the timers of the line controller, the peer table, the axes and the pace unit, and
the edges at the pins. -/

namespace Sys2Proof.Machine

/-! ### Codes (R187, R189) -/

-- In place, so that the parts of the text are elaborated one after the other and not all at once.
set_option Elab.async false in
theorem modeOf_modeCode (m : Mode) : modeOf (modeCode m) = some m := by cases m <;> decide

theorem clsOf_clsCode (c : Cls) : clsOf (clsCode c) = c := by cases c <;> decide

theorem causeCode_lt (k : CauseKind) : causeCode k < 16 := by cases k <;> decide

/-! ### What STATE shows (R24) -/

theorem segmentInPlay_eq (fd : Feeder) : segmentInPlay fd = fd.queue.head?.or fd.retired := by
  rw [segmentInPlay]
  split <;> simp [*]

theorem seqInPlay_of_segment {fd : Feeder} {e : QueueEntry} (h : fd.queue.head?.or fd.retired = some e) :
    seqInPlay fd = e.seq := by simp only [seqInPlay, segmentInPlay_eq, h]

theorem seqInPlay_of_none {fd : Feeder} (h : fd.queue.head?.or fd.retired = none) : seqInPlay fd = fd.startSeq := by
  simp only [seqInPlay, segmentInPlay_eq, h]

theorem stateTake_named {s : State} (h : namesTake s.tc.mode) : stateTake s = s.tc.ctx.map PlayContext.take := by
  rcases h with h | h | h | h | h | h | h | h | h <;> simp [stateTake, h]

theorem stateTake_unnamed {s : State} (h : ¬ namesTake s.tc.mode) : stateTake s = none := by
  simp only [stateTake]
  cases hm : s.tc.mode <;> simp [namesTake, hm] at h ⊢

/-- The causes of a claim set are the bits of its mask. -/
theorem causeMask_bit (own : List Claim) (mask : BitVec 16) (n : Nat) :
    (own.foldl (fun m c => m ||| (1#16 <<< causeCode c.cause.kind)) mask).getLsbD n =
      (mask.getLsbD n || own.any fun c => causeCode c.cause.kind == n) := by
  induction own generalizing mask with
  | nil => simp
  | cons c own ih =>
    have hc := causeCode_lt c.cause.kind
    have hbit : (1#16 <<< causeCode c.cause.kind).getLsbD n = (causeCode c.cause.kind == n) := by
      rw [beq_eq_decide]
      by_cases hn : n < 16
      · exact (one_shiftLeft_bit ⟨n, hn⟩ ⟨_, hc⟩).trans (by simp [eq_comm])
      · rw [BitVec.getLsbD_of_ge _ _ (by omega)]
        simp only [Bool.false_eq, decide_eq_false_iff_not]
        omega
    rw [List.foldl_cons, ih, BitVec.getLsbD_or, hbit, List.any_cons, Bool.or_assoc]

/-- The greatest class of a claim set bounds its classes, and is one of them. -/
theorem ownClass_greatest (su : StopUnit) : (∀ k ∈ su.own, clsRank k.cls ≤ clsRank (ownClass su)) ∧
    (ownClass su = .none ∨ ∃ k ∈ su.own, k.cls = ownClass su) := by
  have hmem : ∀ (cs : List Cls) (a : Cls), cs.foldl clsMax a = a ∨ cs.foldl clsMax a ∈ cs := by
    intro cs
    induction cs with
    | nil => exact fun a => .inl rfl
    | cons c cs ih =>
      intro a
      rw [List.foldl_cons]
      rcases ih (clsMax a c) with h | h
      · rw [h, clsMax]
        split
        · exact .inr List.mem_cons_self
        · exact .inl rfl
      · exact .inr (List.mem_cons_of_mem c h)
  constructor
  · intro k hk
    exact ((clsRank_foldl_le _ (su.own.map Claim.cls) .none).mp (Nat.le_refl _)).2 _ (List.mem_map_of_mem hk)
  · rcases hmem (su.own.map Claim.cls) .none with h | h
    · exact .inl h
    · obtain ⟨k, hk, heq⟩ := List.mem_map.mp h
      exact .inr ⟨k, hk, heq⟩

theorem resultCodes_shown (r : RollResult) : let codes := resultCodes r
    (codes.1, codes.2.1, codes.2.2.1, codes.2.2.2.toNat) = resultShown r := by
  match r with
  | .none => rfl
  | .started => rfl
  | .cancelled (.refused n reason) => simp [resultCodes, cancelCodes, resultShown, BitVec.setWidth_eq_extractLsb']
  | .cancelled .stopped => rfl
  | .cancelled (.participantAbsent n) => simp [resultCodes, cancelCodes, resultShown]
  | .cancelled .wrap => rfl
  | .cancelled (.notAccepted n) => simp [resultCodes, cancelCodes, resultShown]

theorem driveEnable_iff (s : State) : driveEnable s = true ↔ s.su.driveLatch = true ∧ s.su.loopClosed = true ∧
    s.su.openLatch = false ∧ s.su.effective ≠ .sever := by simp [driveEnable, and_assoc]

theorem readyFlag_iff (s : State) :
    readyFlag s = true ↔ (s.tc.mode = .ready ∨ s.tc.mode = .armed) ∧ s.su.effective = .none := by simp [readyFlag]

theorem stateFields_shows (s : State) : StateShows s (stateFields s) where
  role := ⟨rfl, rfl⟩
  mode := ⟨modeOf_modeCode _, clsOf_clsCode _⟩
  summary := by
    show (∀ k ∈ s.su.own, clsRank k.cls ≤ clsRank (clsOf (clsCode (ownClass s.su)))) ∧ _
    rw [show (stateFields s).summary = clsCode (ownClass s.su) from rfl, clsOf_clsCode]
    exact ownClass_greatest s.su
  causes n := by
    show (causeMask s.su).getLsbD n = true ↔ _
    rw [causeMask, causeMask_bit, show BitVec.getLsbD (0 : BitVec 16) n = false from BitVec.getLsbD_zero, Bool.false_or,
      List.any_eq_true]
    simp only [beq_iff_eq]
  stop := ⟨rfl, rfl⟩
  flags := ⟨rfl, rfl, driveEnable_iff s⟩
  take h x hx := by
    have htake : stateTake s = some x.take := by rw [stateTake_named h, hx]; rfl
    have hlt : x.take.val + 1 < 2 ^ 8 := by omega
    refine ⟨?_, congrArg (fun o => ((Option.map (entryOf s) o).map TakeEntry.stamp).getD 0) htake,
      congrArg (fun o => ((Option.map (entryOf s) o).map TakeEntry.signature).getD 0) htake⟩
    show (BitVec.ofNat 8 (((stateTake s).map takeNumber).getD 0)).toNat = _
    rw [htake, BitVec.toNat_ofNat]
    exact Nat.mod_eq_of_lt hlt
  noTake h := by
    have htake := stateTake_unnamed h
    exact ⟨congrArg (fun o => BitVec.ofNat 8 ((Option.map takeNumber o).getD 0)) htake,
      congrArg (fun o => ((Option.map (entryOf s) o).map TakeEntry.stamp).getD 0) htake,
      congrArg (fun o => ((Option.map (entryOf s) o).map TakeEntry.signature).getD 0) htake⟩
  ready := readyFlag_iff s
  roll := ⟨rfl, resultCodes_shown _⟩
  playSeq h := by
    have hseq : stateSeq s = seqInPlay s.fd := by rcases h with h | h <;> rw [stateSeq, h]
    exact ⟨fun e he => hseq.trans (seqInPlay_of_segment he), fun hnone => hseq.trans (seqInPlay_of_none hnone)⟩
  haltSeq h x n hx hn := by
    show stateSeq s = n
    rcases h with h | h <;> simp only [stateSeq, h, hx, hn, Option.bind_some, Option.getD_some]
  restartSeq h x n hx hrec hn := by
    show stateSeq s = n
    simp only [stateSeq, h, hx, hrec, hn, if_true, Option.getD_some]
  noSeq hplaying hheld hhalted hrecovering hready := by
    show stateSeq s = 0
    simp only [stateSeq]
    split
    · exact absurd ‹_› hplaying
    · exact absurd ‹_› hheld
    · exact absurd ‹_› hhalted
    · exact absurd ‹_› hrecovering
    · next hm =>
      split
      · next x hx => rw [hready hm x hx]; rfl
      · rfl
    · rfl
  recovery := by
    show (s.tc.ctx.map PlayContext.recovery).getD false = true ↔ _
    cases s.tc.ctx with
    | none => exact iff_of_false Bool.false_ne_true fun ⟨_, hx, _⟩ => nomatch hx
    | some x => exact ⟨fun h => ⟨x, rfl, h⟩, fun ⟨_, hx, h⟩ => Option.some.inj hx ▸ h⟩
  passes e hplay he hlen := by
    have hpasses : statePasses s = e.stack.reverse := by
      rw [statePasses, if_pos hplay, segmentInPlay_eq, he]
    refine ⟨?_, fun i p hp => ?_⟩
    · show (BitVec.ofNat 3 (statePasses s).length).toNat = _
      rw [hpasses, List.length_reverse, BitVec.toNat_ofNat]
      exact Nat.mod_eq_of_lt (by omega)
    · show (Table.ofFn fun i : Fin 4 => passCount (statePasses s) i.val).get i = _
      rw [Table.get_ofFn, passCount, hpasses, hp]
      rfl
  noPasses h := by
    have hpasses : statePasses s = [] := by
      rw [statePasses]
      rcases h with h | h
      · rw [h]
        rfl
      · rw [segmentInPlay_eq, h]
        split <;> rfl
    refine ⟨congrArg (fun l => BitVec.ofNat 3 (List.length l)) hpasses, fun i => ?_⟩
    show (Table.ofFn fun i : Fin 4 => passCount (statePasses s) i.val).get i = _
    rw [Table.get_ofFn, hpasses]
    rfl
  axes i := by
    have haxis : (stateFields s).axes.get i = axisSummary s i := Table.get_ofFn _ i
    rw [haxis]
    exact ⟨rfl, rfl, by rw [axisSummary, Option.isSome_iff_ne_none]⟩

/-! ### Timers (R7, R23, R38, R39, R139) -/

/-- The queue after a frame is handed over in a link state other than FAULT. -/
theorem handOver_queue {s : State} (p : Payload) (h : s.lc.link ≠ .fault) :
    (handOver p s).lc.txq = (queueFrame p s.lc.txq).1 := by
  rw [handOver_handed, handed, if_neg h]

/-- A STATE frame handed over past START restarts its timer. -/
theorem handState_hands {s : State} (hrun : running s = true) (hlink : s.lc.link ≠ .fault) :
    SameLink s (handState s) ∧ (handState s).lc.txq = (queueFrame (.state (stateFields s)) s.lc.txq).1 ∧
      (handState s).pt = { s.pt with stateTimer := some s.cl.cfg.statePeriod } ∧
      ChangesOnly [.lc, .pt] s (handState s) := by
  have hmode : s.tc.mode ≠ .start := by simpa [running] using hrun
  have hchanges := handOver_changesOnly (.state (stateFields s))
    (s.setPt { s.pt with stateTimer := some s.cl.cfg.statePeriod })
  rw [handState, if_neg hmode]
  refine ⟨(handOver_link _ _).1, handOver_queue _ hlink, hchanges.1 .pt (by decide), ?_⟩
  have hfirst : ChangesOnly [.pt] s (s.setPt { s.pt with stateTimer := some s.cl.cfg.statePeriod }) :=
    changesOnly_pt (.head _)
  exact (hfirst.among (.tail _ (.head _))).trans (hchanges.among (.head _))

/-- A STATE frame shows no field of the line controller. -/
theorem stateFields_setLc (s : State) (l : LineController) : stateFields (s.setLc l) = stateFields s := rfl

/-- A PACE frame handed over keeps the ceiling that it announces, and restarts its timer. -/
theorem handPace_hands (s : State) :
    ChangesOnly [.lc, .pu] s (handPace s) ∧
      (handPace s).pu = { s.pu with announced := localCeiling s, paceTimer := some s.cl.cfg.pacePeriod } ∧
      (handPace s).lc = handed s.lc (paceFrame s (localCeiling s)) := by
  have hchanges := handOver_changesOnly (paceFrame s (localCeiling s))
    (s.setPu { s.pu with announced := localCeiling s, paceTimer := some s.cl.cfg.pacePeriod })
  have hfirst : ChangesOnly [.pu] s
      (s.setPu { s.pu with announced := localCeiling s, paceTimer := some s.cl.cfg.pacePeriod }) :=
    changesOnly_pu (.head _)
  exact ⟨(hfirst.among (.tail _ (.head _))).trans (hchanges.among (.head _)), hchanges.1 .pu (by decide), handOver_handed _ _⟩

theorem handed_queue {l : LineController} (p : Payload) (h : l.link ≠ .fault) :
    (handed l p).txq = (queueFrame p l.txq).1 := by rw [handed, if_neg h]

/-- One channel replaced, and nothing else of the axis block. -/
theorem setOneChannel (s : State) (i : Axis) (c : AxisChannel) :
    let t := s.setAx { s.ax with ch := s.ax.ch.set i c }
    ChangesOnly [.ax] s t ∧ OtherAxes i s t ∧ t.ax.punches = s.ax.punches ∧ t.ax.samples = s.ax.samples ∧
      axisCh t i = c := by
  refine ⟨changesOnly_ax (.head _), fun j hj => ?_, rfl, rfl, ?_⟩
  · exact Table.get_set_ne _ (Ne.symm hj) _
  · exact Table.get_set_self _ _ _

/-- Settles O18: the five expiries, each by its own equation. -/
theorem timersExpire : Obligations.TimersExpire := by
  refine ⟨stateFields_shows, fun s hrun hlink => ⟨fun hquiet => ?_, fun htimer => ?_⟩,
    fun s i => ⟨fun hjog => ?_, fun hidle => ?_⟩, fun s hpaces htimer => ?_⟩
  · have heq : quietTimeExpiryEffect s = handState (s.setLc { s.lc with quiet := none }) := if_pos ⟨hrun, hquiet⟩
    obtain ⟨⟨-, -, hq, -⟩, htxq, hpt, hchanges⟩ :=
      handState_hands (s := s.setLc { s.lc with quiet := none }) hrun hlink
    have hfirst : ChangesOnly [.lc] s (s.setLc { s.lc with quiet := none }) := changesOnly_lc (.head _)
    exact ⟨_, congrArg Host.Outcome.next heq, hq, htxq, hpt, (hfirst.among (.head _)).trans hchanges⟩
  · obtain ⟨hsame, htxq, hpt, hchanges⟩ := handState_hands hrun hlink
    have heq : statePeriodExpiryEffect s = handState s := if_pos htimer
    exact ⟨_, congrArg Host.Outcome.next heq, hsame, htxq, hpt, hchanges⟩
  · have heq : jogTimeoutEffect i s = _ := if_pos hjog
    exact ⟨_, congrArg Host.Outcome.next heq, setOneChannel s i _⟩
  · have heq : idleReleaseExpiryEffect i s = _ := if_pos hidle
    exact ⟨_, congrArg Host.Outcome.next heq, setOneChannel s i _⟩
  · have heq : pacePeriodExpiryEffect s = handPace s := if_pos ⟨hpaces, htimer⟩
    obtain ⟨hchanges, hpu, hlc⟩ := handPace_hands s
    exact ⟨_, congrArg Host.Outcome.next heq, hchanges, hpu, fun hlink => by rw [hlc]; exact handed_queue _ hlink⟩

/-! ### The pins (R117, R130, R151, R166) -/

/-- Settles O47: each edge by its own equation, mode by mode. -/
theorem pinEdgesAreTaken : Obligations.PinEdgesAreTaken := by
  intro s hrun
  refine ⟨?_, ⟨fun hmode => ?_, fun hmode hplay hstep => ?_, fun hmode hno => ?_⟩, fun i => ⟨fun hno => ?_,
    fun hmode hedge => ?_⟩, ?_⟩
  · have heq : markerEdgeEffect s = (match s.tc.mode with
        | .recording => s.setPu (captureMarker 0 { s.pu with markLow := true })
        | .playing => s.setPu (captureMarker (seqInPlay s.fd) { s.pu with markLow := true })
        | _ => s.setPu { s.pu with markLow := true }) := if_pos hrun
    refine ⟨markerEdgeEffect s, rfl, ?_, fun ⟨hrecording, hplaying⟩ => ?_, fun h => ?_⟩
    · rw [heq]
      split <;> exact changesOnly_pu (.head _)
    · rw [heq]
      split
      · exact absurd ‹_› hrecording
      · exact absurd ‹_› hplaying
      · rfl
    · constructor
      · intro hnone
        rcases h with h | h <;> rw [heq, h] <;> simp [captureMarker, hnone]
      · intro hsome
        obtain ⟨m, hm⟩ := Option.ne_none_iff_exists'.mp hsome
        rcases h with h | h <;> rw [heq, h] <;> simp [captureMarker, hm]
  · exact congrArg Host.Outcome.next (if_neg fun h => h.2 hmode)
  · have hcue : s.cl.cfg.cueMode ≠ .none := by rw [hmode]; decide
    refine congrArg Host.Outcome.next ((if_pos ⟨hrun, hcue⟩).trans ?_)
    exact if_pos ⟨hmode, hplay, hstep⟩
  · refine congrArg Host.Outcome.next ((if_pos ⟨hrun, hmode⟩).trans ?_)
    exact if_neg hno
  · refine congrArg Host.Outcome.next (if_neg fun ⟨_, hmode, hedge⟩ => ?_)
    rcases hno with hno | hno
    · exact hmode hno
    · rw [hno] at hedge
      cases hedge
  · refine ⟨_, congrArg Host.Outcome.next (if_pos ⟨hrun, hmode, hedge⟩), ?_, rfl, Table.get_set_self _ _ _, fun j hj =>
      Table.get_set_ne _ (Ne.symm hj) _⟩
    exact changesOnly_gu (.head _)
  · refine ⟨_, congrArg Host.Outcome.next (if_pos hrun), ?_, ?_, rfl⟩
    · exact changesOnly_su (.head _)
    · simp [driveEnable]

/-! ### The alignment window (R115, R116) -/

/-- The shift in its 64 slices: the remainder goes one by one to the last of them. -/
theorem slicesOf_get (shift : Int) {i : Nat} (hi : i < 64) : (slicesOf shift)[i]? =
    some (if 64 - (shift - 64 * shift.tdiv 64).natAbs ≤ i then
      shift.tdiv 64 + (shift - 64 * shift.tdiv 64).sign else shift.tdiv 64) := by
  have hcond : (64 ≤ i + (shift - 64 * shift.tdiv 64).natAbs) = (64 - (shift - 64 * shift.tdiv 64).natAbs ≤ i) :=
    propext (by omega)
  simp only [slicesOf, List.getElem?_map, List.getElem?_range hi, Option.map_some, hcond]

/-- Of n slices, the last m of them greater by d, the sum. -/
theorem sum_slices (base d : Int) (m n : Nat) (h : m ≤ n) :
    ((List.range n).map fun i => if n ≤ i + m then base + d else base).sum = n * base + m * d := by
  obtain ⟨k, rfl⟩ := Nat.exists_eq_add_of_le' h
  have hfirst : (List.range k).map (fun i => if k + m ≤ i + m then base + d else base) = List.replicate k base := by
    rw [List.eq_replicate_iff]
    refine ⟨by simp, fun x hx => ?_⟩
    obtain ⟨i, hi, rfl⟩ := List.mem_map.mp hx
    exact if_neg (by have := List.mem_range.mp hi; omega)
  have hlast : ((List.range m).map (k + ·)).map (fun i => if k + m ≤ i + m then base + d else base) =
      List.replicate m (base + d) := by
    rw [List.eq_replicate_iff]
    refine ⟨by simp, fun x hx => ?_⟩
    simp only [List.mem_map, List.mem_range] at hx
    obtain ⟨_, ⟨i, hi, rfl⟩, rfl⟩ := hx
    exact if_pos (by omega)
  rw [List.range_add, List.map_append, hfirst, hlast, List.sum_append, List.sum_replicate, List.sum_replicate]
  simp only [nsmul_eq_mul]
  push_cast
  ring

/-- The shift is 64 times its part in every slice, and a remainder of its own sign below 64. -/
theorem shift_parts (shift : Int) : shift - 64 * shift.tdiv 64 = shift.tmod 64 ∧ (shift.tmod 64).natAbs < 64 :=
  ⟨(Int.tmod_def shift 64).symm, by rw [Int.natAbs_tmod]; exact Nat.mod_lt _ (by decide)⟩

theorem slicesOf_sum (shift : Int) : (slicesOf shift).sum = shift := by
  obtain ⟨heq, hlt⟩ := shift_parts shift
  have hsum := sum_slices (shift.tdiv 64) (shift.tmod 64).sign _ _ (Nat.le_of_lt hlt)
  rw [mul_comm ((shift.tmod 64).natAbs : Int), Int.sign_mul_natAbs] at hsum
  rw [slicesOf, heq, hsum]
  exact Int.mul_tdiv_add_tmod shift 64

theorem slicesOf_bound {shift : Int} (h : shift.natAbs ≤ 2048) : ∀ x ∈ slicesOf shift, x.natAbs ≤ 32 := by
  intro x hx
  obtain ⟨i, -, rfl⟩ := List.mem_map.mp hx
  obtain ⟨heq, -⟩ := shift_parts shift
  rw [heq]
  have hbase : (shift.tdiv 64).natAbs = shift.natAbs / 64 := Int.natAbs_tdiv shift 64
  have hrem : (shift.tmod 64).natAbs = shift.natAbs % 64 := Int.natAbs_tmod shift 64
  split
  · have hle := Int.natAbs_add_le (shift.tdiv 64) (shift.tmod 64).sign
    by_cases hzero : shift.tmod 64 = 0
    · rw [hzero, Int.sign_zero, Int.add_zero, hbase]
      omega
    · have hsign := Int.natAbs_sign_of_ne_zero hzero
      have hpos := Int.natAbs_pos.mpr hzero
      omega
  · omega

/-- The shift of a window is cut at 2048 either way. -/
theorem natAbs_shiftOf_le (sum : Int) (count : Nat) : (shiftOf sum count).natAbs ≤ 2048 := by
  have hlow : -2048 ≤ shiftOf sum count := le_max_left _ _
  have hhigh : shiftOf sum count ≤ 2048 := max_le (by decide) (min_le_left _ _)
  omega

/-- Settles O46: without offsets nothing, during a shift one skip, and otherwise the new shift. -/
theorem shiftIsSliced : Obligations.ShiftIsSliced := by
  intro s hplay htimer
  let pu := { s.pu with offsetSum := 0, offsetCount := 0, alignTimer := some s.cl.cfg.alignWindow }
  have heq : alignmentWindowEndEffect s = if s.pu.offsetCount = 0 then s.setPu pu
      else if s.pu.slices ≠ [] then countAlignSkip (s.setPu pu)
      else s.setPu (if (shiftOf s.pu.offsetSum s.pu.offsetCount).natAbs < 16 then pu
        else { pu with slices := slicesOf (shiftOf s.pu.offsetSum s.pu.offsetCount) }) := if_pos ⟨hplay, htimer⟩
  have hshift : shiftOf s.pu.offsetSum s.pu.offsetCount =
      max (-2048) (min 2048 (rndDiv s.pu.offsetSum (2 * (s.pu.offsetCount : Int)))) := rfl
  refine ⟨alignmentWindowEndEffect s, rfl, ?_, ?_, fun hzero => ?_, fun hsome hslices => ?_, fun hsome hslices => ?_⟩
  · rw [heq]
    refine .ite (fun _ => ?_) fun _ => .ite (fun _ => ?_) fun _ => changesOnly_pu (.tail _ (.head _))
    · exact changesOnly_pu (.tail _ (.head _))
    · exact (changesOnly_pu (.tail _ (.head _))).trans (changesOnly_lc (.head _))
  · rw [heq]
    split
    · rfl
    · split
      · rfl
      · split <;> rfl
  · rw [heq, if_pos hzero]
    exact ⟨rfl, rfl⟩
  · rw [heq, if_neg hsome, if_pos hslices]
    exact ⟨rfl, rfl⟩
  · rw [heq, if_neg hsome, if_neg (not_not_intro hslices), ← hshift]
    refine ⟨rfl, fun hsmall => ?_, fun hlarge => ?_⟩
    · rw [if_pos hsmall]
      exact hslices
    · rw [if_neg (Nat.not_lt.mpr hlarge)]
      refine ⟨by simp [slicesOf], slicesOf_sum _, slicesOf_bound ?_, fun i hi => slicesOf_get _ hi⟩
      exact natAbs_shiftOf_le _ _

end Sys2Proof.Machine
end


section
/-! PROOFS. The commands of a playback, the take store's reports and its read-out, the mismatch examination, and the
commands that clear stops. -/

namespace Sys2Proof.Machine

/-! ### ADVANCE, BREAK, RESUME and MASTER-RATE (R128, R129, R140, R146) -/

-- In place, so that the parts of the text are elaborated one after the other and not all at once.
set_option Elab.async false in
/-- The delivery of a command changes the receive queue alone. -/
theorem Delivered.onlyQueue {α : Type} {pick : CommandBody → Option α} {s s1 : State} {c : Command} {x : α}
    (h : Delivered pick s c x s1) : ∃ q, s1 = s.setLc { s.lc with rxq := q } := by
  obtain ⟨⟨e, htaken, -⟩, -⟩ := h
  exact takeOffer_setLc htaken

/-- An ADVANCE releases the first WAITING entry. -/
theorem releaseWaiting_first {before after : List QueueEntry} {e : QueueEntry} (he : e.sectionEnd = .waiting)
    (hbefore : ∀ b ∈ before, b.sectionEnd ≠ .waiting) :
    releaseWaiting (before ++ e :: after) = before ++ { e with sectionEnd := .released } :: after := by
  induction before with
  | nil => exact if_pos he
  | cons b before ih =>
    exact (if_neg (hbefore b (.head _))).trans (congrArg (b :: ·) (ih fun x hx => hbefore x (.tail _ hx)))

theorem advance_meets {s s1 : State} {c : Command} (h : Delivered pickAdvance s c () s1) :
    exec .advance s = .next (
      if !inPlay s.tc.mode then refuse c .busy s1
      else if playMode s ≠ some .step then refuseWith c .busy { name := .notStep } s1
      else if s.fd.slot ≠ .empty then countAdvanceOverrun s1
      else answerDone c (s1.setFd (applyAdvance s.fd))) := by
  have hrun : advanceEffect s = _ := withCommand_noEarly h
  obtain ⟨q, rfl⟩ := h.onlyQueue
  exact congrArg Host.Outcome.next hrun

theorem brk_meets {s s1 : State} {c : Command} (h : Delivered pickBreak s c () s1) :
    exec .brk s = .next (
      if !inPlay s.tc.mode then refuse c .busy s1 else answerDone c (s1.setFd (applyBreak (playMode s) s.fd))) := by
  have hrun : brkEffect s = _ := withCommand_noEarly h
  obtain ⟨q, rfl⟩ := h.onlyQueue
  exact congrArg Host.Outcome.next hrun

theorem applyAdvance_waiting {fd : Feeder} (hwait : fd.sectionWait = true) :
    applyAdvance fd = { fd with sectionWait := false } := if_pos hwait

theorem applyAdvance_releases {fd : Feeder} {before after : List QueueEntry} {e : QueueEntry}
    (hwait : fd.sectionWait = false) (hqueue : fd.queue = before ++ e :: after) (he : e.sectionEnd = .waiting)
    (hbefore : ∀ b ∈ before, b.sectionEnd ≠ .waiting) : applyAdvance fd = { fd with
      queue := before ++ { e with sectionEnd := .released } :: after, slot := .applied } := by
  have hany : fd.queue.any (fun x => x.sectionEnd == .waiting) = true :=
    List.any_eq_true.mpr ⟨e, hqueue ▸ List.mem_append_right _ (.head _), beq_iff_eq.mpr he⟩
  rw [applyAdvance, if_neg (hwait ▸ Bool.false_ne_true), if_pos hany, hqueue, releaseWaiting_first he hbefore]

theorem applyAdvance_held {fd : Feeder} (hwait : fd.sectionWait = false)
    (hnone : ∀ e ∈ fd.queue, e.sectionEnd ≠ .waiting) : applyAdvance fd = { fd with slot := .held } := by
  have hany : ¬ fd.queue.any (fun x => x.sectionEnd == .waiting) = true := fun h => by
    obtain ⟨e, he, hw⟩ := List.any_eq_true.mp h
    exact hnone e he (beq_iff_eq.mp hw)
  rw [applyAdvance, if_neg (hwait ▸ Bool.false_ne_true), if_neg hany]

theorem applyBreak_top {mode : Option PlayMode} {fd : Feeder} {p : Pass} {rest : List Pass} (h : fd.stack = p :: rest) :
    applyBreak mode fd = { fd with stack := { p with breakRequested := true } :: rest } := by
  cases fd
  cases h
  rfl

theorem applyBreak_alone {mode : Option PlayMode} {fd : Feeder} (h : fd.stack = []) :
    applyBreak mode fd = if mode = some .loop then { fd with loopEnd := true } else fd := by
  cases fd
  cases h
  rfl

/-- From HELD to PLAYING, the pace unit and the feeder stay. -/
theorem setMode_plays {s : State} (h : s.tc.mode = .held) : ChangesOnly [.lc, .pt, .tc] s (setMode .playing s) :=
  (changesOnly_iff _ _ _).mpr ⟨(absurd (.head _) ·), (absurd (.tail _ (.head _)) ·), fun _ => setMode_ax _ s,
    fun _ => setMode_lmu _ s, fun _ => setMode_ts _ (h ▸ nofun), fun _ => setMode_fd _ s,
    (absurd (.tail _ (.tail _ (.head _))) ·), fun _ => setMode_pu _ s, fun _ => setMode_gu _ s,
    fun _ => setMode_su _ s, fun _ => setMode_cl _ s, setMode_pending _ s⟩

/-- RESUME of a HELD node whose class is NONE. -/
theorem resume_plays {s s1 : State} {c : Command} (h : Delivered pickResume s c () s1) (hheld : s.tc.mode = .held)
    (hclass : s.su.effective = .none) :
    ∃ t, exec .resume s = .next (answerDone c t) ∧ ChangesOnly [.lc, .pt, .tc] s t ∧
      t.tc = { s.tc with mode := .playing } ∧ t.pt.entries = s.pt.entries := by
  have hrun : resumeEffect s = _ := withCommand_noEarly h
  obtain ⟨q, rfl⟩ := h.onlyQueue
  have hplays := setMode_plays (s := s.setLc { s.lc with rxq := q }) hheld
  exact ⟨_, congrArg Host.Outcome.next (hrun.trans ((if_neg (not_not_intro hheld)).trans
    (if_neg (not_not_intro hclass)))), ((changesOnly_lc (.head _)).trans hplays :), setMode_tc _ _,
    setMode_entries (by decide) _⟩

theorem announce_localCeiling (u : State) : localCeiling (announce u) = localCeiling u := by
  obtain ⟨-, a, n, hpu⟩ := announce_changes u
  simp only [localCeiling, wrapPending, announce_su, announce_tc, announce_gu, hpu]
  rfl

/-- The PACE frame of a local ceiling that has moved by 32 or more (R139). -/
theorem announce_shows (u : State) :
    let t := announce u
    let announces := pacesIn u.tc.mode = true ∧ 32 ≤ ((localCeiling t : Int) - (u.pu.announced : Int)).natAbs
    (announces → t.pu.announced = localCeiling t ∧ t.pu.paceTimer = some u.cl.cfg.pacePeriod ∧
      (u.lc.link ≠ .fault → t.lc.txq = (queueFrame (paceFrame u (localCeiling t)) u.lc.txq).1)) ∧
    (¬ announces → t.pu.announced = u.pu.announced ∧ t.pu.paceTimer = u.pu.paceTimer ∧ t.lc = u.lc) := by
  intro t announces
  have hceil : localCeiling t = localCeiling u := announce_localCeiling u
  simp only [announces, hceil]
  refine ⟨fun h => ?_, fun h => ?_⟩
  · obtain ⟨-, hpu, hlc⟩ := handPace_hands u
    have heq : t = handPace u := if_pos h
    rw [heq, hpu, hlc]
    exact ⟨rfl, rfl, handed_queue _⟩
  · have heq : t = u := if_neg h
    rw [heq]
    exact ⟨rfl, rfl, rfl⟩

theorem masterRate_shows {s s1 : State} {c : Command} {v : Nat} (h : Delivered pickMasterRate s c v s1) :
    let t := announce (s1.setPu { s.pu with master := min 1024 v })
    exec .masterRate s = .next (answerClamped c (decide (1024 < v)) t) ∧ ChangesOnly [.lc, .pu] s t ∧
      t.pu = { s.pu with master := min 1024 v, announced := t.pu.announced, paceTimer := t.pu.paceTimer } := by
  have hrun : masterRateEffect s = _ := withCommand_noEarly h
  obtain ⟨q, rfl⟩ := h.onlyQueue
  obtain ⟨hchanges, a, n, hpu⟩ := announce_changes ((s.setLc { s.lc with rxq := q }).setPu { s.pu with master := min 1024 v })
  exact ⟨congrArg Host.Outcome.next hrun,
    ((changesOnly_lc (.head _)).trans (changesOnly_pu (.tail _ (.head _)))).trans hchanges, hpu ▸ rfl⟩

/-- Settles O43: each command by its equation, and MASTER-RATE by what forming the local ceiling again shows. -/
theorem playbackIsCommanded : Obligations.PlaybackIsCommanded := by
  refine ⟨fun s s1 c h => ⟨fun hno => ?_, fun hin hstep => ?_, fun hin hstep => ?_⟩, fun s s1 c h => ⟨fun hno => ?_,
    fun hin => ?_⟩, fun s s1 c h => ⟨fun hno => ?_, fun hheld hclass => ?_, resume_plays h⟩, fun s s1 c v h => ?_⟩
  · rw [advance_meets h, hno]
    rfl
  · rw [advance_meets h, hin]
    exact congrArg Host.Outcome.next (if_pos hstep)
  · have hmeets : exec .advance s = .next (if s.fd.slot ≠ .empty then countAdvanceOverrun s1
        else answerDone c (s1.setFd (applyAdvance s.fd))) := by
      rw [advance_meets h, hin]
      exact congrArg Host.Outcome.next (if_neg (not_not_intro hstep))
    have happly : s.fd.slot = .empty → exec .advance s = .next (answerDone c (s1.setFd (applyAdvance s.fd))) :=
      fun hslot => hmeets.trans (congrArg Host.Outcome.next (if_neg (not_not_intro hslot)))
    exact ⟨fun hslot => hmeets.trans (congrArg Host.Outcome.next (if_pos hslot)),
      fun hslot hwait => applyAdvance_waiting hwait ▸ happly hslot,
      fun _ _ _ hslot hwait hqueue he hbefore => applyAdvance_releases hwait hqueue he hbefore ▸ happly hslot,
      fun hslot hwait hnone => applyAdvance_held hwait hnone ▸ happly hslot⟩
  · rw [brk_meets h, hno]
    rfl
  · have hmeets : exec .brk s = .next (answerDone c (s1.setFd (applyBreak (playMode s) s.fd))) := by
      rw [brk_meets h, hin]
      rfl
    refine ⟨fun p rest hstack => ?_, fun hstack hloop => ?_, fun hstack hloop => ?_⟩
    · rw [hmeets, applyBreak_top hstack]
    · rw [hmeets, applyBreak_alone hstack, if_pos (show playMode s = _ from hloop)]
    · rw [hmeets, applyBreak_alone hstack, if_neg (show playMode s ≠ _ from hloop)]
      obtain ⟨q, rfl⟩ := h.onlyQueue
      rfl
  · have hrun : resumeEffect s = _ := withCommand_noEarly h
    obtain ⟨q, rfl⟩ := h.onlyQueue
    exact congrArg Host.Outcome.next (hrun.trans (if_pos hno))
  · have hrun : resumeEffect s = _ := withCommand_noEarly h
    obtain ⟨q, rfl⟩ := h.onlyQueue
    exact congrArg Host.Outcome.next (hrun.trans ((if_neg (not_not_intro hheld)).trans (if_pos hclass)))
  · obtain ⟨hexec, hchanges, hpu⟩ := masterRate_shows h
    have hshows := announce_shows (s1.setPu { s.pu with master := min 1024 v })
    obtain ⟨q, rfl⟩ := h.onlyQueue
    exact ⟨_, hexec, hchanges, hpu, hshows⟩

/-! ### QUERY of DIRECTORY and TAKE-READ (R95, R96) -/

theorem takeRead_meets {s s1 : State} {c : Command} {number first n : Nat}
    (h : Delivered pickTakeRead s c (number, first, n) s1) :
    exec .takeRead s = .next (
      if !bulkFree s then refuse c .busy s1
      else
        match slotOf number with
        | none => refuse c .noTake s1
        | some slot =>
          if (entryOf s slot).state ≠ .stored then refuse c .noTake s1
          else openReadOut slot c.sender first n (answerClamped c (rangeCut (entryOf s slot).count first n) s1)) := by
  have hrun : takeReadEffect s = _ := withCommand_noEarly h
  obtain ⟨q, rfl⟩ := h.onlyQueue
  exact congrArg Host.Outcome.next hrun

theorem bulkFree_iff (s : State) : bulkFree s = true ↔ s.tc.mode = .idle ∧ s.ts.bulk = .none := by
  simp [bulkFree, bulkOpen]

/-- The read-out opens on a range that holds a keyframe, and is over otherwise. -/
theorem openReadOut_opens (slot : Slot) (console : Station) (first n : Nat) (s : State) :
    let t := openReadOut slot console first n s
    let stop := min (first + n) (entryOf s slot).count
    ChangesOnly [.lc, .ts] s t ∧ t.lc = s.lc ∧ t.ts = { s.ts with bulk := t.ts.bulk } ∧
      (first < stop → ∃ since, t.ts.bulk = .readOut slot console first stop since []) ∧
      (stop ≤ first → t.ts.bulk = s.ts.bulk) := by
  intro t stop
  by_cases hstop : first < stop
  · have heq : t = s.setTs { s.ts with bulk := .readOut slot console first stop s.lc.nextSerial [] } := if_pos hstop
    rw [heq]
    exact ⟨changesOnly_ts (.tail _ (.head _)), rfl, rfl, fun _ => ⟨_, rfl⟩, fun hle => absurd hstop (Nat.not_lt.mpr hle)⟩
  · have heq : t = s := if_neg hstop
    rw [heq]
    exact ⟨.refl _ _, rfl, rfl, fun hlt => absurd hlt hstop, fun _ => rfl⟩

/-- Settles O31: the answers by the equation of each command, and the read-out that TAKE-READ opens behind its ANSWER. -/
theorem takesAreReported : Obligations.TakesAreReported := by
  refine ⟨fun s s1 c low h => ?_, fun s s1 c number first n h => ⟨fun hbusy => ?_, fun hidle hbulk hnone => ?_⟩,
    fun s s1 c number first n slot h hidle hbulk hslot hstored => ?_⟩
  · have hrun : queryDirectoryEffect s = _ := withCommand_noEarly h
    obtain ⟨q, rfl⟩ := h.onlyQueue
    exact ⟨fun hnone => congrArg Host.Outcome.next (hrun.trans (by rw [hnone])),
      fun slot hslot => congrArg Host.Outcome.next (hrun.trans (by rw [hslot]; rfl))⟩
  · rw [takeRead_meets h, Bool.eq_false_iff.mpr (mt (bulkFree_iff s).mp hbusy)]
    rfl
  · rw [takeRead_meets h, (bulkFree_iff s).mpr ⟨hidle, hbulk⟩]
    cases hslot : slotOf number with
    | none => rfl
    | some slot => exact congrArg Host.Outcome.next (if_pos (hnone slot hslot))
  · have hmeets := takeRead_meets h
    rw [(bulkFree_iff s).mpr ⟨hidle, hbulk⟩, hslot] at hmeets
    obtain ⟨q, rfl⟩ := h.onlyQueue
    have hanswer := answer_changesOnly c (if rangeCut (entryOf s slot).count first n then .doneClamped else .done) {}
      (s.setLc { s.lc with rxq := q })
    have hts : (answerClamped c (rangeCut (entryOf s slot).count first n) (s.setLc { s.lc with rxq := q })).ts = s.ts :=
      hanswer.1 .ts (by decide)
    obtain ⟨hchanges, hlc, hts', hopen, hover⟩ := openReadOut_opens slot c.sender first n
      (answerClamped c (rangeCut (entryOf s slot).count first n) (s.setLc { s.lc with rxq := q }))
    rw [entryOf, hts] at hopen hover
    exact ⟨_, hmeets.trans (congrArg Host.Outcome.next (if_neg (not_not_intro hstored))),
      ((changesOnly_lc (.head _)).trans (hanswer.among (.head _))).trans hchanges, hlc, hts'.trans (by rw [hts]), hopen,
      fun hle => (hover hle).trans hbulk⟩

/-! ### MISMATCH-GRACE-END (R110) -/

/-- A rise below HALT leaves a playback as it is. -/
theorem modeOnRise_below {s : State} (hplay : s.tc.mode = .playing ∨ s.tc.mode = .held)
    (h : ¬ clsGe s.su.effective .halt) : modeOnRise s = s := by
  rcases hplay with hmode | hmode <;> rw [modeOnRise, hmode] <;> exact if_neg h

/-- What forming the class comes to: nothing, the class taken by the blocks, or a rise at the take controller too. -/
theorem classFormed_forms (old : Cls) (trip : TakeTime) (s : State) :
    classFormed old trip s = s ∨ classFormed old trip s = takeClass old trip s ∨
      (clsRank old < clsRank s.su.effective ∧ classFormed old trip s = modeOnRise (takeClass old trip s)) := by
  simp only [classFormed]
  split
  · exact .inl rfl
  split
  · next hrise =>
    rw [(takeClass_blocks old trip s).1] at hrise
    exact .inr (.inr ⟨hrise, rfl⟩)
  · exact .inr (.inl rfl)

/-- The class of a raise of HOLD formed in a playback is taken by the blocks alone. -/
theorem classFormed_below {old : Cls} {trip : TakeTime} {s : State}
    (hplay : s.tc.mode = .playing ∨ s.tc.mode = .held) (h : clsRank s.su.effective ≤ max 1 (clsRank old)) :
    classFormed old trip s = s ∨ classFormed old trip s = takeClass old trip s := by
  rcases classFormed_forms old trip s with hform | hform | ⟨hrise, hform⟩
  · exact .inl hform
  · exact .inr hform
  · have hlow : ¬ 2 ≤ clsRank (takeClass old trip s).su.effective := by
      rw [(takeClass_blocks old trip s).1]
      dsimp only
      omega
    exact .inr (hform.trans (modeOnRise_below (by rwa [takeClass_tc]) hlow))

/-- A raise of HOLD in a playback stands, and leaves the take controller. -/
theorem raiseKey_holds {c : Cause} {s : State} (hi : ClaimsInv s) (hplay : s.tc.mode = .playing ∨ s.tc.mode = .held) :
    (∃ k ∈ (raiseKey c .hold s).su.own, k.cause = c ∧ clsGe k.cls .hold) ∧ (raiseKey c .hold s).tc = s.tc := by
  refine raiseKey_cases (P := fun t => (∃ k ∈ t.su.own, k.cause = c ∧ clsGe k.cls .hold) ∧ t.tc = s.tc)
    (fun hnone => ⟨raisedSet_none hnone, rfl⟩) (fun own hraised => ?_) fun own trip hraised => ?_
  all_goals
    obtain ⟨hmem, hfrom, -⟩ := raisedSet_claims hraised hi.keys
    refine ⟨⟨{ cause := c, cls := .hold }, ?_, rfl, Nat.le_refl 1⟩, ?_⟩
  · rwa [announce_own, changeOwn_own]
  · rw [announce_tc, changeOwn_tc]
  all_goals
    obtain ⟨-, heff, -⟩ := changeOwn_changes true c own s
    have hle := (formEffective_le (clsRank s.su.effective) s.su).mp (by rw [hi.effective])
    have hup := Nat.le_max_right 1 (clsRank s.su.effective)
    have hbound : clsRank (changeOwn true c own s).su.effective ≤ max 1 (clsRank s.su.effective) := by
      rw [heff, formEffective_le]
      refine ⟨fun k hk => ?_, hle.2.1.trans hup, hle.2.2.trans hup⟩
      rcases hfrom k hk with rfl | hk
      · exact Nat.le_max_left _ _
      · exact (hle.1 k hk).trans hup
    rcases classFormed_below (trip := trip) (by rwa [changeOwn_tc]) hbound with hform | hform <;> rw [hform]
  · rwa [changeOwn_own]
  · rwa [takeClass_own, changeOwn_own]
  · rw [changeOwn_tc]
  · rw [takeClass_tc, changeOwn_tc]

/-- A raise of HOLD in a playback acts as a claim of the node itself does, for PEER-MISMATCH too. -/
theorem raiseKey_hold_acts {c : Cause} {s : State} (hplay : s.tc.mode = .playing ∨ s.tc.mode = .held) :
    OwnClaimActs .hold s (raiseKey c .hold s) := fun hi => by
  refine ⟨fun hlt => raiseKey_rises hi hlt (.inr ?_), fun hge => ?_⟩
  · rintro (hmode | hmode | ⟨-, hhalt, -⟩)
    · rcases hplay with h | h <;> exact absurd (h.symm.trans hmode) (by decide)
    · rcases hplay with h | h <;> exact absurd (h.symm.trans hmode) (by decide)
    · exact absurd hhalt (by decide)
  · obtain ⟨hb, he, hl, a, n, hpu⟩ := raiseKey_stays (c := c) hi hge
    have hview := sameView_of_sameClass hb he hl hpu
    exact ⟨hview.stays, hview.axisCh⟩

/-- Settles O42: the examination finds a mismatched participant, and raises PEER-MISMATCH as the node's own claim. -/
theorem mismatchIsFound : Obligations.MismatchIsFound := by
  intro s x length hgrace hctx hplay hi astray
  have hplay' : inPlay s.tc.mode = true := by rcases hplay with h | h <;> rw [h] <;> rfl
  have hastray : allStations.any (mismatched s x) = true ↔ ∃ n, astray n := by
    simp only [allStations, List.any_eq_true, List.mem_finRange, true_and, mismatched, Bool.and_eq_true,
      Bool.or_eq_true, bne_iff_ne, Bool.not_eq_true', Bool.or_eq_false_iff, beq_eq_false_iff_ne, and_assoc, astray]
  have hrun : mismatchGraceEndEffect s =
      if allStations.any (mismatched s x) then raiseKey .peerMismatch .hold (s.setTc { s.tc with grace := .over })
      else s.setTc { s.tc with grace := .over } := by
    have hexamine : mismatchGraceEndEffect s = examineMismatch (s.setTc { s.tc with grace := .over }) := by
      rw [mismatchGraceEndEffect, hgrace]
    rw [hexamine, examineMismatch, show (s.setTc { s.tc with grace := .over }).tc.ctx = some x from hctx]
    exact if_congr (by rw [show inPlay (s.setTc { s.tc with grace := .over }).tc.mode = true from hplay']; rfl) rfl rfl
  refine ⟨fun hn => ?_, fun hnone => congrArg Host.Outcome.next (hrun.trans (if_neg (mt hastray.mp hnone)))⟩
  obtain ⟨hstands, htc⟩ := raiseKey_holds (c := .peerMismatch) (s := s.setTc { s.tc with grace := .over })
    (claimsInv_congr (s := s) rfl hi) hplay
  exact ⟨_, congrArg Host.Outcome.next (hrun.trans (if_pos (hastray.mpr hn))), raiseKey_gu _ _ _, raiseKey_cl _ _ _,
    raiseKey_pending _ _ _, congrArg TakeController.grace htc, hstands, raiseKey_hold_acts hplay⟩

/-! ### STOP-CLEAR and REARM (R165, R167) -/

/-- An emptied stop-table entry raises no class. -/
theorem formEffective_emptied (n : Station) (su : StopUnit) :
    clsRank (formEffective { su with entries := su.entries.set n .empty }) ≤ clsRank (formEffective su) := by
  obtain ⟨hown, htable, hline⟩ := (formEffective_le (clsRank (formEffective su)) su).mp (Nat.le_refl _)
  refine (formEffective_le _ { su with entries := su.entries.set n .empty }).mpr ⟨hown, ?_, hline⟩
  refine (clsRank_foldl_le _ _ _).mpr ⟨Nat.zero_le _, fun k hk => ?_⟩
  obtain ⟨e, he, rfl⟩ := List.mem_map.mp hk
  rcases List.mem_or_eq_of_mem_set he with he | rfl
  · exact ((clsRank_foldl_le _ _ _).mp htable).2 _ (List.mem_map_of_mem he)
  · exact Nat.zero_le _

/-- The entry of a SILENT station emptied: the class is formed again, and no other field that STOP-CLEAR may not
touch changes. -/
theorem writeStopEntry_empties {n : Station} {trip : TakeTime} {s : State} (heff : s.su.effective = formEffective s.su) :
    (writeStopEntry n .empty trip s).su.own = s.su.own ∧
      (writeStopEntry n .empty trip s).su.entries = s.su.entries.set n .empty ∧
      (writeStopEntry n .empty trip s).tc = s.tc ∧ (writeStopEntry n .empty trip s).fd = s.fd ∧
      (writeStopEntry n .empty trip s).pt.entries = s.pt.entries := by
  have hle : ¬ clsRank s.su.effective < clsRank (formEffective { s.su with entries := s.su.entries.set n .empty }) := by
    rw [heff]
    exact Nat.not_lt.mpr (formEffective_emptied n s.su)
  rcases classFormed_forms s.su.effective trip (formClass (s.setSu { s.su with entries := s.su.entries.set n .empty }))
    with hform | hform | ⟨hrise, -⟩
  · rw [writeStopEntry, hform]
    exact ⟨rfl, rfl, rfl, rfl, rfl⟩
  · rw [writeStopEntry, hform, takeClass_own, takeClass_tc, takeClass_fd, takeClass_entries, (takeClass_blocks _ _ _).1]
    exact ⟨rfl, rfl, rfl, rfl, rfl⟩
  · exact absurd hrise hle

theorem releaseKey_stopTable (c : Cause) (s : State) : (releaseKey c s).su.entries = s.su.entries := by
  refine releaseKey_cases (P := fun t => t.su.entries = s.su.entries) (fun _ => rfl) ?_ fun _ => ?_
  · rw [announce_su, (changeOwn_changes _ _ _ _).2.2.2.2]
  · rw [(takeClass_blocks _ _ _).1]
    exact (changeOwn_changes _ _ _ _).2.2.2.2

/-- STOP-CLEAR of a SILENT station. -/
theorem clearOriginator_clears {n : Station} {s : State} (hi : ClaimsInv s) :
    let t := clearOriginator n s
    t.su.entries.get n = StopEntry.empty ∧ (∀ m, m ≠ n → t.su.entries.get m = s.su.entries.get m) ∧
      (∀ k ∈ t.su.own, k.cause ≠ .peerSilent n) ∧
      (∀ k ∈ s.su.own, k.cause ≠ .peerSilent n → k ∈ t.su.own) ∧
      t.su.effective = formEffective t.su ∧ t.tc = s.tc ∧ t.fd = s.fd ∧ t.gu = s.gu ∧ t.cl = s.cl ∧
      t.pending = s.pending ∧ t.pt.entries = s.pt.entries := by
  have hempties := writeStopEntry_empties (n := n) (trip := s.pu.t) hi.effective
  have hclaims := (keeps_writeStopEntry n .empty s.pu.t s).claims hi
  have hguard := writeStopEntry_gu n .empty s.pu.t s
  have hconfig := writeStopEntry_cl n .empty s.pu.t s
  have hpending := writeStopEntry_pending n .empty s.pu.t s
  rw [clearOriginator]
  generalize writeStopEntry n .empty s.pu.t s = w at *
  obtain ⟨hown, hentries, htc, hfd, hpeers⟩ := hempties
  have htable := (releaseKey_stopTable (.peerSilent n) w).trans hentries
  refine ⟨?_, fun m hm => ?_, fun k hk => (mem_releaseKey.mp hk).2, fun k hk hc => mem_releaseKey.mpr ⟨hown ▸ hk, hc⟩,
    ((keeps_releaseKey (c := .peerSilent n) nofun w).claims hclaims).effective, (releaseKey_tc _ w).trans htc,
    (releaseKey_fd _ w).trans hfd, (releaseKey_gu _ w).trans hguard, (releaseKey_cl _ w).trans hconfig,
    (releaseKey_pending _ w).trans hpending, (releaseKey_entries _ w).trans hpeers⟩
  · rw [htable, Table.get_set_self]
  · rw [htable, Table.get_set_ne _ hm.symm]

theorem stopClear_meets {s s1 : State} {c : Command} {n : Station} (h : Delivered pickStopClear s c n.val s1) :
    exec .stopClear s = .next (stopClear c n s1) :=
  congrArg Host.Outcome.next ((withCommand_of h (if_pos n.isLt)).trans (dif_pos n.isLt))

/-- Settles O50: the four originators by the equation of STOP-CLEAR, and REARM by the class. -/
theorem stopsAreCleared : Obligations.StopsAreCleared := by
  refine ⟨fun s s1 e c n htaken hc hn => ?_, fun s s1 c n h => ?_, fun s s1 c h => ?_⟩
  · exact congrArg Host.Outcome.next (withCommand_early htaken hc (if_neg (Nat.not_lt.mpr hn)))
  · have hmeets := stopClear_meets h
    obtain ⟨q, rfl⟩ := h.onlyQueue
    refine ⟨fun hself => hmeets.trans (congrArg Host.Outcome.next (if_pos hself)), fun hother hlive => ?_,
      fun hother hunknown => ?_, fun hother hsilent hi => ?_⟩
    all_goals
      have hcase := hmeets.trans (congrArg Host.Outcome.next (if_neg hother))
    · rw [show (peer (s.setLc { s.lc with rxq := q }) n).liveness = _ from hlive] at hcase
      exact hcase
    · rw [show (peer (s.setLc { s.lc with rxq := q }) n).liveness = _ from hunknown] at hcase
      exact hcase
    · rw [show (peer (s.setLc { s.lc with rxq := q }) n).liveness = _ from hsilent] at hcase
      exact ⟨_, hcase, clearOriginator_clears (claimsInv_congr (s := s) rfl hi)⟩
  · have hrun : rearmEffect s = _ := withCommand_noEarly h
    obtain ⟨q, rfl⟩ := h.onlyQueue
    exact ⟨fun hsever => congrArg Host.Outcome.next (hrun.trans (if_pos hsever)),
      fun hbelow => congrArg Host.Outcome.next (hrun.trans (if_neg hbelow))⟩

end Sys2Proof.Machine
end


section
/-! PROOFS. The axis commands: what a fold over axes leaves, JOG, GOTO, CONTROL-RELEASE and FAULT-CLEAR. -/

namespace Sys2Proof.Machine

/-! ### The first of several indices -/

-- In place, so that the parts of the text are elaborated one after the other and not all at once.
set_option Elab.async false in
/-- The least index that passes is the first that is found. -/
theorem find_finRange {n : Nat} {p : Fin n → Bool} {k : Fin n} (h : Least (fun i => p i = true) k) :
    (List.finRange n).find? p = some k := by
  refine List.find?_eq_some_iff_getElem.mpr ⟨h.1, k.val, by simp, by simp, fun j hj => ?_⟩
  have hno := h.2 ⟨j, hj.trans k.isLt⟩ hj
  simpa using hno

theorem find_finRange_none {n : Nat} {p : Fin n → Bool} (h : ∀ i, ¬ p i = true) : (List.finRange n).find? p = none :=
  List.find?_eq_none.mpr fun i _ => h i

theorem Least.congr {n : Nat} {P Q : Fin n → Prop} {k : Fin n} (h : Least P k) (hPQ : ∀ i, P i ↔ Q i) : Least Q k :=
  ⟨(hPQ k).mp h.1, fun j hj hq => h.2 j hj ((hPQ j).mpr hq)⟩

/-! ### A fold that deals with one axis after the other -/

/-- After a fold over different axes each axis is as its own step left it, from what it was before the fold. -/
theorem foldl_perAxis {α β : Type} {ax : α → Axis} {f : State → α → State} {R : State → State → Prop}
    {view : Axis → State → β} (hrefl : ∀ u, R u u) (htrans : ∀ {u v w}, R u v → R v w → R u w)
    (hR : ∀ u x, R u (f u x)) (hview : ∀ u x j, j ≠ ax x → view j (f u x) = view j u) (l : List α)
    (hl : (l.map ax).Nodup) (s : State) : R s (l.foldl f s) ∧ (∀ j, j ∉ l.map ax → view j (l.foldl f s) = view j s) ∧
      ∀ x ∈ l, ∃ u, R s u ∧ view (ax x) u = view (ax x) s ∧ view (ax x) (l.foldl f s) = view (ax x) (f u x) := by
  induction l generalizing s with
  | nil => exact ⟨hrefl s, fun _ _ => rfl, fun x hx => nomatch hx⟩
  | cons y l ih =>
    obtain ⟨hy, hl⟩ := List.nodup_cons.mp hl
    obtain ⟨hfold, hother, hown⟩ := ih hl (f s y)
    refine ⟨htrans (hR s y) hfold, fun j hj => ?_, fun x hx => ?_⟩
    · obtain ⟨hne, hj⟩ := not_or.mp (mt List.mem_cons.mpr hj)
      exact (hother j hj).trans (hview s y j hne)
    · rcases List.mem_cons.mp hx with rfl | hx
      · exact ⟨s, hrefl s, rfl, hother _ hy⟩
      · obtain ⟨u, hu, heq, hfin⟩ := hown x hx
        have hne : ax x ≠ ax y := fun h => hy (h ▸ List.mem_map_of_mem hx)
        exact ⟨u, htrans (hR s y) hu, heq.trans (hview s y _ hne), hfin⟩

/-- Of the channels and the lens maps alone, and neither punches nor samples. -/
def AxesOnly (s t : State) : Prop :=
  ChangesOnly [.ax, .lmu] s t ∧ t.ax.punches = s.ax.punches ∧ t.ax.samples = s.ax.samples

/-- The channel and the lens maps of an axis. -/
def axisView (i : Axis) (s : State) : AxisChannel × LensChannel := (axisCh s i, s.lmu.get i)

theorem AxesOnly.refl (s : State) : AxesOnly s s := ⟨.refl _ _, rfl, rfl⟩

theorem AxesOnly.trans {s t u : State} (h : AxesOnly s t) (h' : AxesOnly t u) : AxesOnly s u :=
  ⟨h.1.trans h'.1, h'.2.1.trans h.2.1, h'.2.2.trans h.2.2⟩

theorem AxesOnly.cl {s t : State} (h : AxesOnly s t) : t.cl = s.cl := h.1.1 .cl (by decide)
theorem AxesOnly.su {s t : State} (h : AxesOnly s t) : t.su = s.su := h.1.1 .su (by decide)
theorem AxesOnly.pu {s t : State} (h : AxesOnly s t) : t.pu = s.pu := h.1.1 .pu (by decide)
theorem AxesOnly.ts {s t : State} (h : AxesOnly s t) : t.ts = s.ts := h.1.1 .ts (by decide)
theorem AxesOnly.tc {s t : State} (h : AxesOnly s t) : t.tc = s.tc := h.1.1 .tc (by decide)
theorem AxesOnly.fd {s t : State} (h : AxesOnly s t) : t.fd = s.fd := h.1.1 .fd (by decide)

theorem changesOnly_lmu {bs : List Block} {s : State} {x : Table LensChannel 3} (hb : .lmu ∈ bs) :
    ChangesOnly bs s (s.setLmu x) :=
  (changesOnly_iff _ _ _).mpr ⟨fun _ => rfl, fun _ => rfl, fun _ => rfl, (absurd hb ·), fun _ => rfl,
    fun _ => rfl, fun _ => rfl, fun _ => rfl, fun _ => rfl, fun _ => rfl, fun _ => rfl, rfl⟩

theorem changeover_changesOnly (i : Axis) (s : State) : ChangesOnly [.lmu] s (changeover i s) := by
  simp only [changeover]
  split
  · exact .refl _ _
  · exact changesOnly_lmu (.head _)

theorem setChannel_changesOnly (i : Axis) (c : AxisChannel) (s : State) :
    ChangesOnly [.ax, .lmu] s (setChannel i c s) := by
  rw [setChannel]
  exact .ite (fun _ => changesOnly_ax (.head _)) fun _ =>
    (changesOnly_ax (.head _)).trans ((changeover_changesOnly i _).among (.tail _ (.head _)))

theorem setChannel_axesOnly (i : Axis) (c : AxisChannel) (s : State) : AxesOnly s (setChannel i c s) :=
  ⟨setChannel_changesOnly i c s, by rw [setChannel_ax], by rw [setChannel_ax]⟩

theorem setChannel_view {i j : Axis} (h : j ≠ i) (c : AxisChannel) (s : State) :
    axisView j (setChannel i c s) = axisView j s := by
  rw [axisView, axisCh_setChannel, setChannel_maps, if_neg h.symm, if_neg fun hij => h hij.1.symm, axisView]

theorem axisCh_setChannel_self (i : Axis) (c : AxisChannel) (s : State) :
    axisCh (setChannel i c s) i = keptChannel s.su.driveLatch c := by rw [axisCh_setChannel, if_pos rfl]

/-! ### The checks of JOG and GOTO (R41) -/

theorem namedValues_axes (t : Table (Option (BitVec 32)) 3) :
    (namedValues t).map Prod.fst = allAxes.filter fun i => (t.get i).isSome := by
  rw [namedValues]
  induction allAxes with
  | nil => rfl
  | cons i l ih => cases hi : t.get i <;> simp [hi, ih]

theorem mem_namedValues {t : Table (Option (BitVec 32)) 3} {i : Axis} {n : Int} :
    (i, n) ∈ namedValues t ↔ ∃ v, t.get i = some v ∧ n = v.toInt := by
  simp only [namedValues, List.mem_filterMap, mem_allAxes, true_and, Option.map_eq_some_iff, Prod.mk.injEq]
  constructor
  · rintro ⟨j, v, hv, rfl, rfl⟩
    exact ⟨v, hv, rfl⟩
  · rintro ⟨v, hv, rfl⟩
    exact ⟨i, v, hv, rfl, rfl⟩

theorem namedValues_nodup (t : Table (Option (BitVec 32)) 3) : ((namedValues t).map Prod.fst).Nodup := by
  rw [namedValues_axes]
  exact allAxes_nodup.filter _

theorem not_mem_namedValues {t : Table (Option (BitVec 32)) 3} {i : Axis} (h : t.get i = none) :
    i ∉ (namedValues t).map Prod.fst := by
  rw [namedValues_axes, List.mem_filter, h]
  exact fun hi => nomatch hi.2

theorem firstNamed_find (t : Table (Option (BitVec 32)) 3) (p : Axis → Bool) :
    firstAxis (namedValues t) p = allAxes.find? fun i => (t.get i).isSome && p i := by
  rw [firstAxis, namedValues_axes, List.find?_filter]
  simp only [Bool.decide_and, Bool.decide_eq_true]

theorem any_namedValues {t : Table (Option (BitVec 32)) 3} {p : Axis × Int → Bool} :
    (namedValues t).any p = true ↔ ∃ i v, t.get i = some v ∧ p (i, v.toInt) = true := by
  rw [List.any_eq_true]
  constructor
  · rintro ⟨⟨i, n⟩, hx, hp⟩
    obtain ⟨v, hv, rfl⟩ := mem_namedValues.mp hx
    exact ⟨i, v, hv, hp⟩
  · rintro ⟨i, v, hv, hp⟩
    exact ⟨(i, v.toInt), mem_namedValues.mpr ⟨v, hv, rfl⟩, hp⟩

/-- The first named axis that fails a check. -/
theorem firstNamed_least {t : Table (Option (BitVec 32)) 3} {p : Axis → Bool} {P : Axis → Prop} {a : Axis}
    (h : Least (fun i => namedIn t i ∧ P i) a) (hp : ∀ i, p i = true ↔ P i) :
    firstAxis (namedValues t) p = some a := by
  rw [firstNamed_find]
  refine find_finRange (h.congr fun i => ?_)
  rw [Bool.and_eq_true, hp, namedIn, Option.isSome_iff_ne_none]

theorem firstNamed_none {t : Table (Option (BitVec 32)) 3} {p : Axis → Bool} {P : Axis → Prop}
    (h : ∀ i, ¬ (namedIn t i ∧ P i)) (hp : ∀ i, p i = true ↔ P i) : firstAxis (namedValues t) p = none := by
  rw [firstNamed_find]
  refine find_finRange_none fun i => ?_
  rw [Bool.and_eq_true, hp, Option.isSome_iff_ne_none]
  exact h i

theorem heldByOther_iff (n : Station) (k : Controller) : heldByOther n k = true ↔ k ≠ .none ∧ k ≠ .console n := by
  simp [heldByOther]

/-- A row that refuses by `moveRefusal` is checked in the order of R41. -/
theorem movesAreChecked_of {row : Instr} {isGoto : Bool} {c : Command} {t : Table (Option (BitVec 32)) 3}
    {s s1 : State} (heq : moveRefusal isGoto c.sender (namedValues t) s1 = moveRefusal isGoto c.sender (namedValues t) s)
    (hrow : ∀ r d, moveRefusal isGoto c.sender (namedValues t) s1 = some (r, d) →
      exec row s = .next (refuseWith c r d s1)) : movesAreChecked row isGoto c t s s1 := by
  have hdis : ∀ i, ((axisCh s i).state == .disabled) = true ↔ (axisCh s i).state = .disabled := fun i => beq_iff_eq
  have hheld : ∀ i, heldByOther c.sender (axisCh s i).ctrl = true ↔
      (axisCh s i).ctrl ≠ .none ∧ (axisCh s i).ctrl ≠ .console c.sender := fun i => heldByOther_iff _ _
  have hpunch : ∀ i, (isGoto && (axisCh s i).state == .override) = true ↔
      isGoto = true ∧ (axisCh s i).state = .override := fun i => by rw [Bool.and_eq_true, beq_iff_eq]
  have hmap : ∀ i, (isGoto && (axisCfg s i).kind.isLens && (activeMap s i).isEmpty) = true ↔
      isGoto = true ∧ (axisCfg s i).kind.isLens = true ∧ activeMap s i = [] := fun i => by
    rw [Bool.and_eq_true, Bool.and_eq_true, List.isEmpty_iff, and_assoc]
  have hbrake : ∀ i, ((axisCh s i).state == .braking) = true ↔ (axisCh s i).state = .braking := fun i => beq_iff_eq
  rw [heq] at hrow
  refine ⟨fun a h => hrow _ _ ?_, fun h1 => ⟨fun a h => hrow _ _ ?_, fun h2 => ⟨fun a h => hrow _ _ ?_, fun h3 =>
    ⟨fun hcls => hrow _ _ ?_, fun hcls => ⟨fun hl => hrow _ _ ?_, fun hl => ⟨fun a h => hrow _ _ ?_, fun h4 =>
      ⟨fun a h => hrow _ _ ?_, fun h5 => heq.trans ?_⟩⟩⟩⟩⟩⟩⟩
  · rw [moveRefusal, firstNamed_least h hdis]
  · rw [moveRefusal, firstNamed_none (h1 ·) hdis, firstNamed_least h hheld]
  · rw [moveRefusal, firstNamed_none (h1 ·) hdis, firstNamed_none (h2 ·) hheld, firstNamed_least h hpunch]
  · rw [moveRefusal, firstNamed_none (h1 ·) hdis, firstNamed_none (h2 ·) hheld, firstNamed_none (h3 ·) hpunch]
    exact if_pos hcls
  · rw [moveRefusal, firstNamed_none (h1 ·) hdis, firstNamed_none (h2 ·) hheld, firstNamed_none (h3 ·) hpunch, hl]
    exact if_neg hcls
  · rw [moveRefusal, firstNamed_none (h1 ·) hdis, firstNamed_none (h2 ·) hheld, firstNamed_none (h3 ·) hpunch, hl,
      firstNamed_least h hmap]
    exact if_neg hcls
  · rw [moveRefusal, firstNamed_none (h1 ·) hdis, firstNamed_none (h2 ·) hheld, firstNamed_none (h3 ·) hpunch, hl,
      firstNamed_none (h4 ·) hmap, firstNamed_least h hbrake]
    exact if_neg hcls
  · rw [moveRefusal, firstNamed_none (h1 ·) hdis, firstNamed_none (h2 ·) hheld, firstNamed_none (h3 ·) hpunch, hl,
      firstNamed_none (h4 ·) hmap, firstNamed_none (h5 ·) hbrake]
    exact if_neg hcls

/-! ### JOG (R42) -/

theorem jog_meets {s s1 : State} {c : Command} {demands : Table (Option (BitVec 32)) 3}
    (h : Delivered pickJog s c demands s1) : exec .jog s = .next (
      match moveRefusal false c.sender (namedValues demands) s1 with
      | some (r, d) => refuseWith c r d s1
      | none => answerClamped c ((namedValues demands).any fun x => saturateDemand (axisCfg s1 x.1) x.2 != x.2)
          ((namedValues demands).foldl (jogAxis c.sender) s1)) :=
  congrArg Host.Outcome.next (withCommand_noEarly h)

/-- The channel that an accepted JOG leaves. -/
theorem jogChannel_fields (cfg : NodeConfig) (sender : Station) (demand : Int) (latch : Bool) (k : AxisChannel) :
    let k' := keptChannel latch (jogChannel cfg sender demand k)
    k'.demand = demand ∧ k'.jogTimer = some cfg.jogTimeout ∧
      k'.ctrl = (if k.ctrl = .none then .console sender else k.ctrl) ∧
      k'.state = (if k.state = .rest ∨ k.state = .goto then .jog else k.state) ∧
      k'.idleTimer = (if k.state = .rest then none else k.idleTimer) ∧
      k'.segment = (if k.state = .goto then none else k.segment) ∧ k'.p8 = k.p8 ∧ k'.v8 = k.v8 := by
  simp only [keptChannel, jogChannel, takenBy]
  cases k.state <;> simp

/-- What a fold over named axes leaves, axis by axis. -/
theorem foldl_named {f : State → Axis × Int → State} (hf : ∀ u x, AxesOnly u (f u x) ∧
      ∀ j, j ≠ x.1 → axisView j (f u x) = axisView j u) (t : Table (Option (BitVec 32)) 3) (s : State) :
    AxesOnly s ((namedValues t).foldl f s) ∧
      (∀ i, t.get i = none → axisView i ((namedValues t).foldl f s) = axisView i s) ∧
      ∀ i v, t.get i = some v → ∃ u, AxesOnly s u ∧ axisView i u = axisView i s ∧
        axisView i ((namedValues t).foldl f s) = axisView i (f u (i, v.toInt)) := by
  obtain ⟨hall, hother, hown⟩ := foldl_perAxis (view := axisView) AxesOnly.refl AxesOnly.trans
    (fun u x => (hf u x).1) (fun u x => (hf u x).2) (namedValues t) (namedValues_nodup t) s
  exact ⟨hall, fun i hi => hother i (not_mem_namedValues hi),
    fun i v hv => hown (i, v.toInt) (mem_namedValues.mpr ⟨v, hv, rfl⟩)⟩

/-- The line controller after an answer is that of the state before it. -/
theorem answer_lc {s u : State} (h : u.lc = s.lc) (c : Command) (r : AnswerResult) (d : Detail) :
    (answer c r d u).lc = (answer c r d s).lc := by
  have hhand : ∀ p, (handOver p u).lc = (handOver p s).lc := fun p => by rw [handOver_handed, handOver_handed, h]
  simp only [answer]
  rw [apply_ite State.lc, apply_ite State.lc, hhand, h]

/-- An answer behind a change of the axes alone, after a delivery. -/
theorem answered_axesOnly {s u : State} {q : List RxEntry} (h : AxesOnly (s.setLc { s.lc with rxq := q }) u)
    (c : Command) (clamped : Bool) :
    ChangesOnly [.lc, .ax, .lmu] s (answerClamped c clamped u) ∧
      (answerClamped c clamped u).lc = (answerClamped c clamped (s.setLc { s.lc with rxq := q })).lc ∧
      (answerClamped c clamped u).ax = u.ax ∧ (answerClamped c clamped u).lmu = u.lmu := by
  have hanswer := answer_changesOnly c (if clamped then .doneClamped else .done) {} u
  exact ⟨((changesOnly_lc (.head _)).trans (h.1.mono fun _ => List.mem_cons_of_mem _)).trans (hanswer.among (.head _)),
    answer_lc (h.1.1 .lc (by decide)) _ _ _, hanswer.1 .ax (by decide), hanswer.1 .lmu (by decide)⟩

/-- Settles O14: the checks by `moveRefusal`, and the named axes each by its own step of the fold. -/
theorem jogSetsTheDemand : Obligations.JogSetsTheDemand := by
  refine ⟨fun s s1 c demands h => ?_, fun s s1 c demands h haccepted => ?_⟩
  · have hmeets := jog_meets h
    refine movesAreChecked_of ?_ fun r d hr => by rw [hmeets, hr]
    obtain ⟨q, rfl⟩ := h.onlyQueue
    rfl
  · have hmeets := jog_meets h
    rw [haccepted] at hmeets
    have hclamps : (namedValues demands).any (fun x => saturateDemand (axisCfg s1 x.1) x.2 != x.2) =
        decide (∃ a v, demands.get a = some v ∧
          clampInt (-(axisCfg s a).vmax) (axisCfg s a).vmax v.toInt ≠ v.toInt) := by
      obtain ⟨q, rfl⟩ := h.onlyQueue
      rw [Bool.eq_iff_iff, any_namedValues, decide_eq_true_iff]
      simp only [bne_iff_ne]
      rfl
    rw [hclamps] at hmeets
    obtain ⟨hall, hother, hown⟩ := foldl_named (f := jogAxis c.sender)
      (fun u x => ⟨setChannel_axesOnly _ _ _, fun j hj => setChannel_view hj _ _⟩) demands s1
    obtain ⟨q, rfl⟩ := h.onlyQueue
    obtain ⟨hchanges, hlc, hax, hlmu⟩ := answered_axesOnly hall c _
    refine ⟨_, hmeets, hchanges, hlc, ?_, ?_, fun a ha => ?_, fun a v hv => ?_⟩
    · rw [hax]
      exact hall.2.1
    · rw [hax]
      exact hall.2.2
    · rw [axisCh, hax, hlmu]
      exact Prod.ext_iff.mp (hother a ha)
    · obtain ⟨u, hu, hview, hfin⟩ := hown a v hv
      have hch : axisCh (answerClamped c _ _) a = _ := (congrArg (·.get a) (congrArg AxisBlock.ch hax)).trans
        ((Prod.ext_iff.mp hfin).1.trans (axisCh_setChannel_self a _ u))
      have hfields := jogChannel_fields u.cl.cfg c.sender (saturateDemand (axisCfg u a) v.toInt) u.su.driveLatch (axisCh u a)
      have hsame : axisCh u a = axisCh s a := (Prod.ext_iff.mp hview).1
      have hcfg : axisCfg u a = axisCfg s a := by
        rw [axisCfg, hu.cl]
        rfl
      rw [hcfg, hsame, hu.cl] at hfields hch
      rw [hch]
      exact hfields

/-! ### Positioning (R43) -/

theorem clampToMap_eq (m : LensMap) (u : Int) : clampToMap m u =
    match m.head?, m.getLast? with
    | some first, some last => max first.unit (min last.unit u)
    | _, _ => u := by
  cases m with
  | nil => rfl
  | cons p rest =>
    rw [List.head?_cons, List.getLast?_cons]
    rfl

theorem positionTarget_eq (s : State) (i : Axis) (v : Int) : positionTarget s i v = clampedTarget s i v := by
  rw [positionTarget, clampToMap_eq, clampedTarget]
  rfl

theorem targetCount_eq (s : State) (i : Axis) (v : Int) :
    targetCount s i (clampedTarget s i v) = countToReach s i v := rfl

theorem positionClampsAt_iff (s : State) (i : Axis) (v : Int) : positionClampsAt s i v = true ↔ clampsTarget s i v := by
  simp only [positionClampsAt, positionTarget_eq, targetCount_eq, clampsTarget, Bool.or_eq_true, bne_iff_ne,
    Bool.and_eq_true, ne_eq]

/-- The greatest of a number and the numbers of a list. -/
theorem foldl_max_greatest (l : List Nat) (m : Nat) : m ≤ l.foldl max m ∧ (∀ x ∈ l, x ≤ l.foldl max m) ∧
    (l.foldl max m = m ∨ l.foldl max m ∈ l) := by
  induction l generalizing m with
  | nil => exact ⟨Nat.le_refl m, fun x hx => (List.not_mem_nil hx).elim, .inl rfl⟩
  | cons y l ih =>
    obtain ⟨hle, hall, hmem⟩ := ih (max m y)
    refine ⟨(Nat.le_max_left m y).trans hle, List.forall_mem_cons.mpr ⟨(Nat.le_max_right m y).trans hle, hall⟩, ?_⟩
    rcases hmem with hmem | hmem
    · rw [List.foldl_cons, hmem]
      rcases Nat.le_total m y with h | h
      · exact .inr (by rw [Nat.max_eq_right h]; exact .head _)
      · exact .inl (Nat.max_eq_left h)
    · exact .inr (.tail _ hmem)

/-- The duration of a positioning of these targets. -/
theorem positionDuration_shared {s : State} {asked : Nat} {l : List (Axis × Int)} {targets : Axis → Option Int}
    (hl : ∀ i v, (i, v) ∈ l ↔ targets i = some v) : SharedDuration s asked targets (positionDuration s asked l) := by
  have hdistance : ∀ x : Axis × Int, ceilDiv (1500 * positionDistance s x.1 x.2) (axisCfg s x.1).vmax.toNat =
      travelTime s x.1 x.2 := fun x => by
    rw [positionDistance, positionTarget_eq, targetCount_eq]
    rfl
  obtain ⟨hle, hall, hmem⟩ := foldl_max_greatest
    (l.map fun x => ceilDiv (1500 * positionDistance s x.1 x.2) (axisCfg s x.1).vmax.toNat) (max 500 asked)
  refine ⟨_, rfl, (Nat.le_max_left _ _).trans hle, (Nat.le_max_right _ _).trans hle, fun i v hv => ?_, ?_⟩
  · rw [← hdistance (i, v)]
    exact hall _ (List.mem_map_of_mem ((hl i v).mpr hv))
  · rcases hmem with hmem | hmem
    · rw [hmem]
      rcases Nat.le_total 500 asked with h | h
      · exact .inr (.inl (Nat.max_eq_right h))
      · exact .inl (Nat.max_eq_left h)
    · obtain ⟨⟨i, v⟩, hx, heq⟩ := List.mem_map.mp hmem
      exact .inr (.inr ⟨i, v, (hl i v).mp hx, heq.symm.trans (hdistance _)⟩)

/-- An axis that starts on its positioning segment. -/
theorem startPositioning_axis (dur : Nat) (ctrl : Controller) (i : Axis) (v : Int) (s : State) :
    let k := axisCh (startPositioning dur ctrl (i, v) s) i
    k.state = .goto ∧ k.segment = some
      { t0 := s.pu.tm, dur := dur, p0 := presentUnits s i, p1 := clampedTarget s i v, v0 := 0, v1 := 0,
        zeroStart := true, zeroEnd := true } ∧
      k.ctrl = ctrl ∧ k.demand = 0 ∧ k.jogTimer = none ∧ k.idleTimer = none ∧ k.p8 = (axisCh s i).p8 ∧
      k.v8 = (axisCh s i).v8 := by
  rw [startPositioning, axisCh_setChannel_self, positionTarget_eq]
  exact ⟨rfl, rfl, rfl, rfl, rfl, rfl, rfl, rfl⟩

theorem startPositioning_only (dur : Nat) (ctrl : Controller) (x : Axis × Int) (s : State) :
    AxesOnly s (startPositioning dur ctrl x s) ∧
      ∀ j, j ≠ x.1 → axisView j (startPositioning dur ctrl x s) = axisView j s :=
  ⟨setChannel_axesOnly _ _ _, fun _ hj => setChannel_view hj _ _⟩

/-- What a positioning looks at on an axis. -/
theorem positioning_congr {s u : State} (h : AxesOnly s u) {i : Axis} (hview : axisView i u = axisView i s) :
    presentUnits u i = presentUnits s i ∧ ∀ v, clampedTarget u i v = clampedTarget s i v := by
  obtain ⟨hch, hmap⟩ := Prod.ext_iff.mp hview
  have hch : axisCh u i = axisCh s i := hch
  have hmap : activeMap u i = activeMap s i := congrArg LensChannel.active hmap
  have hcfg : axisCfg u i = axisCfg s i := by rw [axisCfg, h.cl, axisCfg]
  constructor
  · simp only [presentUnits, toUnits, hch, hmap, hcfg]
  · intro v
    simp only [clampedTarget, hmap, hcfg]

/-! ### GOTO (R43) -/

theorem goto_meets {s s1 : State} {c : Command} {d : BitVec 16} {targets : Table (Option (BitVec 32)) 3}
    (h : Delivered pickGoto s c (d, targets) s1) : exec .goto s = .next (
      match moveRefusal true c.sender (namedValues targets) s1 with
      | some (r, d) => refuseWith c r d s1
      | none => answerClamped c (positionClamps s1 (namedValues targets))
          ((namedValues targets).foldl (fun u y => startPositioning (positionDuration s1 d.toNat (namedValues targets))
            (takenBy c.sender (axisCh u y.1).ctrl) y u) s1)) :=
  congrArg Host.Outcome.next (withCommand_noEarly h)

/-- Settles O15: the checks by `moveRefusal`, and the named axes each by its own step of the fold. -/
theorem gotoStartsItsSegments : Obligations.GotoStartsItsSegments := by
  refine ⟨fun s s1 c d targets h => ?_, fun s s1 c d targets h haccepted => ?_⟩
  · have hmeets := goto_meets h
    refine movesAreChecked_of ?_ fun r d hr => by rw [hmeets, hr]
    obtain ⟨q, rfl⟩ := h.onlyQueue
    rfl
  · have hmeets := goto_meets h
    rw [haccepted] at hmeets
    obtain ⟨hall, hother, hown⟩ := foldl_named
      (f := fun u y => startPositioning (positionDuration s1 d.toNat (namedValues targets))
        (takenBy c.sender (axisCh u y.1).ctrl) y u) (fun u x => startPositioning_only _ _ _ _) targets s1
    have hclamps : positionClamps s1 (namedValues targets) = true ↔
        ∃ a v, targets.get a = some v ∧ clampsTarget s1 a v.toInt := by
      simp only [positionClamps, any_namedValues, positionClampsAt_iff]
    have hdur : SharedDuration s1 d.toNat (fun a => (targets.get a).map BitVec.toInt)
        (positionDuration s1 d.toNat (namedValues targets)) :=
      positionDuration_shared fun i v => by
        rw [mem_namedValues, Option.map_eq_some_iff]
        exact exists_congr fun w => and_congr_right fun _ => eq_comm
    obtain ⟨q, rfl⟩ := h.onlyQueue
    obtain ⟨hchanges, hlc, hax, hlmu⟩ := answered_axesOnly hall c (positionClamps _ (namedValues targets))
    refine ⟨_, _, hmeets, hchanges, hdur, fun hsome => ?_, fun hnone => ?_, fun a ha => ?_, fun a v hv => ?_⟩
    · rw [hlc, hclamps.mpr hsome]
    · rw [hlc, Bool.eq_false_iff.mpr (mt hclamps.mp fun ⟨a, v, hv, hc⟩ => hnone a v hv hc)]
    · rw [axisCh, hax, hlmu]
      exact Prod.ext_iff.mp (hother a ha)
    · obtain ⟨u, hu, hview, hfin⟩ := hown a v hv
      have hch : axisCh (answerClamped c _ _) a = _ :=
        (congrArg (·.get a) (congrArg AxisBlock.ch hax)).trans (Prod.ext_iff.mp hfin).1
      have hsame : axisCh u a = axisCh s a := (Prod.ext_iff.mp hview).1
      obtain ⟨hunits, htarget⟩ := positioning_congr hu hview
      obtain ⟨hstate, hseg, hctrl, hdemand, hjog, hidle, hp8, hv8⟩ := startPositioning_axis
        (positionDuration s d.toNat (namedValues targets)) (takenBy c.sender (axisCh u a).ctrl) a v.toInt u
      rw [hunits, htarget, hu.pu] at hseg
      rw [hch]
      exact ⟨hstate, hseg, hctrl.trans (congrArg (takenBy c.sender) (congrArg AxisChannel.ctrl hsame)), hdemand, hjog,
        hidle, hp8.trans (congrArg AxisChannel.p8 hsame), hv8.trans (congrArg AxisChannel.v8 hsame)⟩

/-! ### CONTROL-RELEASE (R39) -/

theorem releaseAxis_changesOnly (i : Axis) (s : State) : ChangesOnly [.ax, .lmu, .ts] s (releaseAxis i s) :=
  (changesOnly_iff _ _ _).mpr ⟨fun _ => releaseAxis_lc i s, fun _ => releaseAxis_pt i s, (absurd (by decide) ·),
    (absurd (by decide) ·), (absurd (by decide) ·), fun _ => releaseAxis_fd i s, fun _ => releaseAxis_tc i s,
    fun _ => releaseAxis_pu i s, fun _ => releaseAxis_gu i s, fun _ => releaseAxis_su i s, fun _ => releaseAxis_cl i s,
    releaseAxis_pending i s⟩

/-- A punch-out leaves the other channels, and its own in REJOIN or FOLLOW under TAKE. -/
theorem punchOutAxis_channels (i : Axis) (s : State) :
    (∀ j, j ≠ i → axisCh (punchOutAxis i s) j = axisCh s j) ∧ (axisCh (punchOutAxis i s) i).ctrl = .take ∧
      ((axisCh (punchOutAxis i s) i).state = .follow ∨ (axisCh (punchOutAxis i s) i).state = .rejoin) := by
  have hbase : ∀ j, axisCh (changeover i (endPunch i s)) j = axisCh s j := fun j => by
    rw [axisCh, changeover_ax, ← axisCh, axisCh_endPunch]
  have hset : ∀ k : AxisChannel, k.ctrl = .take → k.state = .follow ∨ k.state = .rejoin →
      (∀ j, j ≠ i → axisCh (setChannel i k (changeover i (endPunch i s))) j = axisCh s j) ∧
        (axisCh (setChannel i k (changeover i (endPunch i s))) i).ctrl = .take ∧
        ((axisCh (setChannel i k (changeover i (endPunch i s))) i).state = .follow ∨
          (axisCh (setChannel i k (changeover i (endPunch i s))) i).state = .rejoin) := fun k hctrl hstate => by
    refine ⟨fun j hj => ?_, ?_⟩
    · rw [axisCh_setChannel, if_neg hj.symm, hbase]
    · rw [axisCh_setChannel_self]
      exact ⟨hctrl, hstate⟩
  simp only [punchOutAxis]
  split
  · exact hset _ rfl (.inl rfl)
  · split
    · exact hset _ rfl (.inl rfl)
    · exact hset _ rfl (.inr rfl)

theorem releaseAxis_others {i j : Axis} (h : j ≠ i) (s : State) : axisCh (releaseAxis i s) j = axisCh s j := by
  have hset : ∀ k : AxisChannel, axisCh (setChannel i k s) j = axisCh s j := fun k => by
    rw [axisCh_setChannel, if_neg h.symm]
  simp only [releaseAxis]
  split
  · exact hset _
  · exact hset _
  · exact hset _
  · exact (punchOutAxis_channels i s).1 j h
  · rfl

theorem keptChannel_rest {latch : Bool} {k : AxisChannel} (h : k.state = .rest) : keptChannel latch k =
    { k with segmentCopy := none, followCount := if latch then k.followCount else 0 } := by
  cases latch <;> simp [keptChannel, tracks, h]

theorem keptChannel_moving {latch : Bool} {k : AxisChannel} (h : k.state = .jog ∨ k.state = .goto) :
    keptChannel latch k = { k with segmentCopy := none } := by
  rcases h with h | h <;> simp [keptChannel, tracks, h]

/-- What a release leaves of the channel that is released, state by state. -/
theorem releaseAxis_channel (i : Axis) (s : State) :
    let k := axisCh s i
    let k' := axisCh (releaseAxis i s) i
    (k.state = .rest → k' = { k with
      ctrl := .none, idleTimer := none, segmentCopy := none,
      followCount := if s.su.driveLatch then k.followCount else 0 }) ∧
    (k.state = .jog → k' = { k with ctrl := .none, demand := 0, segmentCopy := none }) ∧
    (k.state = .goto → k' = { k with ctrl := .none, segmentCopy := none }) ∧
    (k.state = .override → k'.ctrl = .take ∧ (k'.state = .follow ∨ k'.state = .rejoin)) ∧
    (k.state = .braking ∨ k.state = .severed ∨ k.state = .fault → k' = k) := by
  refine ⟨fun h => ?_, fun h => ?_, fun h => ?_, fun h => ?_, fun h => ?_⟩
  · simp only [releaseAxis, h, axisCh_setChannel_self]
    exact keptChannel_rest rfl
  · simp only [releaseAxis, h, axisCh_setChannel_self]
    exact keptChannel_moving (.inl rfl)
  · simp only [releaseAxis, h, axisCh_setChannel_self]
    exact keptChannel_moving (.inr rfl)
  · simp only [releaseAxis, h]
    exact (punchOutAxis_channels i s).2
  · rcases h with h | h | h <;> simp only [releaseAxis, h]

theorem mem_axesOf {set : BitVec 3} {i : Axis} : i ∈ axesOf set ↔ set.getLsbD i.val = true := by
  rw [axesOf, List.mem_filter, and_iff_right (mem_allAxes i)]

theorem controlRelease_meets {s s1 : State} {c : Command} {set : BitVec 3} (h : Delivered pickControlRelease s c set s1) :
    exec .controlRelease s = .next (
      match (axesOf set).find? fun i => heldByOther c.sender (axisCh s1 i).ctrl with
      | some i => refuseWith c .notController { number := some i.val } s1
      | none => answerDone c (releaseNamed c.sender (axesOf set) s1)) :=
  congrArg Host.Outcome.next (withCommand_noEarly h)

/-- The named axes of the sender are released, each by its own step. -/
theorem releaseNamed_channels (n : Station) (set : BitVec 3) (s : State) :
    let t := releaseNamed n (axesOf set) s
    ChangesOnly [.ax, .lmu, .ts] s t ∧
      (∀ i : Axis, set.getLsbD i.val = false ∨ (axisCh s i).ctrl ≠ .console n → axisCh t i = axisCh s i) ∧
      ∀ i : Axis, set.getLsbD i.val = true → (axisCh s i).ctrl = .console n →
        ∃ u, ChangesOnly [.ax, .lmu, .ts] s u ∧ axisCh u i = axisCh s i ∧
          axisCh t i = axisCh (releaseAxis i u) i := by
  intro t
  obtain ⟨hall, hother, hown⟩ := foldl_perAxis (ax := id) (R := ChangesOnly [.ax, .lmu, .ts])
    (view := fun i u => axisCh u i) (f := fun u i => if (axisCh u i).ctrl = .console n then releaseAxis i u else u)
    (.refl _) (fun h h' => h.trans h') (fun u i => .ite (fun _ => releaseAxis_changesOnly i u) fun _ => .refl _ _)
    (fun u i j hj => by
      split
      · exact releaseAxis_others hj u
      · rfl)
    (axesOf set) (by rw [List.map_id]; exact allAxes_nodup.filter _) s
  rw [List.map_id] at hother
  refine ⟨hall, fun i hi => ?_, fun i hset hctrl => ?_⟩
  · by_cases hm : i ∈ axesOf set
    · obtain ⟨u, -, hu, hfin⟩ := hown i hm
      have hno : (axisCh u i).ctrl ≠ .console n := by
        rw [show axisCh u i = axisCh s i from hu]
        exact hi.resolve_left (by rw [mem_axesOf.mp hm]; decide)
      exact hfin.trans ((congrArg (axisCh · i) (if_neg hno)).trans hu)
    · exact hother i hm
  · obtain ⟨u, hchanges, hu, hfin⟩ := hown i (mem_axesOf.mpr hset)
    have hyes : (axisCh u i).ctrl = .console n := by rwa [show axisCh u i = axisCh s i from hu]
    exact ⟨u, hchanges, hu, hfin.trans (congrArg (axisCh · i) (if_pos hyes))⟩

/-- Settles O16: the refusal by the first axis of another, and each axis by its own step of the fold. -/
theorem controlReleaseFreesAxes : Obligations.ControlReleaseFreesAxes := by
  intro s s1 c set h
  have hmeets := controlRelease_meets h
  refine ⟨fun a ha => ?_, fun hfree => ?_⟩
  · have hfirst : (axesOf set).find? (fun i => heldByOther c.sender (axisCh s1 i).ctrl) = some a := by
      rw [axesOf, List.find?_filter]
      obtain ⟨q, rfl⟩ := h.onlyQueue
      refine find_finRange (ha.congr fun i => ?_)
      rw [decide_eq_true_iff, heldByOther_iff]
      rfl
    rw [hmeets, hfirst]
  · have hnone : (axesOf set).find? (fun i => heldByOther c.sender (axisCh s1 i).ctrl) = none := by
      obtain ⟨q, rfl⟩ := h.onlyQueue
      refine List.find?_eq_none.mpr fun i hi hheld => ?_
      obtain ⟨hn, hc⟩ := (heldByOther_iff _ _).mp hheld
      rcases hfree i (mem_axesOf.mp hi) with hctrl | hctrl
      · exact hn hctrl
      · exact hc hctrl
    rw [hnone] at hmeets
    obtain ⟨hall, hstay, hown⟩ := releaseNamed_channels c.sender set s1
    obtain ⟨q, rfl⟩ := h.onlyQueue
    have hanswer := answerDone_changesOnly c (releaseNamed c.sender (axesOf set) (s.setLc { s.lc with rxq := q }))
    have hax : ∀ i, axisCh (answerDone c (releaseNamed c.sender (axesOf set) (s.setLc { s.lc with rxq := q }))) i =
        axisCh (releaseNamed c.sender (axesOf set) (s.setLc { s.lc with rxq := q })) i := fun i =>
      congrArg (fun x => AxisBlock.ch x |>.get i) (hanswer.1 .ax (by decide))
    refine ⟨_, hmeets, ?_, answer_lc (hall.1 .lc (by decide)) _ _ _, fun i hi => (hax i).trans (hstay i hi),
      fun i hi hctrl => ?_⟩
    · exact ((changesOnly_lc (.head _)).trans (hall.mono fun _ => List.mem_cons_of_mem _)).trans (hanswer.among (.head _))
    · obtain ⟨u, hu, hsame, hfin⟩ := hown i hi hctrl
      have hchannel := releaseAxis_channel i u
      have hsame : axisCh u i = axisCh s i := hsame
      rw [hax, hfin]
      rw [hsame, show u.su = s.su from hu.1 .su (by decide)] at hchannel
      exact hchannel

/-! ### FAULT-CLEAR (R34) -/

/-- A channel whose fault is cleared, with p8 as the position that it tracks: at rest, or as the class e has it. -/
structure IsCleared (p8 : Int) (e : Cls) (k : AxisChannel) : Prop where
  position : k.p8 = p8
  velocity : k.v8 = 0
  follow : k.followCount = 0
  causes : k.faultFollow = false ∧ k.faultEncoder = false
  state : k.state = .rest ∨ (e = .halt ∧ k.state = .braking) ∨ (e = .sever ∧ k.state = .severed)

theorem clearedChannel_isCleared (cfg : NodeConfig) (a : AxisConfig) (k : AxisChannel) (e : Cls) :
    IsCleared (trackOf a k.lastValid) e (clearedChannel cfg a k) := ⟨rfl, rfl, rfl, ⟨rfl, rfl⟩, .inl rfl⟩

theorem IsCleared.kept {p8 : Int} {e : Cls} {k : AxisChannel} (h : IsCleared p8 e k) (latch : Bool) :
    IsCleared p8 e (keptChannel latch k) :=
  ⟨h.position, h.velocity, keptChannel_followCount h.follow, h.causes, h.state⟩

/-- A cleared channel takes any change of the class and stays cleared. -/
theorem IsCleared.classChannel {p8 : Int} {old : Cls} {k : AxisChannel} (h : IsCleared p8 old k) (cfg : NodeConfig)
    (new : Cls) : IsCleared p8 new (classChannel cfg old new k) := by
  obtain ⟨hp, hv, hf, hc, hst⟩ := h
  obtain ⟨st, ctrl, p, v8⟩ := k
  rcases hst with hst | ⟨rfl, hst⟩ | ⟨rfl, hst⟩
  · obtain rfl : st = .rest := hst
    cases new with
    | none => exact ⟨hp, hv, hf, hc, .inl rfl⟩
    | hold =>
      change IsCleared p8 .hold (if old = .none then _ else _)
      split <;> exact ⟨hp, hv, hf, hc, .inl rfl⟩
    | halt => exact ⟨hp, hv, hf, hc, .inr (.inl ⟨rfl, rfl⟩)⟩
    | sever => exact ⟨hp, rfl, rfl, hc, .inr (.inr ⟨rfl, rfl⟩)⟩
  · obtain rfl : st = .braking := hst
    have hfall : clsGe .halt .halt ∧ v8 = 0 := ⟨by decide, hv⟩
    cases new with
    | none =>
      change IsCleared p8 .none (if clsGe .halt .halt ∧ v8 = 0 then _ else _)
      rw [if_pos hfall]
      exact ⟨hp, hv, hf, hc, .inl rfl⟩
    | hold =>
      change IsCleared p8 .hold (if clsGe .halt .halt ∧ v8 = 0 then _ else _)
      rw [if_pos hfall]
      exact ⟨hp, hv, hf, hc, .inl rfl⟩
    | halt => exact ⟨hp, hv, hf, hc, .inr (.inl ⟨rfl, rfl⟩)⟩
    | sever => exact ⟨hp, rfl, rfl, hc, .inr (.inr ⟨rfl, rfl⟩)⟩
  · obtain rfl : st = .severed := hst
    cases new with
    | none => exact ⟨hp, rfl, hf, hc, .inl rfl⟩
    | hold => exact ⟨hp, rfl, hf, hc, .inl rfl⟩
    | halt => exact ⟨hp, rfl, hf, hc, .inr (.inl ⟨rfl, rfl⟩)⟩
    | sever => exact ⟨hp, hv, hf, hc, .inr (.inr ⟨rfl, rfl⟩)⟩

/-- The state in which a cleared axis stands under a class. -/
def stateUnder : Cls → AxisState
  | .sever => .severed
  | .halt => .braking
  | _ => .rest

/-- A cleared channel that takes the class under which it stands. -/
theorem IsCleared.takes {p8 : Int} {e : Cls} {k : AxisChannel} (h : IsCleared p8 e k) (cfg : NodeConfig)
    (he : clsGe e .halt) :
    IsCleared p8 e (Machine.classChannel cfg .none e k) ∧ (Machine.classChannel cfg .none e k).state = stateUnder e := by
  obtain ⟨hp, hv, hf, hc, hst⟩ := h
  obtain ⟨st⟩ := k
  rcases hst with hst | ⟨rfl, hst⟩ | ⟨rfl, hst⟩
  · obtain rfl : st = .rest := hst
    cases e with
    | none => exact absurd he (by decide)
    | hold => exact absurd he (by decide)
    | halt => exact ⟨⟨hp, hv, hf, hc, .inr (.inl ⟨rfl, rfl⟩)⟩, rfl⟩
    | sever => exact ⟨⟨hp, rfl, rfl, hc, .inr (.inr ⟨rfl, rfl⟩)⟩, rfl⟩
  · obtain rfl : st = .braking := hst
    exact ⟨⟨hp, hv, hf, hc, .inr (.inl ⟨rfl, rfl⟩)⟩, rfl⟩
  · obtain rfl : st = .severed := hst
    exact ⟨⟨hp, hv, hf, hc, .inr (.inr ⟨rfl, rfl⟩)⟩, rfl⟩

/-- Below HALT a cleared channel is at rest. -/
theorem IsCleared.rests {p8 : Int} {e : Cls} {k : AxisChannel} (h : IsCleared p8 e k) (he : ¬ clsGe e .halt) :
    k.state = stateUnder e := by
  rcases h.state with hst | ⟨rfl, -⟩ | ⟨rfl, -⟩
  · cases e with
    | none => exact hst
    | hold => exact hst
    | halt => exact absurd (by decide) he
    | sever => exact absurd (by decide) he
  · exact absurd (by decide) he
  · exact absurd (by decide) he

theorem releaseKey_isCleared {p8 : Int} {i : Axis} {s : State} (h : IsCleared p8 s.su.effective (axisCh s i)) (c : Cause) :
    IsCleared p8 (releaseKey c s).su.effective (axisCh (releaseKey c s) i) := by
  simp only [releaseKey]
  split
  · have hown : axisCh (changeOwn false c (s.su.own.filter fun k => k.cause != c) s) i = axisCh s i := by simp [axisCh]
    generalize changeOwn false c (s.su.own.filter fun k => k.cause != c) s = u at hown ⊢
    split
    · next heff =>
      have hann := (announce_changes u).1
      rw [show (announce u).su = u.su from hann.1 .su (by decide), heff,
        show axisCh (announce u) i = axisCh u i from congrArg (fun x => x.ch.get i) (hann.1 .ax (by decide)), hown]
      exact h
    · obtain ⟨hsu, -, hax, -⟩ := takeClass_blocks s.su.effective u.pu.t u
      rw [hsu, hax, hown]
      exact (h.classChannel _ _).kept _
  · exact h

/-- The claims of both causes after a fault is cleared, and the channel. -/
theorem clearFault_clears (i : Axis) (s : State) :
    IsCleared (trackOf (axisCfg s i) (axisCh s i).lastValid) (clearFault i s).su.effective (axisCh (clearFault i s) i) ∧
      (axisCh (clearFault i s) i).state = stateUnder (clearFault i s).su.effective ∧
      (∀ k, k ∈ (clearFault i s).su.own ↔ (k ∈ s.su.own ∧ k.cause ≠ .follow i) ∧ k.cause ≠ .encoder i) := by
  have hset := axisCh_setChannel_self i (clearedChannel s.cl.cfg (axisCfg s i) (axisCh s i)) s
  have hsu : (setChannel i (clearedChannel s.cl.cfg (axisCfg s i) (axisCh s i)) s).su = s.su := setChannel_su _ _ _
  simp only [clearFault]
  generalize setChannel i (clearedChannel s.cl.cfg (axisCfg s i) (axisCh s i)) s = u at hset hsu ⊢
  have hcleared : IsCleared (trackOf (axisCfg s i) (axisCh s i).lastValid) u.su.effective (axisCh u i) := by
    rw [hset]
    exact (clearedChannel_isCleared _ _ _ _).kept _
  have hreleased := releaseKey_isCleared (releaseKey_isCleared hcleared (.follow i)) (.encoder i)
  have hclaims : ∀ k, k ∈ (releaseKey (.encoder i) (releaseKey (.follow i) u)).su.own ↔
      (k ∈ s.su.own ∧ k.cause ≠ .follow i) ∧ k.cause ≠ .encoder i := fun k => by rw [mem_releaseKey, mem_releaseKey, hsu]
  generalize releaseKey (.encoder i) (releaseKey (.follow i) u) = w at hreleased hclaims ⊢
  split
  · next hge =>
    obtain ⟨htaken, hst⟩ := hreleased.takes w.cl.cfg hge
    rw [axisCh_takeClassAt, if_pos rfl, takeClassAt_su]
    exact ⟨htaken.kept _, hst, hclaims⟩
  · next hlt => exact ⟨hreleased, hreleased.rests hlt, hclaims⟩

theorem clearFault_changesOnly (i : Axis) (s : State) :
    ChangesOnly [.lc, .pt, .ax, .lmu, .ts, .pu, .su] s (clearFault i s) := by
  simp only [clearFault]
  split <;> simp [changesOnly_iff]

/-! ### FAULT-CLEAR, whole -/

theorem faultClear_meets {s s1 : State} {c : Command} {number : Nat} (h : Delivered pickFaultClear s c number s1) :
    exec .faultClear s = .next (
      match namedAxis s1 number with
      | none => refuseWith c .notController { name := .disabled } s1
      | some i =>
        if (axisCh s1 i).state ≠ .fault then answerDone c s1
        else if (axisCh s1 i).lossCount ≠ 0 then refuseWith c .stopped { name := .encoder } s1
        else answerDone c (clearFault i s1)) :=
  congrArg Host.Outcome.next (withCommand_noEarly h)

theorem namedAxis_some {s : State} {i : Axis} (h : (axisCh s i).state ≠ .disabled) : namedAxis s i.val = some i := by
  rw [namedAxis, dif_pos i.isLt, if_neg h]

theorem namedAxis_none {s : State} {number : Nat}
    (h : 2 < number ∨ ∃ i : Axis, number = i.val ∧ (axisCh s i).state = .disabled) : namedAxis s number = none := by
  rcases h with h | ⟨i, rfl, h⟩
  · exact dif_neg (by omega)
  · rw [namedAxis, dif_pos i.isLt, if_pos h]

/-- Settles O17: the refusals by the checks in order, and the claims' release keeps the channel cleared. -/
theorem faultClearReturnsToRest : Obligations.FaultClearReturnsToRest := by
  intro s s1 c number h
  have hmeets := faultClear_meets h
  obtain ⟨q, rfl⟩ := h.onlyQueue
  refine ⟨fun hno => ?_, fun i hi hconfigured => ?_⟩
  · rw [hmeets, namedAxis_none (s := s.setLc { s.lc with rxq := q }) hno]
  · subst hi
    rw [namedAxis_some (s := s.setLc { s.lc with rxq := q }) hconfigured] at hmeets
    refine ⟨fun hst => hmeets.trans (congrArg _ (if_pos hst)), fun hst hloss => ?_, fun hst hloss => ?_⟩
    · exact hmeets.trans (congrArg _ ((if_neg (not_not_intro hst)).trans (if_pos hloss)))
    · have heq := hmeets.trans (congrArg _ ((if_neg (not_not_intro hst)).trans (if_neg (not_not_intro hloss))))
      have hdone := answerDone_changesOnly c (clearFault i (s.setLc { s.lc with rxq := q }))
      obtain ⟨hcleared, hstate, hclaims⟩ := clearFault_clears i (s.setLc { s.lc with rxq := q })
      refine ⟨_, heq, (changesOnly_lc (.head _)).trans (clearFault_changesOnly i _), ?_, hcleared.position, hcleared.velocity,
        hcleared.follow, hcleared.causes.1, hcleared.causes.2, fun k hk => ?_, fun k hk hf he => (hclaims k).mpr ⟨⟨hk, hf⟩, he⟩⟩
      · rw [hstate]
        cases (clearFault i (s.setLc { s.lc with rxq := q })).su.effective <;> rfl
      · obtain ⟨⟨-, hf⟩, he⟩ := (hclaims k).mp hk
        exact ⟨hf, he⟩

end Sys2Proof.Machine
end


section
/-! PROOFS. Keyframes as they read after the operations of the take store, and the rows that write them. -/

namespace Sys2Proof.Machine

/-! ### Where the keyframes lie -/

/-- No block is in two takes or twice in one, and the pool is canonical: what a read after a write asks for. -/
structure StoreSound (ts : TakeStore) : Prop where
  apart : (heldBlocks ts).Nodup
  pool : Pool.wf ts.pool

/-- The take of a slot has a block for keyframe k. -/
def hasKeyframe (ts : TakeStore) (slot : Slot) (k : Nat) : Prop := k < 128 * (ts.dir.get slot).blocks.length

-- In place, so that the parts of the text are elaborated one after the other and not all at once.
set_option Elab.async false in
theorem BlocksInv.sound {ts : TakeStore} (h : BlocksInv ts) (hp : Pool.wf ts.pool) : StoreSound ts :=
  ⟨(h.conserved.nodup_iff.mpr allBlocks_nodup).of_append_right, hp⟩

theorem keyframeAddress_none {ts : TakeStore} {slot : Slot} {k : Nat} (h : ¬ hasKeyframe ts slot k) :
    keyframeAddress (ts.dir.get slot) k = none := by
  rw [hasKeyframe] at h
  rw [keyframeAddress, List.getElem?_eq_none (by omega)]
  rfl

theorem keyframeAddress_some {ts : TakeStore} {slot : Slot} {k : Nat} (h : hasKeyframe ts slot k) :
    ∃ hk : k / 128 < (ts.dir.get slot).blocks.length,
      keyframeAddress (ts.dir.get slot) k = some (128 * (ts.dir.get slot).blocks[k / 128] + k % 128) := by
  rw [hasKeyframe] at h
  have hk : k / 128 < (ts.dir.get slot).blocks.length := by omega
  exact ⟨hk, by rw [keyframeAddress, List.getElem?_eq_getElem hk]; rfl⟩

theorem StoreSound.blocks_inj {ts : TakeStore} (h : StoreSound ts) {s s' : Slot} {j j' : Nat}
    (hj : j < (ts.dir.get s).blocks.length) (hj' : j' < (ts.dir.get s').blocks.length)
    (heq : (ts.dir.get s).blocks[j] = (ts.dir.get s').blocks[j']) : s = s' ∧ j = j' := by
  obtain ⟨hnodup, hdisjoint⟩ := List.nodup_flatMap.mp h.apart
  have hrow : ∀ s : Slot, s.val < ts.dir.rows.length := fun s => by rw [ts.dir.size_eq]; exact s.isLt
  have hs : s = s' := by
    apply Classical.byContradiction
    intro hne
    have hvals : s.val ≠ s'.val := fun hv => hne (Fin.ext hv)
    have hpair := List.pairwise_iff_getElem.mp hdisjoint
    rcases Nat.lt_or_gt_of_ne hvals with hlt | hlt
    · exact hpair s.val s'.val (hrow s) (hrow s') hlt (List.getElem_mem hj) (heq ▸ List.getElem_mem hj')
    · exact hpair s'.val s.val (hrow s') (hrow s) hlt (List.getElem_mem hj') (heq ▸ List.getElem_mem hj)
  subst hs
  exact ⟨rfl, (hnodup _ (List.getElem_mem (hrow s))).getElem_inj_iff.mp heq⟩

theorem StoreSound.address_inj {ts : TakeStore} (h : StoreSound ts) {s s' : Slot} {k k' : Nat} {a : Nat}
    (hk : keyframeAddress (ts.dir.get s) k = some a) (hk' : keyframeAddress (ts.dir.get s') k' = some a) :
    s = s' ∧ k = k' := by
  by_cases hs : hasKeyframe ts s k
  · by_cases hs' : hasKeyframe ts s' k'
    · obtain ⟨hj, ha⟩ := keyframeAddress_some hs
      obtain ⟨hj', ha'⟩ := keyframeAddress_some hs'
      rw [ha, Option.some.injEq] at hk
      rw [ha', Option.some.injEq] at hk'
      obtain ⟨hslot, hpos⟩ := h.blocks_inj hj hj' (by omega)
      exact ⟨hslot, by omega⟩
    · rw [keyframeAddress_none hs'] at hk'; cases hk'
  · rw [keyframeAddress_none hs] at hk; cases hk

/-! ### A keyframe written -/

theorem writeKeyframe_none {ts : TakeStore} {slot : Slot} {k : Nat} (h : ¬ hasKeyframe ts slot k) (kf : Keyframe) :
    writeKeyframe slot k kf ts = ts := by
  rw [writeKeyframe, keyframeAddress_none h]

theorem StoreSound.of_pool {ts : TakeStore} (h : StoreSound ts) {pool : Pool} (hp : Pool.wf pool) :
    StoreSound { ts with pool := pool } := ⟨h.apart, hp⟩

theorem StoreSound.write {ts : TakeStore} (h : StoreSound ts) (slot : Slot) (k : Nat) (kf : Keyframe) :
    StoreSound (writeKeyframe slot k kf ts) := by
  have hp := writeKeyframe_poolWf h.pool slot k kf
  obtain ⟨pool, hw⟩ := writeKeyframe_eq slot k kf ts
  rw [hw] at hp ⊢
  exact h.of_pool hp

/-- A keyframe reads as it was written, and every other as before. -/
theorem readKeyframe_write {ts : TakeStore} (h : StoreSound ts) {slot : Slot} {k : Nat} (hk : hasKeyframe ts slot k)
    (kf : Keyframe) (other : Slot) (j : Nat) :
    readKeyframe (writeKeyframe slot k kf ts) other j = if other = slot ∧ j = k then kf else readKeyframe ts other j := by
  obtain ⟨a, ha⟩ : ∃ a, keyframeAddress (ts.dir.get slot) k = some a := ⟨_, (keyframeAddress_some hk).2⟩
  have hw : writeKeyframe slot k kf ts = { ts with pool := poolWrite ts.pool a kf } := by rw [writeKeyframe, ha]
  rw [hw, readKeyframe, readKeyframe]
  by_cases hsame : other = slot ∧ j = k
  · obtain ⟨rfl, rfl⟩ := hsame
    simp only [ha, poolRead_poolWrite h.pool, and_self, if_true]
  · rw [if_neg hsame]
    cases hj : keyframeAddress (ts.dir.get other) j with
    | none => rfl
    | some b =>
      have hne : b ≠ a := fun hb => hsame (h.address_inj hj (hb ▸ ha))
      simp only [poolRead_poolWrite h.pool, if_neg hne]

theorem readKeyframe_write_ne {ts : TakeStore} (h : StoreSound ts) {slot : Slot} {k : Nat} (kf : Keyframe) {other : Slot}
    {j : Nat} (hne : ¬ (other = slot ∧ j = k)) :
    readKeyframe (writeKeyframe slot k kf ts) other j = readKeyframe ts other j := by
  by_cases hk : hasKeyframe ts slot k
  · rw [readKeyframe_write h hk, if_neg hne]
  · rw [writeKeyframe_none hk]

theorem readKeyframe_write_self {ts : TakeStore} (h : StoreSound ts) {slot : Slot} {k : Nat} (hk : hasKeyframe ts slot k)
    (kf : Keyframe) : readKeyframe (writeKeyframe slot k kf ts) slot k = kf := by
  rw [readKeyframe_write h hk, if_pos ⟨rfl, rfl⟩]

/-! ### Velocities given to a keyframe -/

theorem setVelocities_ne {ts : TakeStore} (h : StoreSound ts) {n : Nat} {slot : Slot} {k : Nat} {vel : Axis → Int}
    {other : Slot} {j : Nat} (hne : ¬ (other = slot ∧ j = k)) :
    readKeyframe (setVelocities n slot k vel ts) other j = readKeyframe ts other j := readKeyframe_write_ne h _ hne

theorem setVelocities_pos {ts : TakeStore} (h : StoreSound ts) (n : Nat) (slot : Slot) (k : Nat) (vel : Axis → Int)
    (other : Slot) (j : Nat) (i : Axis) :
    ((readKeyframe (setVelocities n slot k vel ts) other j).get i).pos = ((readKeyframe ts other j).get i).pos := by
  by_cases hsame : other = slot ∧ j = k
  · obtain ⟨rfl, rfl⟩ := hsame
    by_cases hk : hasKeyframe ts other j
    · rw [setVelocities, readKeyframe_write_self h hk, Table.get_ofFn]
      split <;> rfl
    · rw [setVelocities, writeKeyframe_none hk]
  · rw [setVelocities_ne h hsame]

theorem setVelocities_vel {ts : TakeStore} (h : StoreSound ts) {n : Nat} {slot : Slot} {k : Nat} (vel : Axis → Int)
    (hk : hasKeyframe ts slot k) (i : Axis) :
    ((readKeyframe (setVelocities n slot k vel ts) slot k).get i).vel =
      if i.val < n then vel i else ((readKeyframe ts slot k).get i).vel := by
  rw [setVelocities, readKeyframe_write_self h hk, Table.get_ofFn]
  split <;> rfl

theorem StoreSound.velocities {ts : TakeStore} (h : StoreSound ts) (n : Nat) (slot : Slot) (k : Nat) (vel : Axis → Int) :
    StoreSound (setVelocities n slot k vel ts) := h.write _ _ _

/-! ### RECORDER_WRITE (R86) -/

theorem StoreSound.sample {ts : TakeStore} (h : StoreSound ts) (n : Nat) (slot : Slot) (x : RecorderSample) :
    StoreSound (recordSample n slot x ts) := by
  simp only [recordSample]
  split
  · exact (h.write _ _ _).velocities _ _ _ _
  · exact h.write _ _ _

/-- The sample's keyframe has its pose and velocity 0. -/
theorem recordSample_own {ts : TakeStore} (h : StoreSound ts) (n : Nat) {slot : Slot} {x : RecorderSample}
    (hx : hasKeyframe ts slot x.index) : readKeyframe (recordSample n slot x ts) slot x.index = poseKeyframe x.pose := by
  simp only [recordSample]
  split
  · rw [giveCentral, setVelocities_ne (h.write _ _ _) (by rintro ⟨-, h⟩; omega), readKeyframe_write_self h hx]
  · rw [readKeyframe_write_self h hx]

/-- A keyframe that is neither the sample's nor the one before it reads as before. -/
theorem recordSample_ne {ts : TakeStore} (h : StoreSound ts) (n : Nat) {slot other : Slot} {x : RecorderSample} {k : Nat}
    (hne : other ≠ slot ∨ (k ≠ x.index ∧ (k + 1 ≠ x.index ∨ x.index < 2))) :
    readKeyframe (recordSample n slot x ts) other k = readKeyframe ts other k := by
  have hown : ¬ (other = slot ∧ k = x.index) := by
    rintro ⟨ho, hk⟩
    exact hne.elim (· ho) (·.1 hk)
  simp only [recordSample]
  split
  · next hx =>
    have hbefore : ¬ (other = slot ∧ k = x.index - 1) := by
      rintro ⟨ho, hk⟩
      rcases hne with hne | ⟨-, hne⟩
      · exact hne ho
      · omega
    rw [giveCentral, setVelocities_ne (h.write _ _ _) hbefore, readKeyframe_write_ne h _ hown]
  · rw [readKeyframe_write_ne h _ hown]

/-- The position of a keyframe after a sample: the sample's pose in its own, and as before in any other. -/
theorem recordSample_pos {ts : TakeStore} (h : StoreSound ts) (n : Nat) (slot : Slot) (x : RecorderSample)
    (other : Slot) (k : Nat) (i : Axis) (hne : ¬ (other = slot ∧ k = x.index)) :
    ((readKeyframe (recordSample n slot x ts) other k).get i).pos = ((readKeyframe ts other k).get i).pos := by
  simp only [recordSample]
  split
  · rw [giveCentral, setVelocities_pos (h.write _ _ _), readKeyframe_write_ne h _ hne]
  · rw [readKeyframe_write_ne h _ hne]

theorem hasKeyframe_congr {ts ts' : TakeStore} (hd : ts'.dir = ts.dir) (slot : Slot) (k : Nat) :
    hasKeyframe ts' slot k ↔ hasKeyframe ts slot k := by rw [hasKeyframe, hasKeyframe, hd]

/-- The keyframe before the sample's has its central difference. -/
theorem recordSample_central {ts : TakeStore} (h : StoreSound ts) {n : Nat} {slot : Slot} {x : RecorderSample}
    (hx : hasKeyframe ts slot x.index) (hx2 : 2 ≤ x.index) {i : Axis} (hi : i.val < n) :
    ((readKeyframe (recordSample n slot x ts) slot (x.index - 1)).get i).vel =
      centralVelocity ((readKeyframe ts slot (x.index - 2)).get i).pos (x.pose.get i) (ts.dir.get slot).interval := by
  have hbefore : hasKeyframe (writeKeyframe slot x.index (poseKeyframe x.pose) ts) slot (x.index - 1) := by
    rw [hasKeyframe_congr (writeKeyframe_dir _ _ _ _)]
    exact Nat.lt_of_le_of_lt (Nat.sub_le _ _) hx
  simp only [recordSample, if_pos hx2, giveCentral]
  rw [setVelocities_vel (h.write _ _ _) _ hbefore, if_pos hi, readKeyframe_write_ne h _ (by rintro ⟨-, h⟩; omega),
    show x.index - 1 + 1 = x.index by omega, readKeyframe_write_self h hx, writeKeyframe_dir, Nat.sub_sub, poseKeyframe,
    Table.get_map]

theorem configured_iff (s : State) (i : Axis) : configured s i = true ↔ i.val < s.cl.cfg.axisCount := decide_eq_true_iff

/-- Settles O34: what a sample makes of its keyframe, of the one before it and of the rest. -/
theorem recorderWritesItsSamples : Obligations.RecorderWritesItsSamples := by
  intro s c x rest hctx hwait hrun hfeeder hblocks hpool hindex
  have hsound := hblocks.sound hpool
  have heffect : recorderWriteEffect s =
      s.setTs { recordSample s.cl.cfg.axisCount c.take x s.ts with waiting := rest } := by
    simp only [recorderWriteEffect, hctx, hwait, hrun, hfeeder]
    exact if_pos ⟨trivial, rfl⟩
  obtain ⟨pool, heq⟩ := recordSample_eq s.cl.cfg.axisCount c.take x s.ts
  have hread : ∀ slot k, readKeyframe { recordSample s.cl.cfg.axisCount c.take x s.ts with waiting := rest } slot k =
      readKeyframe (recordSample s.cl.cfg.axisCount c.take x s.ts) slot k := fun _ _ => rfl
  refine ⟨_, congrArg Host.Outcome.next heffect, changesOnly_ts (.head _), by rw [setTs_ts, heq], by rw [setTs_ts, heq],
    rfl, by rw [setTs_ts, heq], fun i => ?_, fun hx2 i => ⟨?_, fun hi => ?_⟩, fun slot k hne => ?_⟩
  · rw [setTs_ts, hread, recordSample_own hsound _ hindex, poseKeyframe, Table.get_map]
  · rw [setTs_ts, hread, recordSample_pos hsound _ _ _ _ _ _ (by rintro ⟨-, h⟩; omega)]
  · rw [setTs_ts, hread, recordSample_central hsound hindex hx2 ((configured_iff s i).mp hi)]
    rfl
  · rw [setTs_ts, hread, recordSample_ne hsound _ hne]

/-! ### The read-out (R13, R96) -/

theorem readOutAfter_goesOn {slot : Slot} {console : Station} {next stop since : Nat} {held : List KeyframeFields}
    (h : next < stop ∨ held ≠ []) :
    readOutAfter slot console next stop since held = .readOut slot console next stop since held := if_pos h

theorem readOutAfter_over {slot : Slot} {console : Station} {next stop since : Nat} (h : stop ≤ next) :
    readOutAfter slot console next stop since [] = .none := if_neg (by rintro (h' | h'); exacts [by omega, h' rfl])

/-- The transfer goes on as `b` while a frame is handed over. -/
theorem handOver_setBulk (p : Payload) (s : State) (b : BulkTransfer) :
    let t := handOver p (s.setTs { s.ts with bulk := b })
    ChangesOnly [.lc, .ts] s t ∧ t.ts = { s.ts with bulk := t.ts.bulk } ∧ t.lc = (handOver p s).lc ∧ t.ts.bulk = b := by
  intro t
  have heq : t = (handOver p s).setTs { s.ts with bulk := b } := handOver_setTs p s _
  rw [heq]
  exact ⟨((handOver_changesOnly p s).among (.head _)).trans (changesOnly_ts (.tail _ (.head _))), rfl, rfl, rfl⟩

/-- Settles O32: the fetched frame goes out or joins those held back, and the first of these goes out in its turn. -/
theorem readOutSendsItsKeyframes : Obligations.ReadOutSendsItsKeyframes := by
  intro s slot console next stop since held hbulk hrun frame
  refine ⟨fun hnext hport holdest => ?_, fun f rest hheld hfits => ?_⟩
  · have heffect : exec .readoutFetch s = .next (
        if held.isEmpty && readoutFits s then
          handOver (.keyframeData frame) (s.setTs { s.ts with
            bulk := readOutAfter slot console (next + 1) stop s.lc.nextSerial
              (if held.isEmpty && readoutFits s then held else held ++ [frame]) })
        else s.setTs { s.ts with
          bulk := readOutAfter slot console (next + 1) stop s.lc.nextSerial
            (if held.isEmpty && readoutFits s then held else held ++ [frame]) }) := by
      refine congrArg Host.Outcome.next ?_
      simp only [readoutFetchEffect, hbulk]
      exact if_pos ⟨hrun, hnext, hport, holdest⟩
    by_cases hfits : held = [] ∧ readoutFits s = true
    · obtain ⟨rfl, hfits⟩ := hfits
      rw [hfits] at heffect
      obtain ⟨hchanges, hts, hlc, hb⟩ := handOver_setBulk (.keyframeData frame) s
        (readOutAfter slot console (next + 1) stop s.lc.nextSerial [])
      exact ⟨_, heffect, hchanges, hts, fun _ => ⟨hlc, fun h => hb.trans (readOutAfter_goesOn (.inl h)),
        fun h => hb.trans (readOutAfter_over h)⟩, fun h => absurd ⟨rfl, hfits⟩ h⟩
    · have hno : (held.isEmpty && readoutFits s) = false := by
        rw [Bool.eq_false_iff, ne_eq, Bool.and_eq_true, List.isEmpty_iff]
        exact hfits
      rw [hno] at heffect
      exact ⟨_, heffect, changesOnly_ts (.tail _ (.head _)), rfl, fun h => absurd h hfits, fun _ => ⟨rfl,
        readOutAfter_goesOn (.inr (List.append_ne_nil_of_right_ne_nil _ (List.cons_ne_nil _ _)))⟩⟩
  · have heffect : exec .readoutReoffer s = .next (handOver (.keyframeData f) (s.setTs { s.ts with
        bulk := readOutAfter slot console next stop since rest })) := by
      refine congrArg Host.Outcome.next ?_
      simp only [readoutReofferEffect, hbulk, hheld]
      exact if_pos ⟨hrun, hfits⟩
    obtain ⟨hchanges, hts, hlc, hb⟩ := handOver_setBulk (.keyframeData f) s (readOutAfter slot console next stop since rest)
    exact ⟨_, heffect, hchanges, hts, hlc, fun h => hb.trans (readOutAfter_goesOn h),
      fun hstop hrest => hb.trans (hrest ▸ readOutAfter_over hstop)⟩

/-! ### Loads (R97) -/

theorem setEntry_twice (slot : Slot) (e e' : TakeEntry) (ts : TakeStore) :
    setEntry slot e' (setEntry slot e ts) = setEntry slot e' ts := by
  have htwice : (ts.dir.set slot e).set slot e' = ts.dir.set slot e' := Table.ext_get fun k => by
    rw [Table.get_set, Table.get_set, Table.get_set]
    split <;> rfl
  exact congrArg (fun d => { ts with dir := d }) htwice

/-- The blocks allocated are the lowest free ones, and join the take's list. -/
theorem allocateBlocks_takes (slot : Slot) (n : Nat) (ts : TakeStore) (h : n ≤ ts.free.length) :
    (allocateBlocks slot n ts).free = ts.free.drop n ∧
      (allocateBlocks slot n ts).dir.get slot =
        { ts.dir.get slot with blocks := (ts.dir.get slot).blocks ++ ts.free.take n } ∧
      ∀ k, k ≠ slot → (allocateBlocks slot n ts).dir.get k = ts.dir.get k := by
  induction n generalizing ts with
  | zero => exact ⟨rfl, by rw [List.take_zero, List.append_nil]; rfl, fun _ _ => rfl⟩
  | succ n ih =>
    cases hfree : ts.free with
    | nil => rw [hfree] at h; exact absurd h (Nat.not_succ_le_zero n)
    | cons b rest =>
      have hone : (allocateBlock slot ts).getD ts =
          { setEntry slot { ts.dir.get slot with blocks := (ts.dir.get slot).blocks ++ [b] } ts with free := rest } := by
        simp only [allocateBlock, hfree, Option.getD_some]
      have hlen : n ≤ rest.length := by rw [hfree] at h; exact Nat.le_of_succ_le_succ h
      obtain ⟨hrest, hself, hothers⟩ := ih ((allocateBlock slot ts).getD ts) (by rw [hone]; exact hlen)
      rw [hone] at hrest hself hothers
      rw [allocateBlocks, hone]
      have hget := setEntry_get_self slot { ts.dir.get slot with blocks := (ts.dir.get slot).blocks ++ [b] } ts
      have hblocks := congrArg (fun l => { ts.dir.get slot with blocks := l })
        (List.append_assoc (ts.dir.get slot).blocks [b] (rest.take n))
      exact ⟨hrest, hself.trans ((congrArg (fun e : TakeEntry => { e with blocks := e.blocks ++ rest.take n }) hget).trans
        hblocks), fun k hk => (hothers k hk).trans (setEntry_get_ne hk _ ts)⟩

theorem mem_insertWritten {k x : Nat} {l : List Nat} : x ∈ insertWritten k l ↔ x ∈ l ∨ x = k := by
  induction l with
  | nil => simp [insertWritten]
  | cons y l ih =>
    simp only [insertWritten]
    split
    · rw [List.mem_cons, or_comm]
    · split
      · next h => subst h; simp [or_comm]
      · rw [List.mem_cons, List.mem_cons, ih, or_assoc]

theorem lowestMissing_some {n k : Nat} {written : List Nat} (hk : k < n) (hno : k ∉ written)
    (hbelow : ∀ j, j < k → j ∈ written) : lowestMissing n written = some k := by
  have hmissing : ∀ j, (!written.contains j) = true ↔ j ∉ written := fun j => by simp
  rw [lowestMissing, List.find?_range_eq_some]
  exact ⟨(hmissing k).mpr hno, List.mem_range.mpr hk, fun j hj => by simpa using hbelow j hj⟩

theorem lowestMissing_none {n : Nat} {written : List Nat} (h : ∀ k, k < n → k ∈ written) : lowestMissing n written = none :=
  List.find?_eq_none.mpr fun k hk => by
    rw [Bool.not_eq_true', Bool.not_eq_false, List.contains_iff_mem]
    exact h k (List.mem_range.mp hk)


theorem loadBegin_meets {s s1 : State} {c : Command} {number interval n : Nat} {stamp : BitVec 32} {mask : BitVec 16}
    (h : Delivered pickLoadBegin s c (number, stamp, mask, interval, n) s1) :
    exec .takeLoadBegin s = .next (
      if !bulkFree s then refuse c .busy s1
      else
        match slotOf number with
        | none => refuse c .noTake s1
        | some slot =>
          if (entryOf s slot).state ≠ .empty then refuse c .takeOccupied s1
          else if n < 1 ∨ 8192 < n then markInvalid c .range none s1
          else if s.ts.free.length < ceilDiv n 128 then refuse c .storeFull s1
          else answerClamped c (clampInterval interval != interval)
            (s1.setTs (openLoad slot c.sender stamp mask interval n s.ts))) := by
  have hrun : takeLoadBeginEffect s = _ := withCommand_noEarly h
  obtain ⟨q, rfl⟩ := h.onlyQueue
  exact congrArg Host.Outcome.next hrun

theorem loadEnd_meets {s s1 : State} {c : Command} {number : Nat} (h : Delivered pickLoadEnd s c number s1) :
    exec .takeLoadEnd s = .next (
      match s.ts.bulk with
      | .load slot loader written =>
        if c.sender ≠ loader ∨ number ≠ takeNumber slot then refuseWith c .busy { name := .noLoad } s1
        else
          match lowestMissing (entryOf s slot).count written with
          | some k => refuseWith c .busy { name := .missing, number := some k } s1
          | none => answerDone c (s1.setTs (storeLoad slot s.ts))
      | _ => refuseWith c .busy { name := .noLoad } s1) := by
  have hrun : takeLoadEndEffect s = _ := withCommand_noEarly h
  obtain ⟨q, rfl⟩ := h.onlyQueue
  exact congrArg Host.Outcome.next hrun

theorem keyframeData_meets {s s1 : State} {e : RxEntry} {f : KeyframeFields} (h : TakenFrame .keyframeData s e s1)
    (he : e.payload = .keyframeData f) : exec .keyframeData s = .next (loadKeyframe e.sender f s1) := by
  refine congrArg Host.Outcome.next ?_
  rw [TakenFrame] at h
  simp only [keyframeDataEffect, h, he]

/-- The entry of a load that opens, and the rest of the store. -/
theorem openLoad_opens (slot : Slot) (loader : Station) (stamp : BitVec 32) (mask : BitVec 16) (interval n : Nat)
    {ts : TakeStore} (h : ceilDiv n 128 ≤ ts.free.length) :
    let t := openLoad slot loader stamp mask interval n ts
    t.bulk = .load slot loader [] ∧ t.pool = ts.pool ∧ t.free = ts.free.drop (ceilDiv n 128) ∧
      (∀ k, k ≠ slot → t.dir.get k = ts.dir.get k) ∧
      t.dir.get slot = { TakeEntry.empty with
        state := .recording, stamp := stamp, mask := mask, interval := clampInterval interval, count := n,
        blocks := ts.free.take (ceilDiv n 128) } := by
  intro t
  obtain ⟨hfree, hself, hothers⟩ := allocateBlocks_takes slot (ceilDiv n 128)
    (setEntry slot { TakeEntry.empty with
      state := .recording, stamp := stamp, mask := mask, interval := clampInterval interval, count := n } ts) h
  refine ⟨rfl, allocateBlocks_pool _ _ _, hfree, fun k hk => (hothers k hk).trans (setEntry_get_ne hk _ _), hself.trans ?_⟩
  rw [setEntry_get_self]
  rfl

theorem clampInterval_ne (i : Nat) : (clampInterval i != i) = decide (i < 10 ∨ 250 < i) := by
  rw [Bool.eq_iff_iff, bne_iff_ne, decide_eq_true_iff, clampInterval, clampNat]
  omega

theorem loadKeyframe_ignored {sender : Station} {f : KeyframeFields} {s : State}
    (h : ∀ slot loader written, s.ts.bulk = .load slot loader written →
      ¬ (sender = loader ∧ f.take.toNat = takeNumber slot ∧ f.index.toNat < (entryOf s slot).count)) :
    loadKeyframe sender f s = s := by
  cases hb : s.ts.bulk with
  | none => rw [loadKeyframe, hb]
  | readOut => rw [loadKeyframe, hb]
  | load slot loader written =>
    rw [loadKeyframe, hb]
    exact if_neg (h slot loader written hb)

/-- An axis field of a loaded keyframe, cut into its range. -/
theorem loadField_cut (s : State) (i : Axis) (w : AxisWords) :
    let x := loadField s i w
    (configured s i = true → (axisCfg s i).kind.isLens = true → x.pos = max 0 (min 65535 w.pos.toInt)) ∧
      (configured s i = true → (axisCfg s i).kind.isLens = false →
        x.pos = max (-134217728) (min 134217727 w.pos.toInt)) ∧
      (configured s i = true → x.vel = max (-8388607) (min 8388607 w.vel.toInt)) ∧
      (configured s i = false → x.pos = 0 ∧ x.vel = 0) := by
  intro x
  by_cases hc : configured s i = true
  · have hx : x = { pos := if (axisCfg s i).kind.isLens then clampInt 0 65535 w.pos.toInt
                     else clampInt (-134217728) 134217727 w.pos.toInt, vel := satVel w.vel.toInt } := if_pos hc
    rw [hx]
    refine ⟨fun _ hl => if_pos hl, fun _ hl => if_neg (by rw [hl]; decide), fun _ => rfl, fun h => ?_⟩
    rw [hc] at h
    cases h
  · have hx : x = { pos := 0, vel := 0 } := if_neg hc
    rw [hx]
    exact ⟨fun h => absurd h hc, fun h => absurd h hc, fun h => absurd h hc, fun _ => ⟨rfl, rfl⟩⟩

/-- A keyframe of the open load is written. -/
theorem loadKeyframe_writes {s : State} {slot : Slot} {loader : Station} {written : List Nat} {f : KeyframeFields}
    (hb : s.ts.bulk = .load slot loader written) (htake : f.take.toNat = takeNumber slot)
    (hidx : f.index.toNat < (entryOf s slot).count) (hsound : StoreSound s.ts) (hroom : hasKeyframe s.ts slot f.index.toNat) :
    let t := loadKeyframe loader f s
    ChangesOnly [.ts] s t ∧ t.ts.dir = s.ts.dir ∧ t.ts.free = s.ts.free ∧
      t.ts.bulk = .load slot loader (insertWritten f.index.toNat written) ∧
      (∀ i, (readKeyframe t.ts slot f.index.toNat).get i = loadField s i (f.axes.get i)) ∧
      ∀ other k, (other ≠ slot ∨ k ≠ f.index.toNat) → readKeyframe t.ts other k = readKeyframe s.ts other k := by
  intro t
  obtain ⟨pool, hw⟩ := writeKeyframe_eq slot f.index.toNat (Table.ofFn fun i => loadField s i (f.axes.get i)) s.ts
  have ht : t = s.setTs { writeKeyframe slot f.index.toNat (Table.ofFn fun i => loadField s i (f.axes.get i)) s.ts with
      bulk := .load slot loader (insertWritten f.index.toNat written) } := by
    simp only [t, loadKeyframe, hb]
    exact if_pos ⟨trivial, htake, hidx⟩
  have hread : ∀ other k, readKeyframe t.ts other k = readKeyframe
      (writeKeyframe slot f.index.toNat (Table.ofFn fun i => loadField s i (f.axes.get i)) s.ts) other k := fun _ _ => by
    rw [ht]; rfl
  refine ⟨ht ▸ changesOnly_ts (.head _), by rw [ht, setTs_ts, hw], by rw [ht, setTs_ts, hw], by rw [ht]; rfl, fun i => ?_,
    fun other k hne => ?_⟩
  · rw [hread, readKeyframe_write_self hsound hroom, Table.get_ofFn]
  · rw [hread, readKeyframe_write_ne hsound]
    rintro ⟨ho, hk⟩
    exact hne.elim (· ho) (· hk)

/-- Settles O33: each of the three rows by its equation, and what opening, writing and storing a load come to. -/
theorem takesAreLoaded : Obligations.TakesAreLoaded := by
  refine ⟨fun s s1 c number interval n stamp mask h => ?_, fun s s1 c number h hno => ?_,
    fun s s1 c number interval n stamp mask slot h hidle hbulk hslot hempty hn hn' hfree => ?_,
    fun s s1 e f h he hno => ?_, fun s s1 e f slot loader written h he hb => ⟨fun hignored => ?_,
      fun hsender htake hidx hblocks hpool hroom => ?_⟩,
    fun s s1 c number slot loader written h hb hsender hnumber => ⟨fun k hk hmissing hbelow => ?_, fun hall => ?_⟩⟩
  · have hmeets := loadBegin_meets h
    refine ⟨fun hbusy => ?_, fun hidle hbulk => ?_⟩
    · rw [hmeets, Bool.eq_false_iff.mpr (mt (bulkFree_iff s).mp hbusy)]
      rfl
    · rw [(bulkFree_iff s).mpr ⟨hidle, hbulk⟩] at hmeets
      refine ⟨fun hslot => ?_, fun slot hslot => ?_⟩
      · rw [hmeets, hslot]
        rfl
      · rw [hslot] at hmeets
        refine ⟨fun hoccupied => hmeets.trans (congrArg _ (if_pos hoccupied)), fun hempty => ⟨fun hn => ?_, fun hn hn' hfull => ?_⟩⟩
        · exact hmeets.trans (congrArg _ ((if_neg (not_not_intro hempty)).trans (if_pos hn)))
        · exact hmeets.trans (congrArg _ ((if_neg (not_not_intro hempty)).trans
            ((if_neg (by omega)).trans (if_pos hfull))))
  · rw [loadEnd_meets h]
    cases hb : s.ts.bulk with
    | none => rfl
    | readOut => rfl
    | load slot loader written =>
      refine congrArg _ (if_pos ?_)
      by_cases hs : c.sender = loader
      · exact .inr (hno slot written (hs ▸ hb))
      · exact .inl hs
  · have hmeets := loadBegin_meets h
    rw [(bulkFree_iff s).mpr ⟨hidle, hbulk⟩, hslot] at hmeets
    have heq := hmeets.trans (congrArg _ ((if_neg (not_not_intro hempty)).trans ((if_neg (by omega)).trans
      (if_neg (Nat.not_lt.mpr hfree)))))
    obtain ⟨hbulk', hpool', hfree', hothers, hentry⟩ := openLoad_opens slot c.sender stamp mask interval n hfree
    have hanswer : ∀ u : State, ChangesOnly [.lc] u (answerClamped c (clampInterval interval != interval) u) := fun u =>
      answer_changesOnly _ _ _ u
    have hts := (hanswer (s1.setTs (openLoad slot c.sender stamp mask interval n s.ts))).1 .ts (by decide)
    refine ⟨_, heq, ?_, fun k hk => ?_, ?_, ?_, ?_, ?_, ?_⟩
    · exact ((h.changesOnly.among (.head _)).trans (changesOnly_ts (.tail _ (.head _)))).trans
        ((hanswer _).among (.head _))
    · rw [hts]; exact hothers k hk
    · rw [← clampInterval_ne]
      exact answer_lc (s := s1) (u := s1.setTs (openLoad slot c.sender stamp mask interval n s.ts)) rfl c _ _
    · rw [hts]; exact hbulk'
    · rw [hts]; exact hpool'
    · rw [hts]; exact hfree'
    · rw [entryOf, hts, setTs_ts, hentry, clampInterval, clampNat]
      rfl
  · rw [keyframeData_meets h he, loadKeyframe_ignored]
    intro slot loader written hb
    rw [(takeOffer_frame h).2.2.2.1] at hb
    exact absurd hb (hno slot loader written)
  · rw [keyframeData_meets h he, loadKeyframe_ignored]
    rintro slot' loader' written' hb' ⟨hs, ht, hi⟩
    rw [(takeOffer_frame h).2.2.2.1, hb] at hb'
    cases hb'
    rw [entryOf, (takeOffer_frame h).2.2.2.1] at hi
    rcases hignored with hig | hig | hig
    · exact hig hs
    · exact hig ht
    · exact absurd hi (Nat.not_lt.mpr hig)
  · obtain ⟨q, rfl⟩ := takeOffer_setLc h
    have hmeets := keyframeData_meets h he
    obtain ⟨hchanges, hdir, hfree, hbulk, hread, hothers⟩ := loadKeyframe_writes (s := s.setLc { s.lc with rxq := q }) hb htake
      hidx (hblocks.sound hpool) (Nat.lt_of_lt_of_le hidx hroom)
    rw [← hsender] at hchanges hdir hfree hbulk hread hothers
    refine ⟨_, hmeets, (changesOnly_lc (.head _)).trans (hchanges.among (.tail _ (.head _))), hchanges.1 .lc (by decide), hdir,
      hfree, ⟨_, hbulk.trans (by rw [hsender]), fun k => mem_insertWritten⟩, fun i => ?_, hothers⟩
    rw [hread i]
    exact loadField_cut s i (f.axes.get i)
  · rw [loadEnd_meets h, hb]
    refine congrArg _ ((if_neg ?_).trans ?_)
    · rintro (h | h)
      exacts [h hsender, h hnumber]
    · rw [lowestMissing_some hk hmissing hbelow]
  · have hmeets := loadEnd_meets h
    rw [hb] at hmeets
    have hbody : (match lowestMissing (entryOf s slot).count written with
        | some k => refuseWith c .busy { name := .missing, number := some k } s1
        | none => answerDone c (s1.setTs (storeLoad slot s.ts))) = answerDone c (s1.setTs (storeLoad slot s.ts)) := by
      rw [lowestMissing_none hall]
    have heq := hmeets.trans (congrArg _ ((if_neg (by rintro (h | h); exacts [h hsender, h hnumber])).trans hbody))
    have hanswer := answerDone_changesOnly c (s1.setTs (storeLoad slot s.ts))
    have hts := hanswer.1 .ts (by decide)
    refine ⟨_, heq, ?_, answer_lc (s := s1) (u := s1.setTs (storeLoad slot s.ts)) rfl c _ _, fun k hk => ?_, ?_, ?_, ?_, ?_⟩
    · exact ((h.changesOnly.among (.head _)).trans (changesOnly_ts (.tail _ (.head _)))).trans (hanswer.among (.head _))
    · rw [hts]; exact setEntry_get_ne hk _ _
    · rw [hts]; rfl
    · rw [hts]; rfl
    · rw [hts]; rfl
    · rw [entryOf, hts]
      exact setEntry_get_self _ _ _

end Sys2Proof.Machine
end


section
/-! PROOFS. Edits of a take: TRIM, MARK, UNMARK and CUE-POINTS. -/

namespace Sys2Proof.Machine

/-! ### The used marks, in slot order -/

-- In place, so that the parts of the text are elaborated one after the other and not all at once.
set_option Elab.async false in
theorem usedMarks_eq (marks : Table (Option Mark) 8) :
    usedMarks marks = (List.finRange 8).filterMap fun j => (marks.get j).map fun m => (m, j.val) := by
  have hrows : marks.rows.zipIdx = (List.finRange 8).map fun j => (marks.get j, j.val) := by
    apply List.ext_getElem
    · simp [marks.size_eq]
    · intro i h1 h2
      simp [Table.get]
  rw [usedMarks, hrows, List.filterMap_map]
  rfl

/-- The first used mark with a property. -/
theorem usedMarks_find {marks : Table (Option Mark) 8} {p : Mark × Nat → Bool} {k : Fin 8}
    (h : Least (fun j => ∃ m, marks.get j = some m ∧ p (m, j.val) = true) k) :
    ∃ m, marks.get k = some m ∧ (usedMarks marks).find? p = some (m, k.val) := by
  obtain ⟨⟨m, hm, hp⟩, hbelow⟩ := h
  refine ⟨m, hm, ?_⟩
  rw [usedMarks_eq, List.find?_filterMap, find_finRange (k := k)]
  · simp [hm]
  · refine ⟨by simp [hm, hp], fun j hj hsome => hbelow j hj ?_⟩
    cases hmj : marks.get j with
    | none => simp [hmj] at hsome
    | some m' => exact ⟨m', hmj, by simpa [hmj] using hsome⟩

theorem usedMarks_find_none {marks : Table (Option Mark) 8} {p : Mark × Nat → Bool}
    (h : ∀ (j : Fin 8) m, marks.get j = some m → ¬ p (m, j.val) = true) : (usedMarks marks).find? p = none := by
  refine List.find?_eq_none.mpr fun x hx => ?_
  rw [usedMarks_eq, List.mem_filterMap] at hx
  obtain ⟨j, -, hj⟩ := hx
  obtain ⟨m, hm, rfl⟩ := Option.map_eq_some_iff.mp hj
  exact h j m hm

/-! ### TRIM (R93) -/

theorem readKeyframe_congr {ts ts' : TakeStore} {slot : Slot} {k : Nat}
    (hb : (ts'.dir.get slot).blocks[k / 128]? = (ts.dir.get slot).blocks[k / 128]?) (hp : ts'.pool = ts.pool) :
    readKeyframe ts' slot k = readKeyframe ts slot k := by
  rw [readKeyframe, readKeyframe, keyframeAddress, keyframeAddress, hb, hp]

theorem giveEnd_pos {ts : TakeStore} (h : StoreSound ts) (n : Nat) (slot : Slot) (k : Nat) (other : Slot) (j : Nat)
    (i : Axis) :
    ((readKeyframe (giveEnd n slot k ts) other j).get i).pos = ((readKeyframe ts other j).get i).pos := by
  rw [giveEnd]
  split
  · rfl
  · exact setVelocities_pos h _ _ _ _ _ _ _

theorem giveEnd_ne {ts : TakeStore} (h : StoreSound ts) {n : Nat} {slot : Slot} {k : Nat} {other : Slot} {j : Nat}
    (hne : ¬ (other = slot ∧ j = k)) : readKeyframe (giveEnd n slot k ts) other j = readKeyframe ts other j := by
  rw [giveEnd]
  split
  · rfl
  · exact setVelocities_ne h hne

theorem giveEnd_vel {ts : TakeStore} (h : StoreSound ts) (n : Nat) {slot : Slot} {k : Nat} (hk0 : k ≠ 0)
    (hk : hasKeyframe ts slot k) (i : Axis) :
    ((readKeyframe (giveEnd n slot k ts) slot k).get i).vel = if i.val < n then
      endVelocity ((readKeyframe ts slot (k - 1)).get i).pos ((readKeyframe ts slot k).get i).pos (ts.dir.get slot).interval
      else ((readKeyframe ts slot k).get i).vel := by
  rw [giveEnd, if_neg hk0, setVelocities_vel h _ hk]

/-- The entry, the blocks and the keyframes that a cut leaves. -/
theorem cutKeyframes_cuts (slot : Slot) (last : Nat) (ts : TakeStore) :
    let t := cutKeyframes slot last ts
    t.dir.get slot = { ts.dir.get slot with count := last + 1, blocks := (ts.dir.get slot).blocks.take (last / 128 + 1) } ∧
      (∀ k, k ≠ slot → t.dir.get k = ts.dir.get k) ∧
      (t.free ++ (t.dir.get slot).blocks).Perm (ts.free ++ (ts.dir.get slot).blocks) ∧
      (∀ k, k ≤ last → readKeyframe t slot k = readKeyframe ts slot k) ∧
      ∀ other k, other ≠ slot → readKeyframe t other k = readKeyframe ts other k := by
  intro t
  have hself : t.dir.get slot = { ts.dir.get slot with
      count := last + 1, blocks := (ts.dir.get slot).blocks.take (last / 128 + 1) } := setEntry_get_self _ _ _
  have hothers : ∀ k, k ≠ slot → t.dir.get k = ts.dir.get k := fun k hk => setEntry_get_ne hk _ _
  refine ⟨hself, hothers, ?_, fun k hk => readKeyframe_congr ?_ rfl, fun other k ho => readKeyframe_congr ?_ rfl⟩
  · rw [hself]
    have hreturned : t.free.Perm (ts.free ++ ((ts.dir.get slot).blocks.drop (last / 128 + 1)).reverse) :=
      returnBlocks_perm _ _
    calc (t.free ++ (ts.dir.get slot).blocks.take (last / 128 + 1)).Perm _ :=
          hreturned.append_right _
      _ |>.Perm (ts.free ++ ((ts.dir.get slot).blocks.drop (last / 128 + 1) ++
            (ts.dir.get slot).blocks.take (last / 128 + 1))) := by
          rw [List.append_assoc]
          exact ((List.reverse_perm _).append_right _).append_left _
      _ |>.Perm _ := (List.perm_append_comm.trans (by rw [List.take_append_drop])).append_left _
  · rw [hself]
    exact List.getElem?_take_of_lt (by omega)
  · rw [hothers other ho]

theorem cutKeyframes_sound {ts : TakeStore} (h : BlocksInv ts) (hp : Pool.wf ts.pool) (slot : Slot) (last : Nat) :
    StoreSound (cutKeyframes slot last ts) := (cutKeyframes_blocks h slot last).sound hp

theorem trim_meets {s s1 : State} {c : Command} {number last : Nat} (h : Delivered pickTrim s c (number, last) s1) :
    exec .trim s = .next (
      match editSlot s number with
      | .error r => refuse c r s1
      | .ok slot =>
        if ¬ (1 ≤ last ∧ last < (entryOf s slot).count) then markInvalid c .range none s1
        else
          match (usedMarks (entryOf s slot).marks).find? fun m => last < m.1.stop with
          | some m => markInvalid c .trim (some m.2) s1
          | none => answerDone c (s1.setTs (trimTake s.cl.cfg.axisCount slot last s.ts))) := by
  have hrun : trimEffect s = _ := withCommand_noEarly h
  obtain ⟨q, rfl⟩ := h.onlyQueue
  exact congrArg Host.Outcome.next hrun

/-- What a trim makes of the take: the entry, the blocks and the keyframes. -/
theorem trimTake_trims {ts : TakeStore} {slot : Slot} {last : Nat} (n : Nat) (hblocks : BlocksInv ts) (hpool : Pool.wf ts.pool)
    (hlast : 1 ≤ last) (hroom : hasKeyframe ts slot last) :
    let t := trimTake n slot last ts
    let e := ts.dir.get slot
    let f := t.dir.get slot
    (f = { e with count := last + 1, cues := e.cues.filter fun k => decide (k ≤ last),
                  blocks := e.blocks.take (last / 128 + 1), signature := editSignature f.marks f.cues,
                  editCount := e.editCount + 1 }) ∧
      (∀ k, k ≠ slot → t.dir.get k = ts.dir.get k) ∧ (t.free ++ f.blocks).Perm (ts.free ++ e.blocks) ∧
      (∀ k, k < last → readKeyframe t slot k = readKeyframe ts slot k) ∧
      (∀ i, ((readKeyframe t slot last).get i).pos = ((readKeyframe ts slot last).get i).pos ∧
        ((readKeyframe t slot last).get i).vel = if i.val < n then
          endVelocity ((readKeyframe ts slot (last - 1)).get i).pos ((readKeyframe ts slot last).get i).pos e.interval
          else ((readKeyframe ts slot last).get i).vel) ∧
      ∀ other k, other ≠ slot → readKeyframe t other k = readKeyframe ts other k := by
  intro t e f
  obtain ⟨hcself, hcothers, hcfree, hckeeps, hcother⟩ := cutKeyframes_cuts slot last ts
  have hsound := cutKeyframes_sound hblocks hpool slot last
  have hroom' : hasKeyframe (cutKeyframes slot last ts) slot last := by
    rw [hasKeyframe] at hroom ⊢
    rw [hcself, List.length_take]
    omega
  obtain ⟨pool, hend⟩ := giveEnd_eq n slot last (cutKeyframes slot last ts)
  have hself : f = editedEntry { (giveEnd n slot last (cutKeyframes slot last ts)).dir.get slot with
      cues := ((giveEnd n slot last (cutKeyframes slot last ts)).dir.get slot).cues.filter (· ≤ last) } :=
    setEntry_get_self _ _ _
  have hothers : ∀ k, k ≠ slot → t.dir.get k = (giveEnd n slot last (cutKeyframes slot last ts)).dir.get k :=
    fun k hk => setEntry_get_ne hk _ _
  have hblocksEq : ∀ k, (t.dir.get k).blocks = ((giveEnd n slot last (cutKeyframes slot last ts)).dir.get k).blocks :=
    fun k => by
      by_cases hk : k = slot
      · subst hk; rw [show t.dir.get k = _ from hself]; rfl
      · rw [hothers k hk]
  have hread : ∀ other k, readKeyframe t other k =
      readKeyframe (giveEnd n slot last (cutKeyframes slot last ts)) other k := fun other k =>
    readKeyframe_congr (by rw [hblocksEq]) rfl
  have hfree : t.free = (cutKeyframes slot last ts).free := by
    rw [show t.free = (giveEnd n slot last (cutKeyframes slot last ts)).free from rfl, hend]
  have hdir : (giveEnd n slot last (cutKeyframes slot last ts)).dir = (cutKeyframes slot last ts).dir := by rw [hend]
  rw [hdir, hcself] at hself
  refine ⟨by rw [hself]; rfl, fun k hk => ?_, ?_, fun k hk => ?_, fun i => ⟨?_, ?_⟩, fun other k ho => ?_⟩
  · rw [hothers k hk, hdir, hcothers k hk]
  · rw [hfree, show f.blocks = ((cutKeyframes slot last ts).dir.get slot).blocks by rw [hself, hcself]; rfl]
    exact hcfree
  · rw [hread, giveEnd_ne hsound (by rintro ⟨-, h⟩; omega), hckeeps k (by omega)]
  · rw [hread, giveEnd_pos hsound, hckeeps last (Nat.le_refl _)]
  · rw [hread, giveEnd_vel hsound n (by omega) hroom', hckeeps last (Nat.le_refl _), hckeeps (last - 1) (by omega), hcself]
  · rw [hread, giveEnd_ne hsound (fun h => ho h.1), hcother other k ho]

/-- Settles O29: the checks in order, and the cut with the end velocity of the new last keyframe. -/
theorem trimCutsTheTake : Obligations.TrimCutsTheTake := by
  refine ⟨fun s s1 c number last h => ⟨fun hnone => ?_, fun slot hslot hstored => ⟨fun huse => ?_, fun huse => ⟨fun hrange => ?_,
    fun h1 h2 k hk => ?_⟩⟩⟩, fun s s1 c number last slot h hslot hstored huse h1 h2 hmarks hblocks hpool hroom => ?_⟩
  · rw [trim_meets h, editSlot_noTake hnone]
  · rw [trim_meets h, editSlot_takeInUse hslot hstored huse]
  · rw [trim_meets h, editSlot_ok hslot hstored huse]
    exact congrArg _ (if_pos hrange)
  · obtain ⟨m, -, hfind⟩ := usedMarks_find (marks := (entryOf s slot).marks) (p := fun m => decide (last < m.1.stop)) (k := k)
      (hk.congr fun j => by simp only [decide_eq_true_iff])
    rw [trim_meets h, editSlot_ok hslot hstored huse]
    refine congrArg _ ((if_neg (not_not_intro ⟨h1, h2⟩)).trans ?_)
    rw [hfind]
    rfl
  · have hfind := usedMarks_find_none (marks := (entryOf s slot).marks) (p := fun m => decide (last < m.1.stop))
      (fun j m hm => by rw [decide_eq_true_iff]; exact Nat.not_lt.mpr (hmarks j m hm))
    have hmeets := trim_meets h
    rw [editSlot_ok hslot hstored huse] at hmeets
    have heq := hmeets.trans (congrArg _ ((if_neg (not_not_intro ⟨h1, h2⟩)).trans (by rw [hfind])))
    have hanswer := answerDone_changesOnly c (s1.setTs (trimTake s.cl.cfg.axisCount slot last s.ts))
    have hts := hanswer.1 .ts (by decide)
    obtain ⟨hentry, hothers, hfree, hbelow, hat, hother⟩ := trimTake_trims (slot := slot) s.cl.cfg.axisCount hblocks hpool h1
      (Nat.lt_of_lt_of_le h2 hroom)
    refine ⟨_, heq, ?_, answer_lc (s := s1) (u := s1.setTs (trimTake s.cl.cfg.axisCount slot last s.ts)) rfl c _ _, ?_, ?_, ?_,
      ?_, fun i => ?_, ?_⟩
    · exact ((h.changesOnly.among (.head _)).trans (changesOnly_ts (.tail _ (.head _)))).trans (hanswer.among (.head _))
    · rw [OtherTakes, hts]; exact hothers
    · rw [entryOf, entryOf, hts]; exact hentry
    · rw [entryOf, hts]; exact hfree
    · rw [hts]; exact hbelow
    · rw [hts]
      obtain ⟨hp, hv⟩ := hat i
      refine ⟨hp, hv.trans ?_⟩
      rw [ite_congr (propext (configured_iff s i).symm) (fun _ => rfl) (fun _ => rfl)]
      rfl
    · rw [hts]; exact hother

/-! ### MARK: the closure check (R91) -/

theorem findSome_eq_find {α β : Type} (g : α → Option β) (l : List α) :
    l.findSome? g = (l.find? fun x => (g x).isSome).bind g := by
  induction l with
  | nil => rfl
  | cons x l ih => cases hx : g x <;> simp [hx, ih]

theorem find_filter_and {α : Type} (p q : α → Bool) (l : List α) : (l.filter p).find? q = l.find? fun x => p x && q x := by
  rw [List.find?_filter]
  simp only [Bool.decide_and, Bool.decide_eq_true]

/-- The check of one axis: what it adds to the search for the first that fails. -/
def closureFails (s : State) (slot : Slot) (a b : Nat) (i : Axis) : Option (Axis × Bool) :=
  match closureDistance s slot a b i with
  | none => some (i, true)
  | some d => if (axisCfg s i).closureWindow < (d : Int) then some (i, false) else none

theorem closureFails_unmapped {s : State} {slot : Slot} {a b : Nat} {i : Axis} (h : withoutMap s i) :
    closureFails s slot a b i = some (i, true) := by
  obtain ⟨hlens, hmap⟩ := h
  have hkind : (axisCfg s i).kind.isLens = true := (Bool.and_eq_true_iff.mp hlens).2
  have hnone : closureDistance s slot a b i = none := by
    rw [closureDistance, if_pos hkind, if_pos (List.isEmpty_iff.mpr hmap)]
  rw [closureFails, hnone]

theorem closureFails_mapped {s : State} {slot : Slot} {a b : Nat} {i : Axis} (hc : configured s i = true)
    (h : ¬ withoutMap s i) : closureFails s slot a b i =
      if (axisCfg s i).closureWindow < (closureGap s slot a b i : Int) then some (i, false) else none := by
  have hsome : closureDistance s slot a b i = some (closureGap s slot a b i) := by
    by_cases hkind : (axisCfg s i).kind.isLens = true
    · have hmap : ¬ (activeMap s i).isEmpty = true := fun hm =>
        h ⟨Bool.and_eq_true_iff.mpr ⟨hc, hkind⟩, List.isEmpty_iff.mp hm⟩
      rw [closureDistance, if_pos hkind, if_neg hmap, closureGap]
      simp only [if_pos hkind, axisPosition]
    · rw [closureDistance, if_neg hkind, closureGap]
      simp only [if_neg hkind, axisPosition]
  rw [closureFails, hsome]

theorem closureFails_isSome {s : State} {slot : Slot} {a b : Nat} {i : Axis} (hc : configured s i = true) :
    (closureFails s slot a b i).isSome = true ↔ opensAt s slot a b i := by
  by_cases hm : withoutMap s i
  · rw [closureFails_unmapped hm]
    exact ⟨fun _ => ⟨hc, .inl hm⟩, fun _ => rfl⟩
  · rw [closureFails_mapped hc hm, opensAt]
    by_cases hw : (axisCfg s i).closureWindow < (closureGap s slot a b i : Int)
    · rw [if_pos hw]
      exact ⟨fun _ => ⟨hc, .inr hw⟩, fun _ => rfl⟩
    · rw [if_neg hw]
      exact ⟨nofun, fun h => (h.2.elim hm hw).elim⟩

theorem closureFailure_eq (s : State) (slot : Slot) (a b : Nat) :
    closureFailure s slot a b = ((List.finRange 3).find? fun i =>
      configured s i && (closureFails s slot a b i).isSome).bind (closureFails s slot a b) := by
  rw [show closureFailure s slot a b = (allAxes.filter (configured s)).findSome? (closureFails s slot a b) from rfl,
    findSome_eq_find, find_filter_and]
  rfl

theorem closureFailure_least {s : State} {slot : Slot} {a b : Nat} {i : Axis} (h : Least (opensAt s slot a b) i) :
    closureFailure s slot a b = closureFails s slot a b i := by
  rw [closureFailure_eq, find_finRange (k := i)]
  · rfl
  · refine h.congr fun j => ?_
    rw [Bool.and_eq_true]
    exact ⟨fun h => ⟨h.1, (closureFails_isSome h.1).mpr h⟩, fun h => (closureFails_isSome h.1).mp h.2⟩

theorem closureFailure_none {s : State} {slot : Slot} {a b : Nat} (h : ∀ i, ¬ opensAt s slot a b i) :
    closureFailure s slot a b = none := by
  rw [closureFailure_eq, find_finRange_none]
  · rfl
  · intro i hi
    rw [Bool.and_eq_true] at hi
    exact h i ((closureFails_isSome hi.1).mp hi.2)

/-! ### MARK: the marks beside it (R91) -/

/-- The mark of another slot than k. -/
def otherMark (marks : Table (Option Mark) 8) (k : Nat) (P : Mark → Prop) (j : Fin 8) : Prop :=
  j.val ≠ k ∧ ∃ o, marks.get j = some o ∧ P o

theorem otherMarks_find {e : TakeEntry} {k : Nat} {p : Mark × Nat → Bool} {P : Mark → Prop}
    (hP : ∀ m j, p (m, j) = true ↔ P m) {j : Fin 8} (h : Least (otherMark e.marks k P) j) :
    ∃ m, (otherMarks e k).find? p = some (m, j.val) := by
  obtain ⟨m, -, hm⟩ := usedMarks_find (marks := e.marks) (p := fun x => (x.2 != k) && p x) (k := j) (h.congr fun i => by
    simp only [otherMark, Bool.and_eq_true, bne_iff_ne, hP]
    exact ⟨fun ⟨hi, o, ho, hp⟩ => ⟨o, ho, hi, hp⟩, fun ⟨o, ho, hi, hp⟩ => ⟨hi, o, ho, hp⟩⟩)
  refine ⟨m, ?_⟩
  rw [otherMarks, find_filter_and, ← hm]

theorem otherMarks_find_none {e : TakeEntry} {k : Nat} {p : Mark × Nat → Bool} {P : Mark → Prop}
    (hP : ∀ m j, p (m, j) = true ↔ P m) (h : ∀ j, ¬ otherMark e.marks k P j) : (otherMarks e k).find? p = none := by
  rw [otherMarks, find_filter_and]
  refine usedMarks_find_none fun j m hm hp => ?_
  simp only [Bool.and_eq_true, bne_iff_ne, hP] at hp
  exact h j ⟨hp.1, m, hm, hp.2⟩

theorem marksCompatible_iff (m o : Mark) : (!marksCompatible o m) = true ↔ marksCross m o := by
  simp only [marksCompatible, marksDisjoint, markInside, marksCross, Bool.not_eq_true', Bool.or_eq_false_iff,
    Bool.and_eq_false_iff, decide_eq_false_iff_not]
  omega

theorem markInside_iff (o m : Mark) : markInside o m = true ↔ o.start < m.start ∧ m.stop < o.stop := by
  rw [markInside, Bool.and_eq_true, decide_eq_true_iff, decide_eq_true_iff]

/-- A chain of five nested marks is too deep. -/
theorem depthAllowed_chain {ms : List Mark} {chain : List Mark} (hlen : chain.length = 5) (hmem : ∀ a ∈ chain, a ∈ ms)
    (hnest : chain.Pairwise fun a b => a.start < b.start ∧ b.stop < a.stop) : depthAllowed ms = false := by
  obtain ⟨outer, inner, rfl⟩ : ∃ l x, chain = l ++ [x] :=
    ⟨chain.dropLast, chain.getLast (by rintro rfl; cases hlen), (List.dropLast_append_getLast _).symm⟩
  obtain ⟨houter, -, hinner⟩ := List.pairwise_append.mp hnest
  have hnodup : outer.Nodup := houter.imp fun {a b} hab heq => by rw [heq] at hab; omega
  have hsub : outer ⊆ ms.filter fun o => markInside o inner := fun a ha => List.mem_filter.mpr
    ⟨hmem a (List.mem_append_left _ ha), (markInside_iff _ _).mpr (hinner a ha inner (List.mem_singleton_self _))⟩
  have hle := (hnodup.subperm hsub).length_le
  rw [List.length_append, List.length_singleton] at hlen
  rw [Bool.eq_false_iff]
  intro hall
  have hinnerAllowed := List.all_eq_true.mp hall inner (hmem inner (List.mem_append_right _ (List.mem_singleton_self _)))
  rw [decide_eq_true_iff] at hinnerAllowed
  omega

/-! ### MARK: the depth (R91) -/

/-- The marks of the slots once m is placed in slot k. -/
def placedMarks (marks : Table (Option Mark) 8) (k : Nat) (m : Mark) (j : Fin 8) : Option Mark :=
  if j.val = k then some m else marks.get j

theorem otherMarks_map (e : TakeEntry) (k : Fin 8) :
    (otherMarks e k.val).map Prod.fst = ((List.finRange 8).filter (· != k)).filterMap e.marks.get := by
  rw [otherMarks, usedMarks_eq, List.filterMap_filter]
  generalize List.finRange 8 = l
  induction l with
  | nil => rfl
  | cons j l ih =>
    have hjk : (j.val != k.val) = (j != k) := by
      rw [Bool.eq_iff_iff, bne_iff_ne, bne_iff_ne, ne_eq, Fin.val_inj]
    cases hm : e.marks.get j <;> by_cases h : j = k <;> simp_all

theorem placed_perm (e : TakeEntry) (k : Fin 8) (m : Mark) :
    (m :: (otherMarks e k.val).map Prod.fst).Perm ((List.finRange 8).filterMap (placedMarks e.marks k.val m)) := by
  have hsplit : (List.finRange 8).Perm (k :: (List.finRange 8).filter (· != k)) := by
    rw [← (List.nodup_finRange 8).erase_eq_filter]
    exact List.perm_cons_erase (List.mem_finRange k)
  refine .trans (.of_eq ?_) (hsplit.filterMap _).symm
  rw [List.filterMap_cons_some (show placedMarks e.marks k.val m k = some m from if_pos rfl), otherMarks_map]
  refine congrArg _ (List.filterMap_congr fun j hj => (if_neg fun hv => ?_).symm)
  exact bne_iff_ne.mp (List.mem_filter.mp hj).2 (Fin.ext hv)

theorem filter_filterMap_length {α β : Type} (f : α → Option β) (p : β → Bool) (l : List α) :
    ((l.filterMap f).filter p).length = (l.filter fun x => (f x).any p).length := by
  induction l with
  | nil => rfl
  | cons x l ih =>
    cases hx : f x with
    | none => simp [hx, ih]
    | some y => cases hp : p y <;> simp [hx, hp, ih]

theorem depthAllowed_placed {e : TakeEntry} {k : Fin 8} {m : Mark}
    (h : ∀ i a, placedMarks e.marks k.val m i = some a →
      ((List.finRange 8).filter fun j => (placedMarks e.marks k.val m j).any fun b =>
        decide (b.start < a.start ∧ a.stop < b.stop)).length ≤ 3) :
    depthAllowed (m :: (otherMarks e k.val).map Prod.fst) = true := by
  have hperm := placed_perm e k m
  refine List.all_eq_true.mpr fun a ha => decide_eq_true_iff.mpr ?_
  obtain ⟨i, -, hi⟩ := List.mem_filterMap.mp (hperm.mem_iff.mp ha)
  have hinside : (fun o => markInside o a) = fun b : Mark => decide (b.start < a.start ∧ a.stop < b.stop) :=
    funext fun b => by rw [Bool.eq_iff_iff, markInside_iff, decide_eq_true_iff]
  rw [(hperm.filter _).length_eq, filter_filterMap_length, hinside]
  exact h i a hi

/-! ### The edits, whole (R90 to R92) -/

theorem mark_meets {s s1 : State} {c : Command} {number k : Nat} {m : Mark}
    (h : Delivered pickMark s c (number, k, m) s1) :
    exec .mark s = .next (
      match editSlot s number with
      | .error r => refuse c r s1
      | .ok slot =>
        if h : k < 8 then
          match markRefusal s slot k m with
          | some (r, d) => refuseWith c r d s1
          | none => answerDone c (s1.setTs (editEntry slot (fun e => { e with marks := e.marks.set ⟨k, h⟩ (some m) }) s.ts))
        else markInvalid c .slot none s1) := by
  have hrun : markEffect s = _ := withCommand_noEarly h
  obtain ⟨q, rfl⟩ := h.onlyQueue
  exact congrArg Host.Outcome.next hrun

theorem unmark_meets {s s1 : State} {c : Command} {number k : Nat} (h : Delivered pickUnmark s c (number, k) s1) :
    exec .unmark s = .next (
      match editSlot s number with
      | .error r => refuse c r s1
      | .ok slot =>
        if h : k < 8 then
          if ((entryOf s slot).marks.get ⟨k, h⟩).isNone then answerDone c s1
          else answerDone c (s1.setTs (editEntry slot (fun e => { e with marks := e.marks.set ⟨k, h⟩ none }) s.ts))
        else markInvalid c .slot none s1) := by
  have hrun : unmarkEffect s = _ := withCommand_noEarly h
  obtain ⟨q, rfl⟩ := h.onlyQueue
  exact congrArg Host.Outcome.next hrun

theorem cuePoints_meets {s s1 : State} {c : Command} {number : Nat} {points : List Nat}
    (h : Delivered pickCuePoints s c (number, points) s1) :
    exec .cuePoints s = .next (
      match editSlot s number with
      | .error r => refuse c r s1
      | .ok slot =>
        match firstBadCue ((entryOf s slot).count - 1) 0 0 points with
        | some k => markInvalid c .cuePoints (some k) s1
        | none => answerDone c (s1.setTs (editEntry slot (fun e => { e with cues := points }) s.ts))) := by
  have hrun : cuePointsEffect s = _ := withCommand_noEarly h
  obtain ⟨q, rfl⟩ := h.onlyQueue
  exact congrArg Host.Outcome.next hrun

/-- The first entry of a cue-point list that fails, counted from a position, behind the entry `low`. -/
theorem firstBadCue_bad {last k : Nat} {before after : List Nat} (position low : Nat) (hrise : before.Pairwise (· < ·))
    (hrange : ∀ b ∈ before, low < b ∧ 1 ≤ b ∧ b ≤ last) (hbad : k ≤ low ∨ (∃ b ∈ before, k ≤ b) ∨ k = 0 ∨ last < k) :
    firstBadCue last position low (before ++ k :: after) = some (position + before.length) := by
  induction before generalizing position low with
  | nil =>
    refine if_neg ?_
    simp only [List.not_mem_nil, false_and, exists_false, false_or, Bool.and_eq_true, decide_eq_true_iff] at hbad ⊢
    omega
  | cons b before ih =>
    obtain ⟨hb, hrise⟩ := List.pairwise_cons.mp hrise
    obtain ⟨hbr, hrange⟩ := List.forall_mem_cons.mp hrange
    have hstep : firstBadCue last position low (b :: before ++ k :: after) =
        firstBadCue last (position + 1) b (before ++ k :: after) := if_pos (by simp [hbr])
    rw [hstep, ih (position + 1) b hrise (fun x hx => ⟨hb x hx, (hrange x hx).2⟩), List.length_cons, Nat.add_assoc,
      Nat.add_comm 1]
    rcases hbad with h | ⟨x, hx, hk⟩ | h
    · exact .inl (by omega)
    · rcases List.mem_cons.mp hx with rfl | hx
      · exact .inl hk
      · exact .inr (.inl ⟨x, hx, hk⟩)
    · exact .inr (.inr h)

theorem firstBadCue_good {last : Nat} {points : List Nat} (position low : Nat) (hrise : points.Pairwise (· < ·))
    (hrange : ∀ b ∈ points, low < b ∧ 1 ≤ b ∧ b ≤ last) : firstBadCue last position low points = none := by
  induction points generalizing position low with
  | nil => rfl
  | cons b points ih =>
    obtain ⟨hb, hrise⟩ := List.pairwise_cons.mp hrise
    obtain ⟨hbr, hrange⟩ := List.forall_mem_cons.mp hrange
    exact (if_pos (by simp [hbr])).trans (ih (position + 1) b hrise fun x hx => ⟨hb x hx, (hrange x hx).2⟩)

/-- What an accepted edit of an entry leaves, for an edit of the marks and the cue points. -/
theorem answered_edit {s s1 : State} {slot : Slot} {f : TakeEntry → TakeEntry} {c : Command}
    (hs : ChangesOnly [.lc] s s1) (marks : Table (Option Mark) 8) (cues : List Nat)
    (hf : f (entryOf s slot) = { entryOf s slot with marks := marks, cues := cues }) :
    let t := answerDone c (s1.setTs (editEntry slot f s.ts))
    ChangesOnly [.lc, .ts] s t ∧ t.lc = (answerDone c s1).lc ∧ OtherTakes slot s t ∧ t.ts = { s.ts with dir := t.ts.dir } ∧
      entryOf t slot = { entryOf s slot with
        marks := marks, cues := cues, signature := editSignature marks cues, editCount := (entryOf s slot).editCount + 1 } := by
  intro t
  have hanswer := answerDone_changesOnly c (s1.setTs (editEntry slot f s.ts))
  have hts : t.ts = editEntry slot f s.ts := hanswer.1 .ts (by decide)
  refine ⟨((hs.among (.head _)).trans (changesOnly_ts (.tail _ (.head _)))).trans (hanswer.among (.head _)),
    answer_lc (s := s1) (u := s1.setTs (editEntry slot f s.ts)) rfl c _ _, fun k hk => ?_, ?_, ?_⟩
  · rw [hts]; exact setEntry_get_ne hk _ _
  · rw [hts]; rfl
  · have hself : (editEntry slot f s.ts).dir.get slot = editedEntry (f (entryOf s slot)) := setEntry_get_self _ _ _
    rw [entryOf, hts, hself, hf]
    rfl

/-- The checks 2 to 6 of a MARK, each by what fails it. -/
theorem markRefusal_checks (s : State) (slot : Slot) (k : Fin 8) (m : Mark) :
    let e := entryOf s slot
    let other := otherMark e.marks k.val
    (¬ (m.start < m.stop ∧ m.stop < e.count) → markRefusal s slot k.val m = some (.markInvalid, { name := .range })) ∧
    (m.start < m.stop → m.stop < e.count →
      (∀ i, Least (opensAt s slot m.start m.stop) i →
        (withoutMap s i → markRefusal s slot k.val m = some (.mapAbsent, { number := some i.val })) ∧
        (¬ withoutMap s i → markRefusal s slot k.val m = some (.markInvalid, { name := .closure, number := some i.val }))) ∧
      ((∀ i, ¬ opensAt s slot m.start m.stop i) →
        (∀ j, Least (other fun o => o.stop = m.stop) j →
          markRefusal s slot k.val m = some (.markInvalid, { name := .sharedEnd, number := some j.val })) ∧
        ((∀ j, ¬ other (fun o => o.stop = m.stop) j) →
          (∀ j, Least (other (marksCross m)) j →
            markRefusal s slot k.val m = some (.markInvalid, { name := .overlap, number := some j.val })) ∧
          ((∀ j, ¬ other (marksCross m) j) →
            markRefusal s slot k.val m = if depthAllowed (m :: (otherMarks e k.val).map Prod.fst) then none
              else some (.markInvalid, { name := .depth }))))) := by
  intro e other
  have hshared : ∀ o j, (fun x : Mark × Nat => x.1.stop == m.stop) (o, j) = true ↔ o.stop = m.stop := fun o j => beq_iff_eq
  have hcross : ∀ o j, (fun x : Mark × Nat => !marksCompatible x.1 m) (o, j) = true ↔ marksCross m o := fun o _ =>
    marksCompatible_iff m o
  refine ⟨fun hrange => if_pos hrange, fun h1 h2 => ⟨fun i hi => ⟨fun hm => ?_, fun hm => ?_⟩, fun hcloses => ⟨fun j hj => ?_,
    fun hends => ⟨fun j hj => ?_, fun hnone => ?_⟩⟩⟩⟩ <;> refine (if_neg (not_not_intro ⟨h1, h2⟩)).trans ?_
  · rw [closureFailure_least hi, closureFails_unmapped hm]
  · rw [closureFailure_least hi, closureFails_mapped hi.1.1 hm, if_pos (hi.1.2.resolve_left hm)]
  · obtain ⟨o, ho⟩ := otherMarks_find (k := k.val) (p := fun x => x.1.stop == m.stop) hshared hj
    rw [closureFailure_none hcloses, ho]
  · obtain ⟨o, ho⟩ := otherMarks_find (k := k.val) (p := fun x => !marksCompatible x.1 m) hcross hj
    rw [closureFailure_none hcloses, otherMarks_find_none (k := k.val) (p := fun x => x.1.stop == m.stop) hshared hends, ho]
  · rw [closureFailure_none hcloses, otherMarks_find_none (k := k.val) (p := fun x => x.1.stop == m.stop) hshared hends,
      otherMarks_find_none (k := k.val) (p := fun x => !marksCompatible x.1 m) hcross hnone]

/-- A chain of five, of m and the marks beside it, is too deep. -/
theorem depthAllowed_beside {e : TakeEntry} {k : Nat} {m : Mark} {chain : List Mark} (hlen : chain.length = 5)
    (hmem : ∀ a ∈ chain, a = m ∨ ∃ j, otherMark e.marks k (fun o => o = a) j)
    (hnest : chain.Pairwise fun a b => a.start < b.start ∧ b.stop < a.stop) :
    depthAllowed (m :: (otherMarks e k).map Prod.fst) = false := by
  refine depthAllowed_chain hlen (fun a ha => List.mem_cons.mpr ((hmem a ha).imp id ?_)) hnest
  rintro ⟨j, hj, o, ho, rfl⟩
  refine List.mem_map.mpr ⟨(o, j.val), List.mem_filter.mpr ⟨?_, bne_iff_ne.mpr hj⟩, rfl⟩
  rw [usedMarks_eq, List.mem_filterMap]
  exact ⟨j, List.mem_finRange j, by rw [ho]; rfl⟩

/-- A MARK that a check of its own refuses. -/
theorem mark_refused {s s1 : State} {c : Command} {number : Nat} {slot : Slot} {k : Fin 8} {m : Mark} {r : Reason} {d : Detail}
    (h : Delivered pickMark s c (number, k.val, m) s1) (hedit : editSlot s number = .ok slot)
    (href : markRefusal s slot k.val m = some (r, d)) : exec .mark s = .next (refuseWith c r d s1) := by
  rw [mark_meets h, hedit]
  refine congrArg _ ((dif_pos k.isLt).trans ?_)
  rw [href]

/-- Settles O28: the common checks, each edit by its equation, and the checks of a MARK in order. -/
theorem marksAndCuePointsAreEdited : Obligations.MarksAndCuePointsAreEdited := by
  refine ⟨fun s s1 c number i hi => ⟨fun hnone => ?_, fun slot hslot hstored huse => ?_⟩,
    fun s s1 c number slot hslot hstored huse => ?_⟩
  · rcases hi with ⟨rfl, k, m, h⟩ | ⟨rfl, k, h⟩ | ⟨rfl, points, h⟩
    · rw [mark_meets h, editSlot_noTake hnone]
    · rw [unmark_meets h, editSlot_noTake hnone]
    · rw [cuePoints_meets h, editSlot_noTake hnone]
  · rcases hi with ⟨rfl, k, m, h⟩ | ⟨rfl, k, h⟩ | ⟨rfl, points, h⟩
    · rw [mark_meets h, editSlot_takeInUse hslot hstored huse]
    · rw [unmark_meets h, editSlot_takeInUse hslot hstored huse]
    · rw [cuePoints_meets h, editSlot_takeInUse hslot hstored huse]
  have hedit := editSlot_ok hslot hstored huse
  intro e edited
  refine ⟨fun k m h hnone => ?_, fun k h => ?_, fun points h hrise hrange => ?_, fun k m h => ?_, fun k h hk => ?_,
    fun before k after h hrise hrange hbad => ?_⟩
  · have hmeets := mark_meets h
    have hnone : markRefusal s slot k.val m = none := by
      obtain ⟨q, rfl⟩ := h.onlyQueue
      exact hnone
    rw [hedit] at hmeets
    exact ⟨_, hmeets.trans (congrArg _ ((dif_pos k.isLt).trans (by rw [hnone]))), answered_edit h.changesOnly _ _ rfl⟩
  · have hmeets := unmark_meets h
    rw [hedit] at hmeets
    cases hm : (entryOf s slot).marks.get k with
    | none =>
      exact ⟨_, hmeets.trans (congrArg _ ((dif_pos k.isLt).trans (if_pos (by rw [hm]; rfl)))), fun h => absurd rfl h, fun _ => rfl⟩
    | some m =>
      exact ⟨_, hmeets.trans (congrArg _ ((dif_pos k.isLt).trans (if_neg (by rw [hm]; nofun)))),
        fun _ => answered_edit h.changesOnly _ _ rfl, nofun⟩
  · have hmeets := cuePoints_meets h
    rw [hedit] at hmeets
    have hgood : firstBadCue ((entryOf s slot).count - 1) 0 0 points = none := firstBadCue_good 0 0 hrise fun b hb => by
      have := hrange b hb
      simp only [e] at this
      omega
    dsimp only at hmeets
    rw [hgood] at hmeets
    exact ⟨_, hmeets, answered_edit h.changesOnly _ _ rfl⟩
  · intro other refused
    refine ⟨fun hk => ?_, fun hk => ?_⟩
    · simp only [refused]
      rw [mark_meets h, hedit]
      exact congrArg _ (dif_neg (Nat.not_lt.mpr hk))
    · obtain ⟨k, rfl⟩ : ∃ j : Fin 8, j.val = k := ⟨⟨k, hk⟩, rfl⟩
      have hrefused : ∀ {r d}, markRefusal s slot k.val m = some (r, d) → refused r d := fun href => mark_refused h hedit href
      obtain ⟨hrange, hrest⟩ := markRefusal_checks s slot k m
      refine ⟨fun hr => hrefused (hrange hr), fun h1 h2 => ?_⟩
      obtain ⟨hopens, hrest⟩ := hrest h1 h2
      refine ⟨fun i hi => ⟨fun hm => hrefused ((hopens i hi).1 hm), fun hm => hrefused ((hopens i hi).2 hm)⟩, fun hcloses => ?_⟩
      obtain ⟨hshared, hrest⟩ := hrest hcloses
      refine ⟨fun j hj => hrefused (hshared j hj), fun hends => ?_⟩
      obtain ⟨hcross, hrest⟩ := hrest hends
      refine ⟨fun j hj => hrefused (hcross j hj), fun hnone ⟨chain, hlen, hmem, hnest⟩ => hrefused ?_, ?_⟩
      · rw [hrest hnone, depthAllowed_beside hlen hmem hnest]
        rfl
      · intro hnone placed hdepth
        obtain ⟨q, rfl⟩ := h.onlyQueue
        exact (hrest hnone).trans (if_pos (depthAllowed_placed hdepth))
  · rw [unmark_meets h, hedit]
    exact congrArg _ (dif_neg (Nat.not_lt.mpr hk))
  · have hfirst : firstBadCue ((entryOf s slot).count - 1) 0 0 (before ++ k :: after) = some (0 + before.length) := by
      refine firstBadCue_bad 0 0 hrise (fun b hb => ?_) ?_
      · have := hrange b hb
        simp only [e] at this
        omega
      · rcases hbad with hbad | hbad | hbad
        · exact .inr (.inl hbad)
        · exact .inl (by omega)
        · simp only [e] at hbad
          omega
    rw [cuePoints_meets h, hedit]
    refine congrArg _ ?_
    dsimp only
    rw [hfirst, Nat.zero_add]
    rfl

end Sys2Proof.Machine
end


section
/-! PROOFS. The lens maps that a console writes: LENS-POINT and LENS-COMMIT. -/

namespace Sys2Proof.Machine

/-! ### The checks of a new map (R75) -/

-- In place, so that the parts of the text are elaborated one after the other and not all at once.
set_option Elab.async false in
/-- Points whose key rises do not break. -/
theorem firstBreak_none {fails : LensPoint → LensPoint → Bool} {key : LensPoint → Int}
    (hkey : ∀ p q, key p < key q → fails p q = false) {m : LensMap} (h : m.Pairwise fun p q => key p < key q) (i : Nat) :
    firstBreak fails i m = none := by
  induction m generalizing i with
  | nil => rfl
  | cons p m ih =>
    cases m with
    | nil => rfl
    | cons q m =>
      obtain ⟨hp, hm⟩ := List.pairwise_cons.mp h
      have hpq : fails p q = false := hkey p q (hp q (.head _))
      exact (if_neg (by rw [hpq]; decide)).trans (ih hm (i + 1))

/-- Points whose key rises up to a pair that breaks. -/
theorem firstBreak_at {fails : LensPoint → LensPoint → Bool} {key : LensPoint → Int}
    (hkey : ∀ p q, key p < key q → fails p q = false) {m : LensMap} {j : Nat}
    (h : (m.take (j + 1)).Pairwise fun p q => key p < key q) {p q : LensPoint} (hp : m[j]? = some p)
    (hq : m[j + 1]? = some q) (hf : fails p q = true) (i : Nat) : firstBreak fails i m = some (i + (j + 1)) := by
  induction j generalizing m i with
  | zero =>
    match m, hp, hq with
    | _ :: _ :: _, rfl, rfl => exact if_pos hf
  | succ j ih =>
    match m, hp, hq, h with
    | a :: [], _, hq, _ => cases hq
    | a :: b :: m, hp, hq, h =>
      obtain ⟨ha, hm⟩ := List.pairwise_cons.mp h
      have hab : fails a b = false := hkey a b (ha b (.head _))
      refine (if_neg (by rw [hab]; decide)).trans ((ih hm hp hq (i + 1)).trans ?_)
      rw [Nat.add_right_comm i 1, Nat.add_assoc]

theorem takes_points {shadow : List (Option LensPoint)} {new : LensMap} (h : shadow = new.map some) :
    shadow.findIdx? Option.isNone = none ∧ shadow.filterMap id = new := by
  subst h
  refine ⟨List.findIdx?_eq_none_iff.mpr fun x hx => ?_, ?_⟩
  · obtain ⟨p, -, rfl⟩ := List.mem_map.mp hx
    rfl
  · rw [List.filterMap_map]
    exact List.filterMap_some

theorem shadow_empty {t : Table (Option LensPoint) 16} {n : Nat} {k : Fin 16} (hk : k.val < n)
    (h : Least (fun j => t.get j = none) k) : (t.rows.take n).findIdx? Option.isNone = some k.val := by
  have hlen : k.val < (t.rows.take n).length := by
    rw [List.length_take, t.size_eq]
    exact lt_min hk k.isLt
  refine List.findIdx?_eq_some_iff_getElem.mpr ⟨hlen, ?_, fun j hj hnone => ?_⟩
  · rw [List.getElem_take]
    exact Option.isNone_iff_eq_none.mpr h.1
  · rw [List.getElem_take] at hnone
    exact h.2 ⟨j, Nat.lt_trans hj k.isLt⟩ hj (Option.isNone_iff_eq_none.mp hnone)

theorem unitBreak_none {m : LensMap} (h : m.Pairwise fun p q => p.unit < q.unit) :
    firstBreak (fun a b => b.unit ≤ a.unit) 0 m = none :=
  firstBreak_none (key := LensPoint.unit) (fun _ _ hlt => decide_eq_false (Int.not_le.mpr hlt)) h 0

theorem countBreak_equal {p q : LensPoint} {m : LensMap} (h : p.count = q.count) : countBreak (p :: q :: m) = some 1 := if_pos h

theorem countBreak_rising {p q : LensPoint} {m : LensMap} (h : p.count < q.count) :
    countBreak (p :: q :: m) = firstBreak (fun a b => b.count ≤ a.count) 0 (p :: q :: m) :=
  (if_neg (Int.ne_of_lt h)).trans (if_pos h)

theorem countBreak_falling {p q : LensPoint} {m : LensMap} (h : q.count < p.count) :
    countBreak (p :: q :: m) = firstBreak (fun a b => a.count ≤ b.count) 0 (p :: q :: m) :=
  (if_neg (Int.ne_of_gt h)).trans (if_neg (Int.not_lt.mpr (Int.le_of_lt h)))

/-- The counts of a valid map run. -/
theorem countBreak_none {m : LensMap} (h : mapValid m = true) : countBreak m = none := by
  obtain ⟨hlen, -, increasing, hrises⟩ := mapValid_rises h
  have hrun := List.pairwise_map.mp hrises
  match m, hlen, hrun with
  | p :: q :: m, _, hrun =>
    cases increasing with
    | true =>
      have hpq : p.count < q.count := (List.pairwise_cons.mp hrun).1 q (.head _)
      rw [countBreak_rising hpq]
      exact firstBreak_none (key := LensPoint.count) (fun _ _ hlt => decide_eq_false (Int.not_le.mpr hlt)) hrun 0
    | false =>
      have hpq : -p.count < -q.count := (List.pairwise_cons.mp hrun).1 q (.head _)
      rw [countBreak_falling (Int.neg_lt_neg_iff.mp hpq)]
      exact firstBreak_none (key := fun p => -p.count)
        (fun _ _ hlt => decide_eq_false (Int.not_le.mpr (Int.neg_lt_neg_iff.mp hlt))) hrun 0

/-- The checks 3 to 7 of a commit, each by what fails it. -/
theorem commitCheck_checks (sender : Station) (n : Nat) (m : LensChannel) :
    (m.writer ≠ some sender → commitCheck sender n m = .error { name := .writer }) ∧
    (m.writer = some sender →
      ((n < 2 ∨ 16 < n) → commitCheck sender n m = .error { name := .count }) ∧
      (2 ≤ n → n ≤ 16 →
        (∀ k : Fin 16, k.val < n → Least (fun j => m.shadow.get j = none) k →
          commitCheck sender n m = .error { name := .empty, number := some k.val }) ∧
        ∀ new : LensMap, m.shadow.rows.take n = new.map some → commitCheck sender n m =
          match firstBreak (fun a b => b.unit ≤ a.unit) 0 new with
          | some k => .error { name := .units, number := some k }
          | none =>
            match countBreak new with
            | some k => .error { name := .counts, number := some k }
            | none => .ok new)) := by
  refine ⟨fun hw => if_pos hw, fun hw => ⟨fun hn => (if_neg (not_not_intro hw)).trans (if_pos hn), fun h2 h16 =>
    ⟨fun k hk hleast => ?_, fun new hnew => ?_⟩⟩⟩ <;>
    refine (if_neg (not_not_intro hw)).trans ((if_neg (by omega)).trans ?_)
  · rw [shadow_empty hk hleast]
  · obtain ⟨hfull, hpoints⟩ := takes_points hnew
    rw [hfull, hpoints] <;> rfl

theorem lensPoint_meets {s s1 : State} {c : Command} {number index unit : Nat} {count : Int}
    (h : Delivered pickLensPoint s c (number, index, unit, count) s1) :
    exec .lensPoint s = .next (
      match namedAxis s1 number with
      | none => refuseWith c .notController { name := .disabled } s1
      | some i =>
        if !(axisCfg s i).kind.isLens then refuseWith c .mapInvalid { name := .notLens } s1
        else if h : index < 16 then
          answerClamped c ((clampPoint (axisCfg s i) unit count).unit != unit || (clampPoint (axisCfg s i) unit count).count != count)
            (s1.setLmu (s.lmu.set i (writePoint c.sender ⟨index, h⟩ (clampPoint (axisCfg s i) unit count) (s.lmu.get i))))
        else refuseWith c .mapInvalid { name := .index } s1) := by
  have hrun : lensPointEffect s = _ := withCommand_noEarly h
  obtain ⟨q, rfl⟩ := h.onlyQueue
  exact congrArg Host.Outcome.next hrun

theorem lensCommit_meets {s s1 : State} {c : Command} {number n : Nat} (h : Delivered pickLensCommit s c (number, n) s1) :
    exec .lensCommit s = .next (
      match namedAxis s1 number with
      | none => refuseWith c .notController { name := .disabled } s1
      | some i =>
        if !(axisCfg s i).kind.isLens then refuseWith c .mapInvalid { name := .notLens } s1
        else
          match commitCheck c.sender n (s.lmu.get i) with
          | .error d => refuseWith c .mapInvalid d s1
          | .ok new =>
            answer c .done { name := if holdsPending (axisCh s i).state then .pending else .active }
              (s1.setLmu (s.lmu.set i (placeMap (holdsPending (axisCh s i).state) new (s.lmu.get i))))) := by
  have hrun : lensCommitEffect s = _ := withCommand_noEarly h
  obtain ⟨q, rfl⟩ := h.onlyQueue
  exact congrArg Host.Outcome.next hrun

theorem clamped_iff (p : LensPoint) (unit count : Int) :
    (p.unit != unit || p.count != count) = decide (p.unit ≠ unit ∨ p.count ≠ count) := by
  rw [Bool.eq_iff_iff, Bool.or_eq_true, bne_iff_ne, bne_iff_ne, decide_eq_true_iff]

/-- The maps of one axis change, and the ANSWER goes out. -/
theorem answered_map {s s1 : State} (hs : ChangesOnly [.lc] s s1) (i : Axis) (m : LensChannel) (c : Command) (r : AnswerResult)
    (d : Detail) :
    let t := answer c r d (s1.setLmu (s.lmu.set i m))
    ChangesOnly [.lc, .lmu] s t ∧ t.lc = (answer c r d s1).lc ∧ (∀ j, j ≠ i → t.lmu.get j = s.lmu.get j) ∧ t.lmu.get i = m := by
  intro t
  have hanswer := answer_changesOnly c r d (s1.setLmu (s.lmu.set i m))
  have hlmu : t.lmu = s.lmu.set i m := hanswer.1 .lmu (by decide)
  refine ⟨((hs.among (.head _)).trans (changesOnly_lmu (.tail _ (.head _)))).trans (hanswer.among (.head _)),
    answer_lc (s := s1) (u := s1.setLmu (s.lmu.set i m)) rfl c r d, fun j hj => ?_, ?_⟩
  · rw [hlmu, Table.get_set_ne _ (Ne.symm hj)]
  · rw [hlmu, Table.get_set_self]

theorem holdsPending_iff (st : AxisState) : holdsPending st = true ↔ st = .follow ∨ st = .override ∨ st = .rejoin := by
  rw [holdsPending, Bool.or_eq_true, Bool.or_eq_true, beq_iff_eq, beq_iff_eq, beq_iff_eq, or_assoc]

/-- The refusals of a LENS-COMMIT of points in place, whose units and counts are looked at in turn. -/
theorem pointCheck_fails {new : LensMap} {x : Except Detail LensMap}
    (hx : x = match firstBreak (fun a b => b.unit ≤ a.unit) 0 new with
      | some k => .error { name := .units, number := some k }
      | none =>
        match countBreak new with
        | some k => .error { name := .counts, number := some k }
        | none => .ok new) :
    (∀ j p q, new[j]? = some p → new[j + 1]? = some q → ((new.take (j + 1)).map LensPoint.unit).Pairwise (· < ·) →
      q.unit ≤ p.unit → x = .error { name := .units, number := some (j + 1) }) ∧
    (∀ first second more, (new.map LensPoint.unit).Pairwise (· < ·) → new = first :: second :: more →
      (first.count = second.count → x = .error { name := .counts, number := some 1 }) ∧
      (∀ j p q, new[j]? = some p → new[j + 1]? = some q →
        (first.count < second.count → ((new.take (j + 1)).map LensPoint.count).Pairwise (· < ·) → q.count ≤ p.count →
          x = .error { name := .counts, number := some (j + 1) }) ∧
        (second.count < first.count → ((new.take (j + 1)).map LensPoint.count).Pairwise (· > ·) → p.count ≤ q.count →
          x = .error { name := .counts, number := some (j + 1) }))) := by
  refine ⟨fun j p q hp hq hrise hle => ?_, fun first second more hunits hnew => ?_⟩
  · rw [hx, firstBreak_at (key := LensPoint.unit) (fun _ _ hlt => decide_eq_false (Int.not_le.mpr hlt)) (List.pairwise_map.mp hrise) hp hq
      (decide_eq_true hle), Nat.zero_add]
  · rw [unitBreak_none (List.pairwise_map.mp hunits)] at hx
    subst hnew
    refine ⟨fun heq => by rw [hx, countBreak_equal heq], fun j p q hp hq => ⟨fun hlt hrise hle => ?_, fun hlt hfall hle => ?_⟩⟩
    · rw [hx, countBreak_rising hlt, firstBreak_at (key := LensPoint.count) (fun _ _ h => decide_eq_false (Int.not_le.mpr h))
        (List.pairwise_map.mp hrise) hp hq (decide_eq_true hle), Nat.zero_add]
    · have hneg := (List.pairwise_map.mp hfall).imp fun {a b : LensPoint} (h : b.count < a.count) => Int.neg_lt_neg_iff.mpr h
      rw [hx, countBreak_falling hlt, firstBreak_at (key := fun p => -p.count)
        (fun _ _ h => decide_eq_false (Int.not_le.mpr (Int.neg_lt_neg_iff.mp h))) hneg hp hq (decide_eq_true hle), Nat.zero_add]

/-- What a LENS-POINT makes of the maps of its axis. -/
theorem writePoint_writes (sender : Station) (k : Fin 16) (p : LensPoint) (m : LensChannel) :
    let t := writePoint sender k p m
    t.active = m.active ∧ t.pending = m.pending ∧ t.writer = some sender ∧ t.shadow.get k = some p ∧
      ∀ j, j ≠ k → t.shadow.get j = (match m.writer with
        | some w => if w = sender then m.shadow.get j else none
        | none => m.shadow.get j) := by
  intro t
  refine ⟨rfl, rfl, rfl, Table.get_set_self _ _ _, fun j hj => (Table.get_set_ne _ (Ne.symm hj) _).trans ?_⟩
  cases hw : m.writer with
  | none => rw [shadowFor, hw]
  | some w =>
    rw [shadowFor, hw]
    by_cases hs : w = sender
    · simp only [if_pos hs]
    · simp only [if_neg hs, Table.get_fill]

/-- Settles O27: the checks in order, the written slot of the shadow, and the place of the new map. -/
theorem lensMapsAreWritten : Obligations.LensMapsAreWritten := by
  refine ⟨fun s s1 c number index unit count h => ⟨fun hnone => ?_, fun i hi => ⟨fun hkind => ?_, fun hkind hindex => ?_⟩⟩,
    fun s s1 c number n h => ?_, fun s s1 c number index unit count i hindex h hi hkind => ?_,
    fun s s1 c number n i new h hi hkind hw h2 h16 hnew hvalid => ?_⟩
  · dsimp only
    rw [lensPoint_meets h, hnone]
  · dsimp only
    rw [lensPoint_meets h, hi]
    exact congrArg _ (if_pos (by rw [hkind]; rfl))
  · dsimp only
    rw [lensPoint_meets h, hi]
    exact congrArg _ ((if_neg (by rw [hkind]; decide)).trans (dif_neg (Nat.not_lt.mpr hindex)))
  · have hmeets := lensCommit_meets h
    intro refused rises falls
    refine ⟨fun hnone => ?_, fun i hi => ?_⟩
    · simp only [refused]
      rw [hmeets, hnone]
    rw [hi] at hmeets
    refine ⟨fun hkind => hmeets.trans (congrArg _ (if_pos (by rw [hkind]; rfl))), fun hkind => ?_⟩
    have hrefused : ∀ {d}, commitCheck c.sender n (s.lmu.get i) = .error d → refused .mapInvalid d := fun {d} hd =>
      hmeets.trans (congrArg _ ((if_neg (by rw [hkind]; decide)).trans (by rw [hd])))
    obtain ⟨hwriter, hrest⟩ := commitCheck_checks c.sender n (s.lmu.get i)
    refine ⟨fun hw => hrefused (hwriter hw), fun hw => ?_⟩
    obtain ⟨hcount, hrest⟩ := hrest hw
    refine ⟨fun hn => hrefused (hcount hn), fun h2 h16 => ?_⟩
    obtain ⟨hempty, hpoints⟩ := hrest h2 h16
    refine ⟨fun k hk hleast => hrefused (hempty k hk hleast), fun new hnew => ?_⟩
    obtain ⟨hunits, hcounts⟩ := pointCheck_fails (hpoints new hnew)
    refine ⟨fun j p q hp hq hrise hle => hrefused (hunits j p q hp hq hrise hle), fun first second more hu heq => ?_⟩
    obtain ⟨hsame, hrun⟩ := hcounts first second more hu heq
    exact ⟨fun h => hrefused (hsame h), fun j p q hp hq => ⟨fun hlt hr hle => hrefused ((hrun j p q hp hq).1 hlt hr hle),
      fun hlt hr hle => hrefused ((hrun j p q hp hq).2 hlt hr hle)⟩⟩
  · have hmeets := lensPoint_meets h
    rw [hi] at hmeets
    intro p
    have heq : exec .lensPoint s = .next (answerClamped c (p.unit != unit || p.count != count)
        (s1.setLmu (s.lmu.set i (writePoint c.sender ⟨index, hindex⟩ p (s.lmu.get i))))) :=
      hmeets.trans (congrArg _ ((if_neg (by rw [hkind]; decide)).trans (dif_pos hindex)))
    obtain ⟨hchanges, hlc, hothers, hself⟩ := answered_map h.changesOnly i
      (writePoint c.sender ⟨index, hindex⟩ p (s.lmu.get i)) c
      (if (p.unit != unit || p.count != count) then .doneClamped else .done) {}
    refine ⟨_, heq, hchanges, ?_, hothers, ?_⟩
    · rw [← clamped_iff]
      exact hlc
    · rw [show (answerClamped c _ _).lmu.get i = writePoint c.sender ⟨index, hindex⟩ p (s.lmu.get i) from hself]
      exact writePoint_writes c.sender ⟨index, hindex⟩ p (s.lmu.get i)
  · have hmeets := lensCommit_meets h
    rw [hi] at hmeets
    have hok : commitCheck c.sender n (s.lmu.get i) = .ok new := by
      rw [((commitCheck_checks c.sender n (s.lmu.get i)).2 hw).2 h2 h16 |>.2 new hnew,
        unitBreak_none (List.pairwise_map.mp (mapValid_rises hvalid).2.1), countBreak_none hvalid]
    have heq := hmeets.trans (congrArg _ ((if_neg (by rw [hkind]; decide)).trans (by rw [hok])))
    obtain ⟨hchanges, hlc, hothers, hself⟩ := answered_map h.changesOnly i
      (placeMap (holdsPending (axisCh s i).state) new (s.lmu.get i)) c .done
      { name := if holdsPending (axisCh s i).state then .pending else .active }
    refine ⟨_, heq, hchanges, hothers, fun hst => ?_, fun hf ho hr => ?_⟩
    · have hpending := (holdsPending_iff _).mpr hst
      rw [hpending] at hself hlc ⊢
      exact ⟨hself, hlc⟩
    · have hactive : holdsPending (axisCh s i).state = false := Bool.eq_false_iff.mpr fun h => by
        rcases (holdsPending_iff _).mp h with h | h | h
        exacts [hf h, ho h, hr h]
      rw [hactive] at hself hlc ⊢
      exact ⟨hself, hlc⟩

end Sys2Proof.Machine
end


section
/-! PROOFS. From ARM-RECORD to the end of the roll window. -/

namespace Sys2Proof.Machine

/-! ### Take numbers and the checks of ARM-RECORD (R102) -/

-- In place, so that the parts of the text are elaborated one after the other and not all at once.
set_option Elab.async false in
theorem slotOf_eq_some {number : Nat} {slot : Slot} : slotOf number = some slot ↔ number = slot.val + 1 := by
  rw [slotOf]
  constructor
  · intro h
    split at h
    · cases h
      dsimp only
      omega
    · cases h
  · rintro rfl
    rw [dif_pos ⟨Nat.le_add_left 1 _, slot.isLt⟩]
    rfl

theorem armable_iff (e : TakeEntry) (overwrite : Bool) :
    armable e overwrite = true ↔ e.state = .empty ∨ (e.state = .stored ∧ overwrite = true) := by
  rw [armable, Bool.or_eq_true, Bool.and_eq_true, beq_iff_eq, beq_iff_eq]

theorem unmapped_iff (s : State) (i : Axis) : (isLens s i && (activeMap s i).isEmpty) = true ↔ withoutMap s i := by
  rw [Bool.and_eq_true, List.isEmpty_iff, withoutMap]

theorem unmappedAxis_least {s : State} {i : Axis} (h : Least (withoutMap s) i) : unmappedAxis s = some i :=
  find_finRange (h.congr fun j => (unmapped_iff s j).symm)

theorem unmappedAxis_none {s : State} (h : ∀ i, ¬ withoutMap s i) : unmappedAxis s = none :=
  find_finRange_none fun i hi => h i ((unmapped_iff s i).mp hi)

theorem blocksForArm_zero (s : State) (slot : Slot) :
    blocksForArm s slot = 0 ↔ s.ts.free = [] ∧ ((entryOf s slot).state = .stored → (entryOf s slot).blocks = []) := by
  rw [blocksForArm, Nat.add_eq_zero_iff, List.length_eq_zero_iff]
  refine and_congr_right fun _ => ?_
  by_cases h : (entryOf s slot).state = .stored
  · rw [if_pos h, List.length_eq_zero_iff]
    exact ⟨fun hb _ => hb, fun hb => hb h⟩
  · rw [if_neg h]
    exact ⟨fun _ h' => absurd h' h, fun _ => rfl⟩

/-- The station with its slot armed, before the change of mode. -/
def armedStation (slot : Slot) (stamp : BitVec 32) (mask : BitVec 16) (interval : Nat) (s : State) : State :=
  (s.setTs (armSlot slot stamp mask interval s.ts)).setTc { s.tc with ctx := some (armContext slot stamp mask) }

theorem armRecord_meets {s s1 : State} {c : Command} {number interval : Nat} {stamp : BitVec 32} {mask : BitVec 16}
    {overwrite : Bool} (h : Delivered pickArmRecord s c (number, stamp, mask, interval, overwrite) s1)
    (hmask : inMask mask s.cl.station = true) :
    exec .armRecord s = .next (
      match armCheck number overwrite s1 with
      | .error (r, d) => refuseWith c r d s1
      | .ok slot =>
        answerClamped c (clampInterval interval != interval)
          (setMode .armed (armedStation slot stamp mask interval s1))) := by
  obtain ⟨-, -, -, -, -, -, -, -, -, hcl, -⟩ := h.frame
  exact congrArg Host.Outcome.next (withCommand_of h (by simp [hcl, hmask]))

theorem armRecord_ignored {s s1 : State} {c : Command} {number interval : Nat} {stamp : BitVec 32} {mask : BitVec 16}
    {overwrite : Bool} (h : Delivered pickArmRecord s c (number, stamp, mask, interval, overwrite) s1)
    (hmask : inMask mask s.cl.station = false) : exec .armRecord s = .next s1 := by
  obtain ⟨-, -, -, -, -, -, -, -, -, hcl, -⟩ := h.frame
  obtain ⟨⟨e, htaken, hcommand⟩, -⟩ := h
  exact congrArg Host.Outcome.next (withCommand_early htaken hcommand (by simp [hcl, hmask]))

/-- An arming that the check of section 6.2 passes finds a free block once the slot is empty. -/
theorem emptyEntry_free_some {s : State} {slot : Slot} (h : blocksForArm s slot ≠ 0) :
    ∃ b rest, (emptyEntry slot s.ts).free = b :: rest := by
  have hlen : blocksForArm s slot ≤ (emptyEntry slot s.ts).free.length := by
    rw [(emptyEntry_free_perm slot s.ts).length_eq, List.length_append, blocksForArm]
    split
    · exact Nat.le_refl _
    · exact Nat.le_add_right _ _
  exact List.exists_cons_of_ne_nil (List.ne_nil_of_length_pos (by omega))

theorem armCheck_slot {number : Nat} {slot : Slot} {overwrite : Bool} {s : State} (h : armCheck number overwrite s = .ok slot) :
    slotOf number = some slot := by
  cases hb : bulkFree s with
  | false => simp [armCheck, hb] at h
  | true =>
    cases hs : slotOf number with
    | none => simp [armCheck, hb, hs] at h
    | some k =>
      cases ha : armable (entryOf s k) overwrite with
      | false => simp [armCheck, hb, hs, ha] at h
      | true =>
        cases hm : unmappedAxis s with
        | some i => simp [armCheck, hb, hs, ha, hm] at h
        | none =>
          simp only [armCheck, hb, hs, ha, hm, Bool.not_true, Bool.false_eq_true, if_false] at h
          split at h
          · cases h
          · rw [Except.ok.inj h]

/-- The station as a change to ARMED leaves it, with no bulk transfer to abandon. -/
theorem setMode_arms {u : State} (hbulk : u.ts.bulk = .none) :
    ChangesOnly [.lc, .pt, .fd, .tc, .pu] u (setMode .armed u) ∧ (setMode .armed u).tc = { u.tc with mode := .armed } ∧
      (setMode .armed u).pu.r = 0 ∧ (setMode .armed u).pu.t = u.pu.t ∧ (setMode .armed u).pt.entries = u.pt.entries := by
  refine ⟨?_, setMode_tc _ _, by rw [setMode_pu]; rfl, by rw [setMode_pu], setMode_entries (by decide) u⟩
  simp [changesOnly_iff, setMode_ts_of_none _ hbulk]

/-- Settles O36: the checks in order, and the armed slot under the change of mode. -/
theorem armRecordArmsTheSlot : Obligations.ArmRecordArmsTheSlot := by
  intro s s1 c number interval stamp mask overwrite h
  refine ⟨armRecord_ignored h, fun slot hmask hcheck => ?_, fun hmask => ?_⟩
  · have hmeets := armRecord_meets h hmask
    rw [hcheck] at hmeets
    dsimp only at hmeets
    obtain ⟨-, -, -, hts1, -, htc1, hpu1, -⟩ := h.frame
    obtain ⟨hfree, -, -, hblocks⟩ := (armCheck_eq_ok_iff overwrite _ (armCheck_slot hcheck)).mp hcheck
    obtain ⟨b, rest, hb⟩ := emptyEntry_free_some hblocks
    have harmed := armSlot_of_free stamp mask interval hb
    have hentry : (armSlot slot stamp mask interval s1.ts).dir.get slot = { TakeEntry.empty with
        state := .armed, stamp := stamp, mask := mask, interval := clampInterval interval, blocks := [b] } := by
      rw [harmed, setEntry_get_self]
    have hpool : (armSlot slot stamp mask interval s1.ts).pool = s1.ts.pool := by rw [harmed]; rfl
    have hbulk : (armedStation slot stamp mask interval s1).ts.bulk = .none := by
      rw [armedStation, setTc_ts, setTs_ts, harmed]
      exact bulk_eq_none_of_bulkFree hfree
    obtain ⟨hchanges, htc, hr, ht, hentries⟩ := setMode_arms hbulk
    have hts : (setMode .armed (armedStation slot stamp mask interval s1)).ts = armSlot slot stamp mask interval s1.ts :=
      hchanges.1 .ts (by decide)
    have hfirst : ChangesOnly [.lc, .pt, .ts, .fd, .tc, .pu] s (armedStation slot stamp mask interval s1) :=
      ((h.changesOnly.among (.head _)).trans (changesOnly_ts (.tail _ (.tail _ (.head _))))).trans
        (changesOnly_tc (.tail _ (.tail _ (.tail _ (.tail _ (.head _))))))
    have hall := hfirst.trans (hchanges.mono (by decide))
    generalize setMode .armed (armedStation slot stamp mask interval s1) = u at *
    have hanswer := answer_changesOnly c (if clampInterval interval != interval then .doneClamped else .done) {} u
    refine ⟨answerClamped c (clampInterval interval != interval) u, u, hmeets, by rw [clampInterval_ne], ?_, ?_,
      fun k hk => ?_, ?_, ⟨b, ?_⟩, ?_, ?_, ?_⟩
    · exact hall.trans (hanswer.among (.head _))
    · rw [show (answerClamped c _ u).tc = u.tc from hanswer.1 .tc (by decide), htc, armedStation, setTc_tc, htc1]
      rfl
    · rw [show (answerClamped c _ u).ts = u.ts from hanswer.1 .ts (by decide), hts, armSlot_get_ne hk hb, hts1]
    · rw [show (answerClamped c _ u).ts = u.ts from hanswer.1 .ts (by decide), hts, hpool, hts1]
    · rw [entryOf, show (answerClamped c _ u).ts = u.ts from hanswer.1 .ts (by decide), hts]
      exact hentry
    · rw [show (answerClamped c _ u).pu = u.pu from hanswer.1 .pu (by decide), hr]
    · rw [show (answerClamped c _ u).pu = u.pu from hanswer.1 .pu (by decide), ht, armedStation, setTc_pu, setTs_pu, hpu1]
    · rw [show (answerClamped c _ u).pt = u.pt from hanswer.1 .pt (by decide), hentries, armedStation, setTc_pt, setTs_pt,
        h.frame.1]
  · have hmeets := armRecord_meets h hmask
    have hcheck : armCheck number overwrite s1 = armCheck number overwrite s := by
      obtain ⟨q, rfl⟩ := h.onlyQueue
      rfl
    intro refused
    have hrefused : ∀ {r d}, armCheck number overwrite s = .error (r, d) → refused r d := fun {r d} hd =>
      hmeets.trans (congrArg _ (by rw [hcheck, hd]))
    rw [hcheck]
    refine ⟨fun hbusy => hrefused ?_, fun hidle hbulk => ?_⟩
    · rw [armCheck, Bool.eq_false_iff.mpr (mt (bulkFree_iff s).mp hbusy)]
      rfl
    have hfree := (bulkFree_iff s).mpr ⟨hidle, hbulk⟩
    refine ⟨fun hslot => hrefused ?_, fun slot hslot => ?_⟩
    · rw [armCheck, hfree, hslot]
      rfl
    have harmed : (entryOf s slot).state = .empty ∨ ((entryOf s slot).state = .stored ∧ overwrite = true) →
        ¬ (!armable (entryOf s slot) overwrite) = true := fun hv => by rw [(armable_iff _ _).mpr hv]; decide
    refine ⟨fun hno => hrefused ?_, fun hvacant => ⟨fun i hi => hrefused ?_, fun hmapped => ⟨fun hfull => hrefused ?_, fun hroom => ?_⟩⟩⟩
    · rw [armCheck, hfree, hslot]
      exact if_pos ((Bool.not_eq_true' _).mpr (Bool.eq_false_iff.mpr (mt (armable_iff _ _).mp hno)))
    · rw [armCheck, hfree, hslot]
      refine (if_neg (harmed hvacant)).trans ?_
      rw [unmappedAxis_least hi]
    · rw [armCheck, hfree, hslot]
      refine (if_neg (harmed hvacant)).trans ?_
      rw [unmappedAxis_none hmapped]
      exact if_pos ((blocksForArm_zero s slot).mpr hfull)
    · exact (armCheck_eq_ok_iff overwrite s hslot).mpr ⟨hfree, (armable_iff _ _).mpr hvacant, unmappedAxis_none hmapped,
        fun hzero => hroom ((blocksForArm_zero s slot).mp hzero)⟩

/-! ### ROLL (R105 to R107) -/

theorem roll_meets {s s1 : State} {e : RxEntry} {f : RollFields} (h : TakenFrame .roll s e s1) (he : e.payload = .roll f) :
    exec .roll s = .next (takeRoll f e.mark s1) := by
  refine congrArg Host.Outcome.next ?_
  rw [TakenFrame] at h
  simp only [rollEffect, h, he]

theorem takesPart_iff (s : State) (number : Nat) : takesPart s number = true ↔ partOfRoll s number := by
  rw [takesPart, partOfRoll, Bool.and_eq_true, bne_iff_ne]
  refine and_congr_right fun _ => ?_
  cases hslot : slotOf number with
  | none =>
    refine ⟨nofun, fun ⟨slot, hnumber, _⟩ => ?_⟩
    rw [slotOf_eq_some.mpr hnumber] at hslot
    cases hslot
  | some slot =>
    have hnumber := slotOf_eq_some.mp hslot
    rw [Bool.and_eq_true, bne_iff_ne]
    refine ⟨fun h => ⟨slot, hnumber, h⟩, fun ⟨slot', hnumber', h⟩ => ?_⟩
    rw [slotOf_eq_some.mpr hnumber', Option.some.injEq] at hslot
    exact hslot ▸ h

theorem rollBusy_iff (m : Mode) : rollBusy m = true ↔
    m = .rolling ∨ m = .playing ∨ m = .held ∨ m = .halted ∨ m = .recording ∨ m = .recovering := by
  cases m <;> decide

theorem rollReady_iff (s : State) (m : RollMode) (f : RollFields) : rollReady s m f = true ↔ readyForRoll s m f := by
  rw [rollReady, readyForRoll]
  cases s.tc.ctx with
  | none => exact ⟨nofun, fun ⟨_, hc, _⟩ => nomatch hc⟩
  | some c =>
    simp only [Bool.and_eq_true, beq_iff_eq, Option.some.injEq, exists_eq_left', slotOf_eq_some, and_assoc]
    cases m <;> simp only [Bool.and_eq_true, Bool.not_eq_true', beq_iff_eq, reduceCtorEq, forall_const, IsEmpty.forall_iff,
      true_and, and_assoc]

theorem presence_iff (s : State) : presence s = true ↔ ∀ n, isParticipant s n = true → (peer s n).liveness = .live := by
  rw [presence, List.all_eq_true]
  refine ⟨fun h n hn => ?_, fun h n _ => ?_⟩
  · have hall := h n (List.mem_finRange n)
    rw [hn] at hall
    exact beq_iff_eq.mp hall
  · cases hn : isParticipant s n with
    | false => rfl
    | true => exact beq_iff_eq.mpr (h n hn)

/-- The four checks of a ROLL, in their order. -/
theorem rollRefusal_checks (s : State) (m : RollMode) (f : RollFields) :
    let stamped := ∃ c, s.tc.ctx = some c ∧ c.stamp = f.stamp
    let signed := m = .record ∨ ∃ c, s.tc.ctx = some c ∧ c.signature = f.signature
    let present := ∀ n, isParticipant s n = true → (peer s n).liveness = .live
    (¬ readyForRoll s m f → rollRefusal s m f = some 0) ∧
    (readyForRoll s m f → ¬ stamped → rollRefusal s m f = some 1) ∧
    (readyForRoll s m f → stamped → ¬ signed → rollRefusal s m f = some 2) ∧
    (readyForRoll s m f → stamped → signed → ¬ present → rollRefusal s m f = some 3) ∧
    (readyForRoll s m f → stamped → signed → present → rollRefusal s m f = none) := by
  intro stamped signed present
  have hready : readyForRoll s m f → ¬ (!rollReady s m f) = true := fun h => by rw [(rollReady_iff s m f).mpr h]; decide
  have hstamped : stamped → ¬ s.tc.ctx.map PlayContext.stamp ≠ some f.stamp := fun h => not_not_intro (Option.map_eq_some_iff.mpr h)
  have hsigned : signed → ¬ (m ≠ .record ∧ s.tc.ctx.map PlayContext.signature ≠ some f.signature) := fun h ⟨hm, hs⟩ =>
    h.elim hm fun h => hs (Option.map_eq_some_iff.mpr h)
  refine ⟨fun h => if_pos ?_, fun h hs => (if_neg (hready h)).trans (if_pos fun heq => hs (Option.map_eq_some_iff.mp heq)),
    fun h hs hg => (if_neg (hready h)).trans ((if_neg (hstamped hs)).trans (if_pos ⟨fun hm => hg (.inl hm),
      fun heq => hg (.inr (Option.map_eq_some_iff.mp heq))⟩)),
    fun h hs hg hp => (if_neg (hready h)).trans ((if_neg (hstamped hs)).trans ((if_neg (hsigned hg)).trans (if_pos ?_))),
    fun h hs hg hp => (if_neg (hready h)).trans ((if_neg (hstamped hs)).trans ((if_neg (hsigned hg)).trans (if_neg ?_)))⟩
  · rw [Bool.eq_false_iff.mpr (mt (rollReady_iff s m f).mp h)]
    rfl
  · rw [Bool.eq_false_iff.mpr (mt (presence_iff s).mp hp)]
    rfl
  · rw [(presence_iff s).mpr hp]
    decide

/-! ### An accepted ROLL (R107, R139) -/

theorem setMode_rolling_ceilings (s : State) (n : Station) : (peer (setMode .rolling s) n).ceiling = 0 := by
  have hhand : ∀ (p : Prop) [Decidable p] (u : State), (if p then u else handState u).pt.entries = u.pt.entries := fun p _ u => by
    split
    · rfl
    · exact handState_entries u
  have hclear : ∀ u : State, (modeEffects s.tc.mode .rolling u).pt.entries =
      u.pt.entries.map fun e => { e with ceiling := 0 } := fun u => by
    simp only [modeEffects, if_true, clearCeilings, setPt_pt, if_neg (show ¬ inPlay .rolling = true by decide), setFd_pt,
      setPu_pt]
    split
    · rw [abandonBulk_pt]
    · rfl
  rw [peer, setMode, hhand, hhand, hclear, Table.get_map]

/-- A PACE or STATE frame is queued where its kind has room. -/
theorem queueFrame_room {p : Payload} {q : List TxFrame} (hc : coalesces p.kind = true) (hroom : roomFor q ≤ 8) :
    newFrame p ∈ (queueFrame p q).1 := by
  by_cases hrep : ∃ f ∈ q, replaceable p.kind f = true
  · obtain ⟨before, f, after, -, -, -, heq⟩ := replaceFrame_split hrep
    rw [queueFrame_replaces hrep, heq]
    exact List.mem_append_right _ (.head _)
  have hnone : ∀ f ∈ q, replaceable p.kind f = false := fun f hf => Bool.eq_false_iff.mpr fun h => hrep ⟨f, hf, h⟩
  have hlen : q.length < 8 := by
    have hany := any_replaceable_eq_false hnone
    rw [roomFor] at hroom
    simp only [coalesces, Bool.or_eq_true, beq_iff_eq] at hc
    rcases hc with hc | hc <;> rw [hc] at hany <;> rw [hany, if_neg (show ¬ false = true by decide)] at hroom <;> omega
  obtain ⟨before, after, -, -, -, heq⟩ := insertFrame_split p q
  rw [queueFrame_joins hnone hlen, heq]
  exact List.mem_append_right _ (.head _)

/-- PACE and STATE frames take up no more room than there is for them. -/
theorem Hands.roomFor {l l' : LineController} (h : Hands 0 l l') : roomFor l'.txq ≤ roomFor l.txq := by
  obtain ⟨ps, rfl, hn⟩ := h
  induction ps generalizing l with
  | nil => exact Nat.le_refl _
  | cons p ps ih =>
    have hc : coalesces p.kind = true := by
      cases hc : coalesces p.kind with
      | true => rfl
      | false => rw [List.filter_cons_of_pos (by simp [hc])] at hn; cases hn
    rw [List.filter_cons_of_neg (by simp [hc])] at hn
    refine (ih hn).trans ?_
    rw [handed]
    split
    · exact Nat.le_refl _
    · have hle := roomFor_queueFrame (q := l.txq) (.inl hc)
      rw [hc, if_pos rfl] at hle
      exact hle

/-- A frame of class 1 or above displaces none but a PACE or a STATE. -/
theorem queueFrame_keeps {p : Payload} {q : List TxFrame} {g : TxFrame} (hp : frameClass p ≠ 0) (hg : g ∈ q)
    (hplain : plainFrame g) : g ∈ (queueFrame p q).1 := by
  by_cases hlen : q.length < 8
  · exact queueFrame_keepsPlain hg hplain (.inr hlen)
  cases hc : coalesces p.kind with
  | true => exact queueFrame_keepsPlain hg hplain (.inl hc)
  | false =>
    have hnone : ∀ f ∈ q, replaceable p.kind f = false := fun f _ => by rw [replaceable, hc]; rfl
    rw [queueFrame_drops hnone (Nat.le_of_not_lt hlen) hp]
    exact hg

theorem handPace_localCeiling (u : State) : localCeiling (handPace u) = localCeiling u := by
  obtain ⟨hchanges, hpu, -⟩ := handPace_hands u
  have hsu : (handPace u).su = u.su := hchanges.1 .su (by decide)
  have htc : (handPace u).tc = u.tc := hchanges.1 .tc (by decide)
  have hgu : (handPace u).gu = u.gu := hchanges.1 .gu (by decide)
  simp only [localCeiling, wrapPending, hsu, htc, hgu, hpu] <;> rfl

/-- What an accepted ROLL leaves, handed over by the line controller of s. -/
theorem acceptRoll_accepts {s : State} (m : RollMode) (f : RollFields) (mark : StartMark) (hmode : s.tc.mode ≠ .idle) :
    let t := acceptRoll m f mark s
    ChangesOnly [.lc, .pt, .fd, .tc, .pu] s t ∧
      t.tc = { s.tc with
        mode := .rolling,
        roll := { number := f.number, mode := some m, accepted := 0,
                  window := some (mark.instant + 1000 * s.cl.cfg.rollWindow), result := .none, startSeq := f.startSeq } } ∧
      (∀ n, (peer t n).ceiling = 0) ∧
      t.pu = { s.pu with
        paceTimer := some s.cl.cfg.pacePeriod, announced := localCeiling t, alignTimer := none, r := 0 } ∧
      ∃ l, Hands 0 (handed s.lc (.rollAccept f.number)) l ∧
        t.lc = handed l (.pace { time := s.pu.t, rate := 0, ceiling := BitVec.ofNat 16 (localCeiling t) }) := by
  intro t
  have hfirst := handOver_changesOnly (.rollAccept f.number) s
  have hlc : (handOver (.rollAccept f.number) s).lc = handed s.lc (.rollAccept f.number) := handOver_handed _ _
  have hpu : (handOver (.rollAccept f.number) s).pu = s.pu := hfirst.1 .pu (by decide)
  have htc : (handOver (.rollAccept f.number) s).tc = s.tc := hfirst.1 .tc (by decide)
  have hcl : (handOver (.rollAccept f.number) s).cl = s.cl := hfirst.1 .cl (by decide)
  have ht : t = handPace (setMode .rolling ((handOver (.rollAccept f.number) s).setTc {
      (handOver (.rollAccept f.number) s).tc with
      roll := { number := f.number, mode := some m, accepted := 0,
                window := some (mark.instant + 1000 * (handOver (.rollAccept f.number) s).cl.cfg.rollWindow), result := .none,
                startSeq := f.startSeq } })) := rfl
  rw [htc, hcl] at ht
  generalize handOver (.rollAccept f.number) s = a at hfirst hlc hpu htc hcl ht
  generalize hv : a.setTc { s.tc with
    roll := { number := f.number, mode := some m, accepted := 0,
              window := some (mark.instant + 1000 * s.cl.cfg.rollWindow), result := .none, startSeq := f.startSeq } } = v at ht
  have hva : ChangesOnly [.tc] a v := hv ▸ changesOnly_tc (.head _)
  have hvtc : v.tc = { s.tc with
    roll := { number := f.number, mode := some m, accepted := 0,
              window := some (mark.instant + 1000 * s.cl.cfg.rollWindow), result := .none, startSeq := f.startSeq } } :=
    hv ▸ rfl
  have hmode' : v.tc.mode ≠ .idle := by rw [hvtc]; exact hmode
  have hset := setMode_changesOnly .rolling hmode'
  obtain ⟨hpace, hpacepu, hpacelc⟩ := handPace_hands (setMode .rolling v)
  have hceil : localCeiling t = localCeiling (setMode .rolling v) := by rw [ht, handPace_localCeiling]
  have hsetpu : (setMode .rolling v).pu = { s.pu with
      paceTimer := s.pu.paceTimer, alignTimer := none, r := 0 } := by
    rw [setMode_pu, show v.pu = s.pu from (hva.1 .pu (by decide)).trans hpu]
    rfl
  refine ⟨?_, ?_, fun n => ?_, ?_, (setMode .rolling v).lc, ?_, ?_⟩
  · rw [ht]
    exact ((hfirst.among (.head _)).trans (hva.among (.tail _ (.tail _ (.tail _ (.head _)))))).trans
      (hset.trans (hpace.mono (by decide)))
  · rw [ht, show (handPace (setMode .rolling v)).tc = (setMode .rolling v).tc from hpace.1 .tc (by decide), setMode_tc, hvtc]
  · rw [ht, peer, show (handPace (setMode .rolling v)).pt = (setMode .rolling v).pt from hpace.1 .pt (by decide)]
    exact setMode_rolling_ceilings v n
  · rw [hceil, ht, hpacepu, hsetpu, show (setMode .rolling v).cl = v.cl from hset.1 .cl (by decide),
      show v.cl = a.cl from hva.1 .cl (by decide), hcl]
  · rw [← hlc, ← show v.lc = a.lc from hva.1 .lc (by decide)]
    exact hands_setMode .rolling v
  · rw [hceil, ht, hpacelc, paceFrame, hsetpu]
    rfl

/-- What of an accepted ROLL's frames is queued, in a link state other than FAULT. -/
theorem acceptRoll_queue {l0 l : LineController} {number : BitVec 8} {pace : PaceFields} (hlink : l0.link ≠ .fault)
    (hl : Hands 0 (handed l0 (.rollAccept number)) l) :
    (l0.txq.length < 8 → newFrame (.rollAccept number) ∈ (handed l (.pace pace)).txq) ∧
      (l0.txq.length < 6 → newFrame (.pace pace) ∈ (handed l (.pace pace)).txq) ∧
      ∀ g ∈ l0.txq, g.payload.kind ≠ .state → g.payload.kind ≠ .pace → g ∈ (handed l (.pace pace)).txq := by
  have hfirst : (handed l0 (.rollAccept number)).txq = (queueFrame (.rollAccept number) l0.txq).1 := handed_queue _ hlink
  have hall : Hands 0 (handed l0 (.rollAccept number)) (handed l (.pace pace)) :=
    hl.andThen ⟨[.pace pace], rfl, Nat.le_refl 0⟩
  have hlinkl : l.link ≠ .fault := by
    rw [hl.link.1, handed, if_neg hlink]
    exact hlink
  have hkeeps : ∀ {g}, g ∈ (queueFrame (.rollAccept number) l0.txq).1 → plainFrame g → g ∈ (handed l (.pace pace)).txq :=
    fun hg hplain => hall.keepsPlain (.inl rfl) (hfirst ▸ hg) hplain
  refine ⟨fun hlen => hkeeps ?_ rfl, fun hlen => ?_, fun g hg hs hp => hkeeps (queueFrame_keeps ?_ hg ((plainFrame_iff g).mpr ⟨hs, hp⟩))
    ((plainFrame_iff g).mpr ⟨hs, hp⟩)⟩
  · obtain ⟨before, after, -, -, -, heq⟩ := insertFrame_split (.rollAccept number) l0.txq
    rw [queueFrame_joins (fun f _ => rfl) hlen, heq]
    exact List.mem_append_right _ (.head _)
  · rw [handed_queue _ hlinkl]
    refine queueFrame_room rfl (hl.roomFor.trans ?_)
    have hgrow := roomFor_queueFrame (p := .rollAccept number) (q := l0.txq) (.inr (by omega))
    have hle := roomFor_le l0.txq
    rw [show coalesces (Payload.kind (.rollAccept number)) = false from rfl, if_neg (by decide)] at hgrow
    rw [hfirst]
    omega
  · exact fun h => nomatch (show (1 : Nat) = 0 from h)

theorem takeRoll_plays {f : RollFields} {mark : StartMark} {m : RollMode} {s : State} (hm : rollModeOf f.mode = some m)
    (hpart : partOfRoll s f.take.toNat) (hbusy : ¬ rollBusy s.tc.mode = true) : takeRoll f mark s =
      match rollRefusal s m f with
      | some reason => refuseRoll f.number reason s
      | none => acceptRoll m f mark s := by
  simp only [takeRoll, hm]
  exact (if_neg (by rw [(takesPart_iff s _).mpr hpart]; decide)).trans (if_neg hbusy)

theorem refuseRoll_refuses (number reason : BitVec 8) (s : State) :
    let t := refuseRoll number reason s
    ChangesOnly [.lc, .tc] s t ∧ t.lc = (handOver (.rollRefuse number reason) s).lc ∧
      t.tc = { s.tc with roll := { s.tc.roll with
        number := number, result := .cancelled (.refused s.cl.station reason) } } := by
  intro t
  have hchanges : ChangesOnly [.lc] _ t := handOver_changesOnly (.rollRefuse number reason) (s.setTc { s.tc with
    roll := { s.tc.roll with number := number, result := .cancelled (.refused s.cl.station reason) } })
  refine ⟨(changesOnly_tc (.tail _ (.head _))).trans (hchanges.among (.head _)), ?_, hchanges.1 .tc (by decide)⟩
  rw [handOver_handed _ s]
  exact handOver_handed (.rollRefuse number reason) (s.setTc _)

/-- Settles O39: the checks in order, and the frames and the record of an accepted ROLL. -/
theorem rollIsAnswered : Obligations.RollIsAnswered := by
  intro s s1 e f ht he
  have hmeets := roll_meets ht he
  have hs1 := takeOffer_changesOnly ht
  obtain ⟨q, rfl⟩ := takeOffer_setLc ht
  refine ⟨fun hm => ?_, fun m hm => ?_⟩
  · rw [hmeets, takeRoll, hm]
  intro part busy ready stamped signed present refused
  obtain ⟨hnotReady, hnotStamped, hnotSigned, hnotPresent, hok⟩ := rollRefusal_checks (s.setLc { s.lc with rxq := q }) m f
  have hplays : part → ¬ busy → _ := fun hp hb => takeRoll_plays (s := s.setLc { s.lc with rxq := q }) (mark := e.mark) hm hp
    (mt (rollBusy_iff s.tc.mode).mp hb)
  have hrefused : part → ¬ busy → ∀ {reason}, rollRefusal (s.setLc { s.lc with rxq := q }) m f = some reason → refused reason := by
    intro hp hb reason hr
    have hrun := hplays hp hb
    rw [hr] at hrun
    obtain ⟨hchanges, hlc, htc⟩ := refuseRoll_refuses f.number reason (s.setLc { s.lc with rxq := q })
    exact ⟨_, hmeets.trans (congrArg _ hrun), (hs1.among (.head _)).trans hchanges, hlc, htc⟩
  refine ⟨fun hp => ?_, fun hp hb => ?_, fun hp hb hr => hrefused hp hb (hnotReady hr),
    fun ⟨hp, hb, hr⟩ hs => hrefused hp hb (hnotStamped hr hs), fun ⟨hp, hb, hr⟩ hs hg => hrefused hp hb (hnotSigned hr hs hg),
    fun ⟨hp, hb, hr⟩ hs hg hn => hrefused hp hb (hnotPresent hr hs hg hn), fun ⟨hp, hb, hr⟩ hs hg hn => ?_⟩
  · rw [hmeets, takeRoll, hm]
    refine congrArg _ (if_pos ?_)
    exact (Bool.not_eq_true' _).mpr (Bool.eq_false_iff.mpr (mt (takesPart_iff _ _).mp hp))
  · rw [hmeets, takeRoll, hm]
    refine congrArg _ ((if_neg ?_).trans (if_pos ((rollBusy_iff s.tc.mode).mpr hb)))
    rw [(takesPart_iff (s.setLc { s.lc with rxq := q }) _).mpr hp]
    decide
  · have hrun := hplays hp hb
    rw [hok hr hs hg hn] at hrun
    have hmode : s.tc.mode ≠ .idle := by
      obtain ⟨c, -, hplay, hresume, hrecord, -⟩ := hr
      cases m with
      | play => exact fun hidle => nomatch hidle.symm.trans (hplay rfl).1
      | resumeFrom => exact fun hidle => nomatch hidle.symm.trans (hresume rfl).1
      | record => exact fun hidle => nomatch hidle.symm.trans (hrecord rfl)
    obtain ⟨hchanges, htc, hceilings, hpu, l, hl, hlc⟩ := acceptRoll_accepts (s := s.setLc { s.lc with rxq := q }) m f e.mark hmode
    generalize acceptRoll m f e.mark (s.setLc { s.lc with rxq := q }) = t at *
    refine ⟨t, hmeets.trans (congrArg _ hrun), (hs1.among (.head _)).trans hchanges, htc, hceilings, by rw [hpu]; rfl,
      by rw [hpu], by rw [hpu]; rfl, by rw [hpu], fun hfault => ?_, fun hlink => ?_⟩
    · have hfirst : handed (s.setLc { s.lc with rxq := q }).lc (.rollAccept f.number) = (s.setLc { s.lc with rxq := q }).lc :=
        if_pos hfault
      have hl' := hl.fault (by rw [hfirst]; exact hfault)
      rw [hlc, hl', hfirst]
      exact if_pos hfault
    · rw [hlc]
      exact acceptRoll_queue hlink hl

/-! ### The end of the roll window (R109) -/

theorem reform_changes (b : Bool) (u : State) : ChangesOnly [.lc, .pu] u (reform b u) ∧
    ∃ a n, (reform b u).pu = { u.pu with announced := a, paceTimer := n } := by
  rw [reform]
  split
  · exact announce_changes u
  · exact ⟨.refl _ _, _, _, rfl⟩

/-- Every configured axis that is not in FAULT enters FOLLOW. -/
theorem followAll_follows (s : State) : AxesOnly s (followAll s) ∧
    ∀ i, configured s i = true → (axisCh s i).state ≠ .fault → (axisCh (followAll s) i).state = .follow := by
  obtain ⟨hall, -, hown⟩ := foldl_perAxis (ax := id) (R := AxesOnly) (view := axisView)
    (f := fun u i => setChannel i { axisCh u i with state := .follow, segment := none, idleTimer := none } u)
    .refl (fun h h' => h.trans h') (fun u i => setChannel_axesOnly i _ u) (fun u i j hj => setChannel_view hj _ u)
    (allAxes.filter fun i => configured s i && (axisCh s i).state != .fault)
    (by rw [List.map_id]; exact allAxes_nodup.filter _) s
  refine ⟨hall, fun i hc hf => ?_⟩
  obtain ⟨u, -, -, hfin⟩ := hown i (List.mem_filter.mpr ⟨mem_allAxes i, Bool.and_eq_true_iff.mpr ⟨hc, bne_iff_ne.mpr hf⟩⟩)
  have hch : axisCh (followAll s) i = _ := congrArg Prod.fst hfin
  rw [hch]
  exact (congrArg AxisChannel.state (axisCh_setChannel_self _ _ _)).trans (keptChannel_state _ _)

/-- What a roll in mode PLAY or RESUME-FROM starts, the feeder being `fd`. -/
theorem playback_starts {c : PlayContext} {fd : Feeder} {s v : State} (hmode : s.tc.mode = .rolling)
    (hv : v = (s.setPu { s.pu with t := c.startTime, r := 0, alignTimer := some s.cl.cfg.alignWindow }).setFd fd) :
    let t := setMode .playing (modContext (fun c => { c with recovery := false, restartSeq := none }) (followAll v))
    (t.gu = s.gu ∧ t.su = s.su ∧ t.cl = s.cl ∧ t.pending = s.pending) ∧
      t.tc = { s.tc with
        mode := .playing, ctx := s.tc.ctx.map fun c => { c with recovery := false, restartSeq := none } } ∧
      t.pu = { s.pu with t := c.startTime, r := 0, alignTimer := some s.cl.cfg.alignWindow } ∧ t.fd = fd ∧
      ∀ i, configured s i = true → (axisCh s i).state ≠ .fault → (axisCh t i).state = .follow := by
  generalize hw : modContext (fun c => { c with recovery := false, restartSeq := none }) (followAll v) = w
  intro t
  obtain ⟨hf, hfollow⟩ := followAll_follows v
  have hwax : w.ax = (followAll v).ax := hw ▸ rfl
  have hwtc : w.tc = { v.tc with ctx := v.tc.ctx.map fun c => { c with recovery := false, restartSeq := none } } := by
    rw [← hw, modContext, setTc_tc, hf.tc]
  have hsame : ChangesOnly [.ax, .lmu, .tc] v w :=
    hw ▸ (hf.1.mono (by decide)).trans (changesOnly_tc (.tail _ (.tail _ (.head _))))
  have hset := setMode_changesOnly .playing (s := w) (by rw [hwtc, hv]; exact fun h => nomatch hmode.symm.trans h)
  have hall : ChangesOnly [.lc, .pt, .ax, .lmu, .fd, .tc, .pu] v t :=
    (hsame.mono (by decide)).trans (hset.mono (by decide))
  have hvpu : w.pu = v.pu := hsame.1 .pu (by decide)
  subst hv
  refine ⟨⟨hall.1 .gu (by decide), hall.1 .su (by decide), hall.1 .cl (by decide), hall.2⟩,
    (setMode_tc .playing w).trans (by rw [hwtc]; rfl), (setMode_pu .playing w).trans (by rw [hvpu]; rfl),
    (setMode_fd .playing w).trans ((if_pos (by decide)).trans (hsame.1 .fd (by decide))), fun i hc hfault => ?_⟩
  rw [axisCh, show t.ax = w.ax from hset.1 .ax (by decide), hwax]
  exact hfollow i hc hfault

/-- The first keyframe of a recording needs no further block. -/
theorem sampleKeyframe_first {slot : Slot} {pose : Table Int 3} {ts : TakeStore} (h : (ts.dir.get slot).count = 0) :
    sampleKeyframe slot pose ts = some { setEntry slot { ts.dir.get slot with count := 1 } ts with
      waiting := ts.waiting ++ [{ index := 0, pose := pose }] } := by
  simp only [sampleKeyframe, h]
  rfl

/-- What a roll in mode RECORD starts. -/
theorem recording_starts {c : PlayContext} {s : State} (hmode : s.tc.mode = .rolling) :
    let t := startRecording c s
    ((t.gu = s.gu ∧ t.su = s.su ∧ t.cl = s.cl ∧ t.pending = s.pending) ∧ t.tc = { s.tc with mode := .recording } ∧
      (∃ p a, t.pu = { s.pu with t := 0, r := 1024, paceTimer := p, alignTimer := a }) ∧ t.ax = s.ax) ∧
      ((entryOf s c.take).count = 0 → (entryOf t c.take).state = .recording ∧ (entryOf t c.take).count = 1 ∧
        t.ts.waiting = s.ts.waiting ++ [{ index := 0, pose := encoderPose s }]) := by
  intro t
  generalize hts0 : setEntry c.take { entryOf s c.take with state := .recording } s.ts = ts0
  generalize hts : (sampleKeyframe c.take (encoderPose s) ts0).getD ts0 = ts
  generalize hv : (s.setPu { s.pu with t := 0, r := 1024 }).setTs ts = v
  have ht : t = setMode .recording v := by rw [← hv, ← hts, ← hts0]; rfl
  have hvs : ChangesOnly [.ts, .pu] s v := hv ▸ (changesOnly_pu (.tail _ (.head _))).trans (changesOnly_ts (.head _))
  have hvpu : v.pu = { s.pu with t := 0, r := 1024 } := hv ▸ rfl
  have hvts : v.ts = ts := hv ▸ rfl
  have hvtc : v.tc = s.tc := hvs.1 .tc (by decide)
  have hset := setMode_changesOnly .recording (s := v) (by rw [hvtc, hmode]; decide)
  have hall : ChangesOnly [.lc, .pt, .ts, .fd, .tc, .pu] s t := ht ▸ (hvs.mono (by decide)).trans (hset.mono (by decide))
  have hpu : t.pu = { v.pu with
      paceTimer := if pacesIn .recording then v.pu.paceTimer else none,
      alignTimer := if inPlay .recording then v.pu.alignTimer else none,
      r := if Mode.recording = .playing ∨ Mode.recording = .recording then v.pu.r else 0 } := ht ▸ setMode_pu .recording v
  refine ⟨⟨⟨hall.1 .gu (by decide), hall.1 .su (by decide), hall.1 .cl (by decide), hall.2⟩, ?_,
    ⟨if pacesIn .recording then v.pu.paceTimer else none, if inPlay .recording then v.pu.alignTimer else none, ?_⟩,
    hall.1 .ax (by decide)⟩, fun hcount => ?_⟩
  · rw [ht, setMode_tc, hvtc]
  · rw [hpu, hvpu]
    rfl
  · have htts : t.ts = ts := by rw [ht, show (setMode .recording v).ts = v.ts from hset.1 .ts (by decide), hvts]
    have hentry : ts0.dir.get c.take = { entryOf s c.take with state := .recording } := by
      rw [← hts0, setEntry_get_self]
    have hend : ts = { setEntry c.take { ts0.dir.get c.take with count := 1 } ts0 with
        waiting := ts0.waiting ++ [{ index := 0, pose := encoderPose s }] } := by
      rw [← hts, sampleKeyframe_first (by rw [hentry, hcount]), Option.getD_some]
    have hget : entryOf t c.take = { ts0.dir.get c.take with count := 1 } := by
      rw [entryOf, htts, hend]
      exact setEntry_get_self _ _ _
    exact ⟨by rw [hget, hentry], by rw [hget], by rw [htts, hend, ← hts0]; rfl⟩

/-- An entry is final when nothing is built beyond it. -/
theorem enqueueEntry_final {mode : PlayMode} {take : TakeEntry} {e : QueueEntry} {fd : Feeder}
    (h : (endDecision mode (take.count - 1) e.stop fd.stack fd.loopEnd).arrival = none) :
    enqueueEntry mode take e fd = { fd with
      queue := fd.queue ++ [{ e with zeroEnd := true, sectionEnd := .none, final := true }],
      stack := (endDecision mode (take.count - 1) e.stop fd.stack fd.loopEnd).stack,
      loopEnd := (endDecision mode (take.count - 1) e.stop fd.stack fd.loopEnd).loopEnd,
      finalBuilt := true, sourceRead := none, nextSeq := fd.nextSeq + 1 } := by
  rw [enqueueEntry]
  simp only [h]

/-- Behind any other entry the cursor goes to the next arrival keyframe. -/
theorem enqueueEntry_onward {mode : PlayMode} {take : TakeEntry} {e : QueueEntry} {fd : Feeder} {a : Nat}
    (h : (endDecision mode (take.count - 1) e.stop fd.stack fd.loopEnd).arrival = some a) :
    enqueueEntry mode take e fd = { fd with
      queue := fd.queue ++ [{ e with
        zeroEnd := decide (sectionDecision mode take.cues e.stop fd.slot ≠ .none),
        sectionEnd := sectionDecision mode take.cues e.stop fd.slot, final := false }],
      stack := (endDecision mode (take.count - 1) e.stop fd.stack fd.loopEnd).stack,
      loopEnd := (endDecision mode (take.count - 1) e.stop fd.stack fd.loopEnd).loopEnd,
      sourceRead := none, nextSeq := fd.nextSeq + 1,
      slot := if sectionDecision mode take.cues e.stop fd.slot = .released then .applied else fd.slot,
      cursor := { arrival := a, source := e.stop, t0 := endTime e,
                  atRest := decide (sectionDecision mode take.cues e.stop fd.slot ≠ .none),
                  pose := some (endPose e.spans) } } := by
  rw [enqueueEntry]
  simp only [h]

/-- The first entry of a feeder that has nothing queued: what joins the queue, and where the cursor then stands. -/
theorem enqueueEntry_first {mode : PlayMode} {take : TakeEntry} {e : QueueEntry} {fd : Feeder} (hq : fd.queue = [])
    (hfinal : fd.finalBuilt = false) :
    ∃ f, (enqueueEntry mode take e fd).queue = [f] ∧ (enqueueEntry mode take e fd).finalBuilt = f.final ∧
      f = { e with zeroEnd := f.zeroEnd, sectionEnd := f.sectionEnd, final := f.final } ∧
      (f.final = false → (enqueueEntry mode take e fd).cursor.source = e.stop ∧
        (enqueueEntry mode take e fd).cursor.t0 = endTime e ∧
        (enqueueEntry mode take e fd).cursor.atRest = f.zeroEnd) := by
  cases h : (endDecision mode (take.count - 1) e.stop fd.stack fd.loopEnd).arrival with
  | none =>
    rw [enqueueEntry_final h, hq]
    exact ⟨_, rfl, rfl, rfl, fun hf => nomatch hf⟩
  | some a =>
    rw [enqueueEntry_onward h, hq]
    exact ⟨_, rfl, hfinal, rfl, fun _ => ⟨rfl, rfl, rfl⟩⟩

/-- An entry that joins leaves the rest of the feeder. -/
theorem enqueueEntry_keeps (mode : PlayMode) (take : TakeEntry) (e : QueueEntry) (fd : Feeder) :
    (enqueueEntry mode take e fd).retired = fd.retired ∧ (enqueueEntry mode take e fd).suspended = fd.suspended ∧
      (enqueueEntry mode take e fd).startSeq = fd.startSeq ∧ (enqueueEntry mode take e fd).nextSeq = fd.nextSeq + 1 ∧
      (enqueueEntry mode take e fd).sectionWait = fd.sectionWait := by
  cases h : (endDecision mode (take.count - 1) e.stop fd.stack fd.loopEnd).arrival with
  | none => rw [enqueueEntry_final h]; exact ⟨rfl, rfl, rfl, rfl, rfl⟩
  | some a => rw [enqueueEntry_onward h]; exact ⟨rfl, rfl, rfl, rfl, rfl⟩

theorem rebuildFeeder_none {c : PlayContext} {q : BitVec 16} {s : State} (h : s.fd.restart = none) :
    rebuildFeeder c q s = beginFeeding c q s := by
  rw [rebuildFeeder, h]

theorem rebuildFeeder_some {c : PlayContext} {q : BitVec 16} {s : State} {e : QueueEntry} (h : s.fd.restart = some e) :
    rebuildFeeder c q s = s.setFd (enqueueEntry c.mode (entryOf s c.take) { e with zeroStart := true, seq := q } { s.fd with
      queue := [], retired := none, stack := e.stack, loopEnd := e.loopEnd, nextSeq := q,
      startSeq := q, suspended := false, finalBuilt := false, sourceRead := none }) := by
  rw [rebuildFeeder, h]

/-- A playback starts by its feeder: from the start keyframe, or from the restart entry. -/
theorem startPlayback_feeds (resume : Bool) (c : PlayContext) (u : State) :
    ∃ fd, startPlayback resume c u =
        setMode .playing (modContext (fun c => { c with recovery := false, restartSeq := none }) (followAll
          ((u.setPu { u.pu with t := c.startTime, r := 0, alignTimer := some u.cl.cfg.alignWindow }).setFd fd))) ∧
      (resume = false → fd = { Feeder.reset with
        cueLow := u.fd.cueLow, nextSeq := u.tc.roll.startSeq, startSeq := u.tc.roll.startSeq,
        cursor := { arrival := c.startKeyframe, source := c.startKeyframe, t0 := c.startTime, atRest := true,
                    pose := none } }) ∧
      ∀ e, resume = true → u.fd.restart = some e →
        fd = enqueueEntry c.mode (entryOf u c.take) { e with zeroStart := true, seq := u.tc.roll.startSeq }
          { u.fd with
            queue := [], retired := none, stack := e.stack, loopEnd := e.loopEnd, nextSeq := u.tc.roll.startSeq,
            startSeq := u.tc.roll.startSeq, suspended := false, finalBuilt := false, sourceRead := none } := by
  cases resume with
  | false => exact ⟨_, rfl, fun _ => rfl, fun _ h => nomatch h⟩
  | true =>
    cases hr : u.fd.restart with
    | none =>
      refine ⟨(beginFeeding c u.tc.roll.startSeq u).fd, ?_, fun h => (nomatch h), fun _ _ h => nomatch h⟩
      rw [startPlayback, if_pos rfl, rebuildFeeder_none]
      exacts [rfl, hr]
    | some e =>
      refine ⟨(rebuildFeeder c u.tc.roll.startSeq u).fd, ?_, fun h => (nomatch h), fun e' _ h => ?_⟩
      · rw [startPlayback, if_pos rfl, rebuildFeeder_some hr, rebuildFeeder_some (e := e)]
        exacts [rfl, hr]
      · rw [rebuildFeeder_some hr, Option.some.inj h]
        rfl

/-- What every roll that starts leaves, whatever it starts. -/
def RollStarted (x y : PlayContext) (s t : State) : Prop :=
  (t.gu = s.gu ∧ t.su = s.su ∧ t.cl = s.cl ∧ t.pending = s.pending) ∧
    (t.tc.ctx = some y ∧ y.roll = some s.tc.roll.number ∧ y.take = x.take ∧
      t.tc.roll = { s.tc.roll with window := none, result := .started } ∧
      t.tc.grace = .running (2 * s.cl.cfg.statePeriod)) ∧
    t.pu.strain = 1024 ∧ t.pu.offsetSum = 0 ∧ t.pu.offsetCount = 0 ∧ t.pu.slices = []

/-- Forming the local ceiling again touches the line and what the pace unit has announced. -/
theorem RollStarted.reform {x y : PlayContext} {s t : State} (b : Bool) (h : RollStarted x y s t) :
    RollStarted x y s (reform b t) := by
  obtain ⟨hr, a, n, hpu⟩ := reform_changes b t
  obtain ⟨⟨hgu, hsu, hcl, hpending⟩, htc, hpace⟩ := h
  refine ⟨⟨(hr.1 .gu (by decide)).trans hgu, (hr.1 .su (by decide)).trans hsu, (hr.1 .cl (by decide)).trans hcl,
    hr.2.trans hpending⟩, ?_, ?_⟩
  · rw [show (Machine.reform b t).tc = t.tc from hr.1 .tc (by decide)]
    exact htc
  · rw [hpu]
    exact hpace

/-- A playback starts, whichever feeder it has. -/
theorem startRoll_plays {s : State} {x : PlayContext} (hmode : s.tc.mode = .rolling) (resume : Bool) :
    let y := { x with roll := some s.tc.roll.number, recovery := false, restartSeq := none }
    let t := startPlayback resume x (beginRoll x s)
    RollStarted x y s t ∧ t.tc.mode = .playing ∧ t.pu.t = x.startTime ∧ t.pu.r = 0 ∧
      t.pu.alignTimer = some s.cl.cfg.alignWindow ∧
      (∀ i, configured s i = true → (axisCh s i).state ≠ .fault → (axisCh t i).state = .follow) ∧
      (resume = false → t.fd = { Feeder.reset with
        cueLow := s.fd.cueLow, nextSeq := s.tc.roll.startSeq, startSeq := s.tc.roll.startSeq,
        cursor := { arrival := x.startKeyframe, source := x.startKeyframe, t0 := x.startTime, atRest := true,
                    pose := none } }) ∧
      ∀ e, resume = true → s.fd.restart = some e →
        t.fd = enqueueEntry x.mode (entryOf s x.take) { e with zeroStart := true, seq := s.tc.roll.startSeq }
          { s.fd with
            queue := [], retired := none, stack := e.stack, loopEnd := e.loopEnd, nextSeq := s.tc.roll.startSeq,
            startSeq := s.tc.roll.startSeq, suspended := false, finalBuilt := false, sourceRead := none } := by
  intro y t
  obtain ⟨fd, ht, hplay, hresume⟩ := startPlayback_feeds resume x (beginRoll x s)
  obtain ⟨hsame, htc, hpu, hfd, hfollow⟩ := playback_starts (c := x) (fd := fd) (s := beginRoll x s) hmode rfl
  rw [← ht] at hsame htc hpu hfd hfollow
  refine ⟨⟨hsame, ⟨?_, rfl, rfl, ?_, ?_⟩, ?_⟩, congrArg TakeController.mode htc, congrArg PaceUnit.t hpu,
    congrArg PaceUnit.r hpu, congrArg PaceUnit.alignTimer hpu, hfollow, fun h => hfd.trans (hplay h),
    fun e h he => hfd.trans (hresume e h he)⟩
  · exact congrArg TakeController.ctx htc
  · exact congrArg TakeController.roll htc
  · exact congrArg TakeController.grace htc
  · rw [hpu]
    exact ⟨rfl, rfl, rfl, rfl⟩

theorem startRoll_records {s : State} {x : PlayContext} (hmode : s.tc.mode = .rolling) :
    let t := startRecording x (beginRoll x s)
    RollStarted x { x with roll := some s.tc.roll.number } s t ∧ t.tc.mode = .recording ∧ t.pu.t = 0 ∧ t.pu.r = 1024 ∧
      t.ax = s.ax ∧
      ((entryOf s x.take).count = 0 → (entryOf t x.take).state = .recording ∧ (entryOf t x.take).count = 1 ∧
        t.ts.waiting = s.ts.waiting ++ [{ index := 0, pose := encoderPose s }]) := by
  intro t
  obtain ⟨⟨hsame, htc, ⟨p, a, hpu⟩, hax⟩, hsample⟩ := recording_starts (c := x) (s := beginRoll x s) hmode
  refine ⟨⟨hsame, ⟨?_, rfl, rfl, ?_, ?_⟩, ?_⟩, congrArg TakeController.mode htc, congrArg PaceUnit.t hpu,
    congrArg PaceUnit.r hpu, hax, hsample⟩
  · exact congrArg TakeController.ctx htc
  · exact congrArg TakeController.roll htc
  · exact congrArg TakeController.grace htc
  · rw [hpu]
    exact ⟨rfl, rfl, rfl, rfl⟩

/-- Settles O41: the lowest participant that has not accepted, and what each of the three rolls starts. -/
theorem windowExpiryStartsTheRoll : Obligations.WindowExpiryStartsTheRoll := by
  intro s x hmode hwindow hctx
  have hruns : exec .rollWindowExpiry s = .next (match firstMissing x s.tc.roll.accepted with
      | some n => cancelRoll (.notAccepted n) s
      | none => startRoll x s) := by
    refine congrArg Host.Outcome.next ?_
    rw [rollWindowExpiryEffect, hctx]
    exact if_pos ⟨hmode, hwindow⟩
  constructor
  · intro n hin hout hleast
    have hfirst : firstMissing x s.tc.roll.accepted = some n :=
      find_finRange ⟨by simp [hin, hout], fun m hm => by simpa using hleast m hm⟩
    rw [hfirst] at hruns
    exact ⟨_, hruns, cancelRoll_changesOnly hmode, cancelRoll_tc _ _⟩
  · intro hall
    have hfirst : firstMissing x s.tc.roll.accepted = none :=
      find_finRange_none fun m => by simpa using hall m
    rw [hfirst] at hruns
    by_cases hrecord : s.tc.roll.mode = some .record
    · obtain ⟨hstarted, hmodet, ht, hr, hax, hsample⟩ := startRoll_records (x := x) hmode
      rw [startRoll, show (beginRoll x s).tc.roll.mode = some .record from hrecord] at hruns
      dsimp only at hruns
      generalize startRecording x (beginRoll x s) = u at *
      obtain ⟨hreform, a, n, hpu⟩ := reform_changes (decide (s.pu.strain ≠ 1024)) u
      obtain ⟨⟨hgu, hsu, hcl, hpending⟩, ⟨hctxt, hroll, htake, hrollt, hgrace⟩, hstrain, hsum, hcount, hslices⟩ :=
        hstarted.reform (decide (s.pu.strain ≠ 1024))
      refine ⟨_, _, hruns, hgu, hsu, hcl, hpending, hctxt, hroll, htake, hrollt, hgrace, hstrain, hsum, hcount, hslices,
        fun h => (nomatch hrecord.symm.trans h), fun e h => (nomatch hrecord.symm.trans h), fun _ _ hnone => ?_⟩
      obtain ⟨hstate, hone, hwaiting⟩ := hsample hnone
      rw [entryOf, show (reform _ u).tc = u.tc from hreform.1 .tc (by decide),
        show (reform _ u).ts = u.ts from hreform.1 .ts (by decide), show (reform _ u).ax = u.ax from hreform.1 .ax (by decide),
        hpu]
      exact ⟨hmodet, ht, hr, hstate, hone, hwaiting, hax⟩
    · have hplays : exec .rollWindowExpiry s = .next (reform (decide (s.pu.strain ≠ 1024))
          (startPlayback (decide (s.tc.roll.mode = some .resumeFrom)) x (beginRoll x s))) := by
        refine hruns.trans (congrArg (fun u => Host.Outcome.next (reform (decide (s.pu.strain ≠ 1024)) u)) ?_)
        rw [show (beginRoll x s).tc.roll.mode = s.tc.roll.mode from rfl]
        cases h : s.tc.roll.mode with
        | none => rfl
        | some m =>
          cases m with
          | play => rfl
          | record => exact absurd h hrecord
          | resumeFrom => rfl
      obtain ⟨hstarted, hmodet, ht, hr, halign, hfollow, hplay, hresume⟩ := startRoll_plays (x := x) hmode
        (decide (s.tc.roll.mode = some .resumeFrom))
      generalize startPlayback (decide (s.tc.roll.mode = some .resumeFrom)) x (beginRoll x s) = u at *
      obtain ⟨hreform, a, n, hpu⟩ := reform_changes (decide (s.pu.strain ≠ 1024)) u
      obtain ⟨⟨hgu, hsu, hcl, hpending⟩, ⟨hctxt, hroll, htake, hrollt, hgrace⟩, hstrain, hsum, hcount, hslices⟩ :=
        hstarted.reform (decide (s.pu.strain ≠ 1024))
      have hfdt : (reform (decide (s.pu.strain ≠ 1024)) u).fd = u.fd := hreform.1 .fd (by decide)
      have hmodes : (reform (decide (s.pu.strain ≠ 1024)) u).tc.mode = .playing := by
        rw [show (reform _ u).tc = u.tc from hreform.1 .tc (by decide), hmodet]
      have hpace : (reform (decide (s.pu.strain ≠ 1024)) u).pu.t = x.startTime ∧
          (reform (decide (s.pu.strain ≠ 1024)) u).pu.r = 0 ∧
          (reform (decide (s.pu.strain ≠ 1024)) u).pu.alignTimer = some s.cl.cfg.alignWindow := by
        rw [hpu]
        exact ⟨ht, hr, halign⟩
      have haxes : ∀ i, configured s i = true → (axisCh s i).state ≠ .fault →
          (axisCh (reform (decide (s.pu.strain ≠ 1024)) u) i).state = .follow := by
        intro i
        have hax : axisCh (reform (decide (s.pu.strain ≠ 1024)) u) i = axisCh u i :=
          congrArg (fun a => a.ch.get i) (hreform.1 .ax (by decide))
        rw [hax]
        exact hfollow i
      refine ⟨_, _, hplays, hgu, hsu, hcl, hpending, hctxt, hroll, htake, hrollt, hgrace, hstrain, hsum, hcount, hslices,
        fun h => ?_, fun e h he => ?_, fun h => absurd h hrecord⟩
      · rw [hfdt, hplay (by rw [h]; rfl)]
        exact ⟨hmodes, hpace.1, hpace.2.1, hpace.2.2, rfl, rfl, rfl, rfl, rfl, rfl, haxes⟩
      · rw [hfdt, hresume e (by rw [h]; rfl) he]
        obtain ⟨hretired, hsuspended, hseq, hnext, hsection⟩ := enqueueEntry_keeps x.mode (entryOf s x.take)
          { e with zeroStart := true, seq := s.tc.roll.startSeq } { s.fd with
            queue := [], retired := none, stack := e.stack, loopEnd := e.loopEnd, nextSeq := s.tc.roll.startSeq,
            startSeq := s.tc.roll.startSeq, suspended := false, finalBuilt := false, sourceRead := none }
        exact ⟨hmodes, rfl, hpace.1, hpace.2.1, hpace.2.2, haxes, hretired, hsuspended, hseq, hnext, hsection,
          enqueueEntry_first rfl rfl, rfl⟩

end Sys2Proof.Machine
end

section
/-! PROOFS. The feeder: the entry that a completed read builds. -/
namespace Sys2Proof.Machine

/-! ### The mark at a keyframe, and the decisions at an entry's end (R122 to R126) -/

-- In place, so that the parts of the text are elaborated one after the other and not all at once.
set_option Elab.async false in
theorem markAt_none {e : TakeEntry} {a : Nat} (h : ∀ k m, e.marks.get k = some m → m.start ≠ a) : markAt e a = none := by
  rw [markAt, List.find?_map, Option.map_eq_none_iff]
  exact usedMarks_find_none fun k m hm => by simpa using h k m hm

theorem markAt_some {e : TakeEntry} {a : Nat} {k : Fin 8} {m : Mark} (hm : e.marks.get k = some m) (hstart : m.start = a)
    (hone : ∀ j n, e.marks.get j = some n → n.start = a → j = k) : markAt e a = some m := by
  obtain ⟨m', hm', hfind⟩ := usedMarks_find (marks := e.marks) (p := (fun m : Mark => m.start == a) ∘ Prod.fst) (k := k)
    ⟨⟨m, hm, beq_iff_eq.mpr hstart⟩, fun j hj ⟨n, hn, hna⟩ => hj.ne (hone j n hn (beq_iff_eq.mp (show (n.start == a) = true from hna)))⟩
  rw [markAt, List.find?_map, hfind, Option.map_some, Option.some.inj (hm'.symm.trans hm)]

theorem pushMark_none {e : TakeEntry} {a : Nat} {stack : List Pass} (h : markAt e a = none) : pushMark e a stack = stack := by
  rw [pushMark, h]

theorem pushMark_some {e : TakeEntry} {a : Nat} {m : Mark} {stack : List Pass} (h : markAt e a = some m) :
    ((∃ p ∈ stack.head?, p.start = m.start ∧ p.stop = m.stop) → pushMark e a stack = stack) ∧
      ((¬ ∃ p ∈ stack.head?, p.start = m.start ∧ p.stop = m.stop) → pushMark e a stack =
        { start := m.start, stop := m.stop, remaining := m.count, breakRequested := false } :: stack) := by
  have htop : ((stack.head?.map (passIs m)).getD false = true) ↔ ∃ p ∈ stack.head?, p.start = m.start ∧ p.stop = m.stop := by
    cases stack.head? <;> simp [passIs]
  rw [pushMark, h]
  exact ⟨fun hp => if_pos (htop.mpr hp), fun hp => if_neg fun hq => hp (htop.mp hq)⟩

theorem endDecision_repeat {mode : PlayMode} {last b : Nat} {loopEnd : Bool} {p : Pass} {rest : List Pass} (hstop : p.stop = b)
    (hbreak : p.breakRequested = false) (hleft : p.remaining ≠ 1) :
    endDecision mode last b (p :: rest) loopEnd =
      { stack := { p with remaining := p.remaining - 1 } :: rest, loopEnd := loopEnd, arrival := some p.start } := by
  rw [endDecision, if_neg (not_not.mpr hstop), if_neg]
  simp [hbreak, hleft]

theorem endDecision_pop {mode : PlayMode} {last b : Nat} {loopEnd : Bool} {p : Pass} {rest : List Pass} (hstop : p.stop = b)
    (hends : p.breakRequested = true ∨ p.remaining = 1) :
    endDecision mode last b (p :: rest) loopEnd = onwardDecision mode last b rest loopEnd := by
  rw [endDecision, if_neg (not_not.mpr hstop), if_pos hends]

theorem endDecision_inside {mode : PlayMode} {last b : Nat} {loopEnd : Bool} {stack : List Pass}
    (h : ∀ p ∈ stack.head?, p.stop ≠ b) : endDecision mode last b stack loopEnd = onwardDecision mode last b stack loopEnd := by
  cases stack with
  | nil => rfl
  | cons p rest => exact if_pos (h p rfl)

/-- A decision that repeats no mark goes onward, with what is left of the stack. -/
theorem endDecision_onward {mode : PlayMode} {last b : Nat} {loopEnd : Bool} {stack : List Pass}
    (h : ∀ p ∈ stack.head?, p.stop = b → p.breakRequested = true ∨ p.remaining = 1) :
    ∃ left, endDecision mode last b stack loopEnd = onwardDecision mode last b left loopEnd := by
  cases stack with
  | nil => exact ⟨[], rfl⟩
  | cons p rest =>
    by_cases hstop : p.stop = b
    · exact ⟨rest, endDecision_pop hstop (h p rfl hstop)⟩
    · exact ⟨p :: rest, endDecision_inside fun q hq => by cases hq; exact hstop⟩

theorem onwardDecision_stack (mode : PlayMode) (last b : Nat) (stack : List Pass) (loopEnd : Bool) :
    (onwardDecision mode last b stack loopEnd).stack = stack := by
  rw [onwardDecision]
  split <;> [rfl; split] <;> [split; rfl] <;> rfl

theorem onwardDecision_below {mode : PlayMode} {last b : Nat} {stack : List Pass} {loopEnd : Bool} (h : b ≠ last) :
    onwardDecision mode last b stack loopEnd = { stack := stack, loopEnd := loopEnd, arrival := some b } := if_pos h

theorem onwardDecision_again {mode : PlayMode} {last b : Nat} {stack : List Pass} {loopEnd : Bool} (h : b = last)
    (hmode : mode = .loop) (hends : loopEnd = false) :
    onwardDecision mode last b stack loopEnd = { stack := stack, loopEnd := false, arrival := some 0 } := by
  rw [onwardDecision, if_neg (not_not.mpr h), if_pos hmode, if_neg (by rw [hends]; decide)]

theorem onwardDecision_final {mode : PlayMode} {last b : Nat} {stack : List Pass} {loopEnd : Bool} (h : b = last)
    (hends : mode ≠ .loop ∨ loopEnd = true) : onwardDecision mode last b stack loopEnd =
      { stack := stack, loopEnd := if mode = .loop then false else loopEnd, arrival := none } := by
  rw [onwardDecision, if_neg (not_not.mpr h)]
  by_cases hmode : mode = .loop
  · rw [if_pos hmode, if_pos hmode, if_pos (hends.resolve_left (not_not.mpr hmode))]
  · rw [if_neg hmode, if_neg hmode]

/-! ### The entry that joins the queue -/

/-- What an entry is in the queue, and what it leaves of the feeder, by the decision at its end. -/
theorem enqueueEntry_joins (mode : PlayMode) (take : TakeEntry) (e : QueueEntry) (fd : Feeder) :
    let t := enqueueEntry mode take e fd
    let d := endDecision mode (take.count - 1) e.stop fd.stack fd.loopEnd
    let sec := sectionDecision mode take.cues e.stop fd.slot
    ∃ f, t.queue = fd.queue ++ [f] ∧ f = { e with zeroEnd := f.zeroEnd, sectionEnd := f.sectionEnd, final := f.final } ∧
      t.sourceRead = none ∧ t.stack = d.stack ∧ t.loopEnd = d.loopEnd ∧
      (d.arrival = none → f.final = true ∧ f.zeroEnd = true ∧ f.sectionEnd = .none ∧ t.finalBuilt = true ∧ t.slot = fd.slot) ∧
      ∀ a, d.arrival = some a → f.final = false ∧ f.zeroEnd = decide (sec ≠ .none) ∧ f.sectionEnd = sec ∧
        t.finalBuilt = fd.finalBuilt ∧ t.slot = (if sec = .released then .applied else fd.slot) ∧
        t.cursor = { arrival := a, source := e.stop, t0 := endTime e, atRest := decide (sec ≠ .none),
                     pose := some (endPose e.spans) } := by
  intro t d sec
  cases h : d.arrival with
  | none =>
    rw [show t = _ from enqueueEntry_final h]
    exact ⟨_, rfl, rfl, rfl, rfl, rfl, fun _ => ⟨rfl, rfl, rfl, rfl, rfl⟩, fun _ ha => nomatch ha⟩
  | some a =>
    rw [show t = _ from enqueueEntry_onward h]
    refine ⟨_, rfl, rfl, rfl, rfl, rfl, fun ha => (nomatch ha), fun a' ha => ?_⟩
    cases ha
    exact ⟨rfl, rfl, rfl, rfl, rfl, rfl⟩

theorem sectionDecision_section {mode : PlayMode} {cues : List Nat} {b : Nat} {slot : AdvanceSlot}
    (h : mode = .step ∧ b ∈ cues) :
    sectionDecision mode cues b slot = (if slot = .held then .released else .waiting) :=
  if_pos ⟨h.1, List.contains_iff_mem.mpr h.2⟩

theorem sectionDecision_none {mode : PlayMode} {cues : List Nat} {b : Nat} {slot : AdvanceSlot}
    (h : ¬ (mode = .step ∧ b ∈ cues)) : sectionDecision mode cues b slot = .none :=
  if_neg fun hs => h ⟨hs.1, List.contains_iff_mem.mp hs.2⟩

theorem buildSpans_get {n : Nat} {q b : Keyframe} {i : Axis} (h : i.val < n) : (buildSpans n q b).get i =
    { p0 := (q.get i).pos, p1 := (b.get i).pos, v0 := (q.get i).vel, v1 := (b.get i).vel } := by
  rw [buildSpans, Table.get_ofFn, if_pos h]

/-- Settles O44: the read of the source, and the built entry with the decision at its end. -/
theorem feederBuildsTheNextEntry : Obligations.FeederBuildsTheNextEntry := by
  intro s c hctx hwants
  have hrun : exec .feederReadDone s = .next (s.setFd (feederRead c s)) := by
    refine congrArg Host.Outcome.next ?_
    rw [feederReadDoneEffect, if_pos hwants, hctx]
  constructor
  · intro hpose hread
    rw [hrun, feederRead]
    simp only [hpose, hread, Option.or_none]
  · intro q hq
    generalize hst : pushMark (entryOf s c.take) s.fd.cursor.arrival s.fd.stack = st
    generalize hend : readKeyframe s.ts c.take (s.fd.cursor.arrival + 1) = endFrame
    have hread : feederRead c s = buildEntry s.cl.cfg.axisCount c.mode (entryOf s c.take) q endFrame s.fd := by
      simp only [feederRead, hq, hend]
    rw [hrun, hread, buildEntry]
    simp only [hst]
    generalize he0 : QueueEntry.mk s.fd.cursor.t0 (entryOf s c.take).interval s.fd.cursor.atRest false
      (buildSpans s.cl.cfg.axisCount q endFrame) s.fd.cursor.source (s.fd.cursor.arrival + 1) s.fd.nextSeq st s.fd.loopEnd
      .none false = e0
    generalize hfd : ({ s.fd with stack := st } : Feeder) = fd
    obtain ⟨f, hqueue, hf, hsource, hstack, hloop, hfinal, honward⟩ := enqueueEntry_joins c.mode (entryOf s c.take) e0 fd
    obtain ⟨hretired, -, -, hnext, hsection⟩ := enqueueEntry_keeps c.mode (entryOf s c.take) e0 fd
    generalize enqueueEntry c.mode (entryOf s c.take) e0 fd = t at *
    have hspans : ∀ i, configured s i = true → f.spans.get i =
        { p0 := (q.get i).pos, p1 := (endFrame.get i).pos, v0 := (q.get i).vel, v1 := (endFrame.get i).vel } := fun i hc => by
      rw [hf, ← he0]
      exact buildSpans_get ((configured_iff s i).mp hc)
    have hfstack : f.stack = st := by rw [hf, ← he0]
    have htime : endTime e0 = endTime f := by rw [hf]; rfl
    have hpose : ∀ i, configured s i = true → (endPose e0.spans).get i = endFrame.get i := fun i hc => by
      rw [endPose, Table.get_map, ← he0, buildSpans_get ((configured_iff s i).mp hc)]
    have hstop : e0.stop = s.fd.cursor.arrival + 1 := by rw [← he0]
    rw [htime, hstop] at honward
    rw [hstop] at hstack hloop hfinal
    subst hfd
    dsimp only at hstack hloop hfinal honward
    subst hend hfstack
    have hdecides : f.final = false → ∃ a, (endDecision c.mode ((entryOf s c.take).count - 1) (s.fd.cursor.arrival + 1) f.stack
        s.fd.loopEnd).arrival = some a := fun hgoes => Option.ne_none_iff_exists'.mp fun hnone =>
      absurd ((hfinal hnone).1.symm.trans hgoes) (by decide)
    refine ⟨s.setFd t, f, rfl, changesOnly_fd (.head _), hqueue, by rw [hf, ← he0], hnext, hsource, hsection, hretired,
      by rw [hf, ← he0], by rw [hf, ← he0], by rw [hf, ← he0], by rw [hf, ← he0], by rw [hf, ← he0], by rw [hf, ← he0],
      hspans, fun hno => hst.symm.trans (pushMark_none (markAt_none hno)), fun k m hm hstart hone => ?_,
      fun p rest hp hstop hbreak hleft => ?_, fun p rest hp hstop hends => ?_, fun hinside => ?_, fun hon hb => ?_,
      fun hon hb hmode hends => ?_, fun hon hb hends => ?_, fun hgoes => ?_⟩
    · rw [← hst]
      exact pushMark_some (markAt_some hm hstart hone)
    · rw [hp, endDecision_repeat hstop hbreak hleft] at hstack hloop honward
      obtain ⟨hgoes, -, -, -, -, hcursor⟩ := honward _ rfl
      exact ⟨hstack, hgoes, congrArg Cursor.arrival hcursor, hloop⟩
    · rw [hp, endDecision_pop hstop hends, onwardDecision_stack] at hstack
      exact hstack
    · rw [endDecision_inside hinside, onwardDecision_stack] at hstack
      exact hstack
    · obtain ⟨left, hleft⟩ := endDecision_onward (mode := c.mode) (last := (entryOf s c.take).count - 1)
        (loopEnd := s.fd.loopEnd) hon
      rw [hleft, onwardDecision_below hb] at hloop honward
      obtain ⟨hgoes, -, -, -, -, hcursor⟩ := honward _ rfl
      exact ⟨hgoes, congrArg Cursor.arrival hcursor, hloop⟩
    · obtain ⟨left, hleft⟩ := endDecision_onward (mode := c.mode) (last := (entryOf s c.take).count - 1)
        (loopEnd := s.fd.loopEnd) hon
      rw [hleft, onwardDecision_again hb hmode hends] at hloop honward
      obtain ⟨hgoes, -, -, -, -, hcursor⟩ := honward _ rfl
      exact ⟨hgoes, congrArg Cursor.arrival hcursor, hloop⟩
    · obtain ⟨left, hleft⟩ := endDecision_onward (mode := c.mode) (last := (entryOf s c.take).count - 1)
        (loopEnd := s.fd.loopEnd) hon
      rw [hleft, onwardDecision_final hb hends] at hloop hfinal
      obtain ⟨hf1, hz, hsec, hbuilt, hslot⟩ := hfinal rfl
      exact ⟨hf1, hz, hsec, hbuilt, hslot, hloop⟩
    · obtain ⟨a, ha⟩ := hdecides hgoes
      obtain ⟨-, hzero, hsec, hbuilt, hslot, hcursor⟩ := honward a ha
      rw [setFd_fd, hcursor]
      refine ⟨hbuilt, rfl, rfl, hzero.symm, ⟨_, rfl, hpose⟩, fun hcue => ?_, fun hcue => ?_⟩
      · rw [sectionDecision_section hcue] at hzero hsec hslot
        refine ⟨hzero.trans ?_, hsec, hslot.trans ?_⟩ <;> split <;> rfl
      · rw [sectionDecision_none hcue] at hzero hsec hslot
        exact ⟨hzero, hsec, hslot⟩

end Sys2Proof.Machine
end


section
/-! PROOFS. The end of a recording: the keyframes that it leaves, and the take store at the return to IDLE. -/

namespace Sys2Proof.Machine

/-! ### The take store at a change of the class and at the return to IDLE -/

/-- No axis is in a punch. -/
def Unpunched (s : State) : Prop := ∀ i, punchedState (axisCh s i).state = false

/-- Of the take store the keyframes alone change, and none where no axis is in a punch; no axis enters one. -/
def FixesUp (s t : State) : Prop :=
  (∃ pool, t.ts = { s.ts with pool := pool }) ∧ (Unpunched s → t.ts = s.ts ∧ Unpunched t)

-- In place, so that the parts of the text are elaborated one after the other and not all at once.
set_option Elab.async false in
theorem FixesUp.refl (s : State) : FixesUp s s := ⟨⟨_, rfl⟩, fun h => ⟨rfl, h⟩⟩

theorem FixesUp.trans {s t u : State} (h : FixesUp s t) (h' : FixesUp t u) : FixesUp s u := by
  obtain ⟨⟨pool, hp⟩, hu⟩ := h
  obtain ⟨⟨pool', hp'⟩, hu'⟩ := h'
  refine ⟨⟨pool', by rw [hp', hp]⟩, fun hs => ?_⟩
  obtain ⟨hts, ht⟩ := hu hs
  obtain ⟨hts', ht'⟩ := hu' ht
  exact ⟨hts'.trans hts, ht'⟩

/-- A step that leaves the store and the axes. -/
theorem FixesUp.of_same {s t : State} (hts : t.ts = s.ts) (hax : t.ax = s.ax) : FixesUp s t :=
  ⟨⟨s.ts.pool, hts⟩, fun h => ⟨hts, fun i => by rw [axisCh, hax]; exact h i⟩⟩

theorem FixesUp.foldl {f : State → Axis → State} (hf : ∀ s i, FixesUp s (f s i)) :
    ∀ (l : List Axis) (s : State), FixesUp s (l.foldl f s)
  | [], s => .refl s
  | a :: l, s => (hf s a).trans (FixesUp.foldl hf l (f s a))

/-- A channel that enters no punch, whose own punch may end with it. -/
theorem fixesUp_channel {s : State} {i : Axis} {c : AxisChannel}
    (hc : punchedState (axisCh s i).state = false → punchedState c.state = false) (ends : Bool)
    (hends : ends = true → punchedState (axisCh s i).state = true) :
    FixesUp s (if ends then endPunch i (setChannel i c s) else setChannel i c s) := by
  have hset : (setChannel i c s).ts = s.ts := setChannel_ts _ _ _
  have hstays : Unpunched s → Unpunched (setChannel i c s) := fun h j => by
    rw [axisCh_setChannel]
    split
    · next hij => exact hc (h i)
    · exact h j
  cases ends with
  | false => exact ⟨⟨s.ts.pool, hset⟩, fun h => ⟨hset, hstays h⟩⟩
  | true =>
    obtain ⟨pool, hp⟩ := endPunch_ts i (setChannel i c s)
    exact ⟨⟨pool, by rw [if_pos rfl, hp, hset]⟩, fun h => absurd ((hends rfl).symm.trans (h i)) (by decide)⟩

theorem classChannel_unpunched (cfg : NodeConfig) (old new : Cls) {c : AxisChannel} (h : punchedState c.state = false) :
    punchedState (classChannel cfg old new c).state = false := by
  obtain ⟨st⟩ := c
  rw [classChannel.eq_def]
  cases new <;> cases st <;> simp_all [punchedState, offPath, enterRest] <;> split <;> simp

theorem fixesUp_takeClassAt (old : Cls) (s : State) (i : Axis) : FixesUp s (takeClassAt old s i) :=
  fixesUp_channel (classChannel_unpunched _ _ _)
    (punchedState (axisCh s i).state && !punchedState (classChannel s.cl.cfg old s.su.effective (axisCh s i)).state)
    fun h => (Bool.and_eq_true_iff.mp h).1

theorem fixesUp_idleAt (s : State) (i : Axis) : FixesUp s (idleAt s i) := by
  have hkept : ∀ c : AxisChannel, c.state = (axisCh s i).state → FixesUp s (setChannel i c s) := fun c hc =>
    fixesUp_channel (fun h => by rw [hc]; exact h) false nofun
  have hrests := fun (c : AxisChannel) (ends : Bool) => fixesUp_channel (s := s) (i := i) (c := enterRest s.cl.cfg c)
    (fun _ => rfl) ends
  cases h : (axisCh s i).state <;> simp only [idleAt, h]
  case override => exact hrests _ true fun _ => by rw [h]; rfl
  case rejoin =>
    split
    · exact hrests _ true fun _ => by rw [h]; rfl
    · exact .refl s
  case follow | goto =>
    split
    · exact hrests _ false nofun
    · exact .refl s
  all_goals
    split
    · exact hkept _ h.symm
    · exact .refl s

/-- A change of the class in a mode other than RECORDING. -/
theorem fixesUp_takeClass {old : Cls} {trip : TakeTime} {s : State} (h : s.tc.mode ≠ .recording) :
    FixesUp s (takeClass old trip s) := by
  have hto : FixesUp s (dropLatch (announce (dropRates old s))) := .of_same (by simp) (by simp)
  have hfold := hto.trans (FixesUp.foldl (fixesUp_takeClassAt old) allAxes _)
  refine hfold.trans ?_
  have hmode : (allAxes.foldl (takeClassAt old) (dropLatch (announce (dropRates old s)))).tc = s.tc := by simp
  rw [takeClass]
  generalize allAxes.foldl (takeClassAt old) (dropLatch (announce (dropRates old s))) = u at hmode
  rw [requestTaint, if_neg fun hm => h (by simpa [hmode] using hm.1)]
  exact .of_same (by simp) (by simp)

theorem fixesUp_releaseKey (c : Cause) {s : State} (h : s.tc.mode ≠ .recording) : FixesUp s (releaseKey c s) := by
  have hchange : FixesUp s (changeOwn false c (s.su.own.filter fun k => k.cause != c) s) := .of_same (by simp) (by simp)
  refine releaseKey_cases (P := FixesUp s) (fun _ => .refl s) ?_ fun _ => ?_
  · exact hchange.trans (.of_same (by simp) (by simp))
  · exact hchange.trans (fixesUp_takeClass (by simpa using h))

/-- At the return to IDLE the directory stays, but for an entry that is ARMED. -/
theorem fixesUp_returnToIdle {s : State} (hmode : s.tc.mode ≠ .idle)
    (harmed : ∀ c, s.tc.ctx = some c → (entryOf s c.take).state ≠ .armed) : FixesUp s (returnToIdle s) := by
  have hdisarm : disarm s = s := by
    rw [disarm]
    split
    · rfl
    · next c hc => exact if_neg (harmed c hc)
  have hbefore : FixesUp s (beforeRelease s) := by
    have hidle := FixesUp.foldl fixesUp_idleAt allAxes s
    have htc : (allAxes.foldl idleAt s).tc = s.tc := foldl_keeps (fun u => u.tc) idleAt (by simp) _ _
    rw [beforeRelease, hdisarm]
    refine hidle.trans (.of_same ?_ (by simp))
    rw [setMode_ts _ (by simpa [htc] using hmode)]
    simp
  rw [returnToIdle_eq]
  refine hbefore.trans (fixesUp_releaseKey _ ?_)
  rw [(beforeRelease_blocks s).2.1]
  exact nofun
/-! ### The samples that wait, written in order (R86) -/

/-- The keyframes of a recording are written: those of ts, with the samples that wait there. -/
structure Recorded (ts u : TakeStore) (slot : Slot) : Prop where
  sound : StoreSound u
  entry : (u.dir.get slot).interval = (ts.dir.get slot).interval
  positions : ∀ k i, k < (ts.dir.get slot).count → ((readKeyframe u slot k).get i).pos = recordedPos ts slot k i
  start : ∀ i, ((readKeyframe ts slot 0).get i).vel = 0 → ((readKeyframe u slot 0).get i).vel = 0
  velocities : ts.waiting = [] → ∀ k i, k + 1 < (ts.dir.get slot).count →
    ((readKeyframe u slot k).get i).vel = ((readKeyframe ts slot k).get i).vel
  others : ∀ other k, other ≠ slot → readKeyframe u other k = readKeyframe ts other k

theorem readKeyframe_waiting (ts : TakeStore) (l : List RecorderSample) (slot : Slot) (k : Nat) :
    readKeyframe { ts with waiting := l } slot k = readKeyframe ts slot k := rfl

/-- Samples written one after the other: each keyframe of the take has the position of its last sample. -/
theorem foldl_recordSample_pos (n : Nat) (slot : Slot) (k : Nat) (i : Axis) :
    ∀ (l : List RecorderSample) {ts : TakeStore}, StoreSound ts → hasKeyframe ts slot k →
      ((readKeyframe (l.foldl (fun t x => recordSample n slot x t) ts) slot k).get i).pos =
        recordedPos { ts with waiting := l } slot k i
  | [], _, _, _ => rfl
  | x :: l, ts, h, hk => by
    obtain ⟨pool, heq⟩ := recordSample_eq n slot x ts
    have hrec := foldl_recordSample_pos n slot k i l (h.sample n slot x) (by rwa [hasKeyframe_congr (by rw [heq])])
    rw [List.foldl_cons, hrec, recordedPos, recordedPos, List.reverse_cons, List.find?_append]
    cases l.reverse.find? fun y => y.index == k with
    | some y => rfl
    | none =>
      by_cases hx : x.index = k
      · subst hx
        simpa [poseKeyframe, readKeyframe_waiting] using congrArg (fun f : Keyframe => (f.get i).pos) (recordSample_own h n hk)
      · simpa [hx, readKeyframe_waiting] using recordSample_pos h n slot x slot k i (fun hs => hx hs.2.symm)

theorem foldl_recordSample_sound (n : Nat) (slot : Slot) :
    ∀ (l : List RecorderSample) {ts : TakeStore}, StoreSound ts →
      StoreSound (l.foldl (fun t x => recordSample n slot x t) ts)
  | [], _, h => h
  | x :: l, _, h => foldl_recordSample_sound n slot l (h.sample n slot x)

theorem foldl_recordSample_others (n : Nat) {slot other : Slot} (hne : other ≠ slot) (k : Nat) :
    ∀ (l : List RecorderSample) {ts : TakeStore}, StoreSound ts →
      readKeyframe (l.foldl (fun t x => recordSample n slot x t) ts) other k = readKeyframe ts other k
  | [], _, _ => rfl
  | x :: l, _, h => (foldl_recordSample_others n hne k l (h.sample n slot x)).trans (recordSample_ne h n (.inl hne))

/-- Keyframe 0 is at rest once it is written, and no central difference changes that. -/
theorem recordSample_start {ts : TakeStore} (h : StoreSound ts) (n : Nat) (slot : Slot) (x : RecorderSample) (i : Axis)
    (hzero : ((readKeyframe ts slot 0).get i).vel = 0) : ((readKeyframe (recordSample n slot x ts) slot 0).get i).vel = 0 := by
  by_cases hx : x.index = 0
  · by_cases hk : hasKeyframe ts slot 0
    · have hown := recordSample_own h n (slot := slot) (x := x) (by rw [hx]; exact hk)
      rw [hx] at hown
      rw [hown, poseKeyframe, Table.get_map]
    · rw [recordSample, hx, writeKeyframe_none hk, if_neg (by decide)]
      exact hzero
  · rw [recordSample_ne h n (.inr ⟨Ne.symm hx, by omega⟩)]
    exact hzero

theorem foldl_recordSample_start (n : Nat) (slot : Slot) (i : Axis) :
    ∀ (l : List RecorderSample) {ts : TakeStore}, StoreSound ts → ((readKeyframe ts slot 0).get i).vel = 0 →
      ((readKeyframe (l.foldl (fun t x => recordSample n slot x t) ts) slot 0).get i).vel = 0
  | [], _, _, hz => hz
  | x :: l, _, h, hz => foldl_recordSample_start n slot i l (h.sample n slot x) (recordSample_start h n slot x i hz)

/-- What the waiting samples make of a recording that stands. -/
theorem flushSamples_records {ts : TakeStore} (n : Nat) {slot : Slot} (h : StoreSound ts)
    (hroom : (ts.dir.get slot).count ≤ 128 * (ts.dir.get slot).blocks.length) :
    Recorded ts (flushSamples n slot ts) slot := by
  obtain ⟨pool, heq⟩ := flushSamples_eq n slot ts
  exact {
    sound := ⟨(foldl_recordSample_sound n slot ts.waiting h).apart, (foldl_recordSample_sound n slot ts.waiting h).pool⟩
    entry := by rw [heq]
    positions := fun k i hk => foldl_recordSample_pos n slot k i ts.waiting h (Nat.lt_of_lt_of_le hk hroom)
    start := fun i hz => foldl_recordSample_start n slot i ts.waiting h hz
    velocities := fun hnone k i _ => by rw [flushSamples, hnone]; rfl
    others := fun other k hne => foldl_recordSample_others n hne k ts.waiting h }

/-! ### The last keyframe that a take keeps (R86, R89) -/

/-- The keyframes of v up to the last are those that u holds; with the end velocity given to the last they are those of
the closed take. -/
theorem Recorded.closes {s t : State} {u v : TakeStore} {slot : Slot} {last : Nat} (h : Recorded s.ts u slot)
    (hsound : StoreSound v) (hlast : hasKeyframe v slot last) (hentry : (v.dir.get slot).interval = (u.dir.get slot).interval)
    (hkeeps : ∀ k, k ≤ last → readKeyframe v slot k = readKeyframe u slot k)
    (hothers : ∀ other k, other ≠ slot → readKeyframe v other k = readKeyframe u other k)
    (hread : ∀ other k, readKeyframe t.ts other k = readKeyframe (giveEnd s.cl.cfg.axisCount slot last v) other k)
    (hcount : (entryOf t slot).count = last + 1) : RecordingCloses s t slot where
  positions k i hs ht := by
    rw [hread, giveEnd_pos hsound, hkeeps k (by omega)]
    exact h.positions k i hs
  endVelocity n i hn hc := by
    obtain rfl : last = n + 1 := by omega
    rw [hread, hread, giveEnd_vel hsound _ (by omega) hlast, if_pos ((configured_iff s i).mp hc), hentry, h.entry,
      giveEnd_pos hsound, giveEnd_pos hsound]
    rfl
  alone hone i hz := by
    obtain rfl : last = 0 := by omega
    rw [hread, giveEnd, if_pos rfl, hkeeps 0 (Nat.le_refl 0)]
    exact h.start i hz
  velocities hnone k i hs ht := by
    rw [hread, giveEnd_ne hsound (by rintro ⟨-, hk⟩; omega), hkeeps k (by omega)]
    exact h.velocities hnone k i hs
  others other k hne := by
    rw [hread, giveEnd_ne hsound (fun hk => hne hk.1), hothers other k hne]
    exact h.others other k hne

/-! ### TAINT (R89) -/

/-- The keyframe at which a taint cuts: those up to it are kept, and the one behind it is later. -/
theorem taintLast_cuts (interval span : Nat) (trip : TakeTime) {count : Nat} (h : 1 ≤ count) :
    let last := taintLast interval span trip count
    last < count ∧ (∀ k, 1 ≤ k → k ≤ last → taintKeeps interval span trip k = true) ∧
      (last + 1 < count → taintKeeps interval span trip (last + 1) = false) := by
  intro last
  have hlen : ((List.range count).drop 1).length = count - 1 := by simp
  have hat : ∀ j (hj : j < ((List.range count).drop 1).length), ((List.range count).drop 1)[j] = j + 1 := fun j hj => by
    simp [Nat.add_comm]
  have hlast : last = ((List.range count).drop 1).findIdx fun k => !taintKeeps interval span trip k := by
    simp only [last, taintLast]
    rw [List.takeWhile_eq_take_findIdx_not, List.length_take]
    exact Nat.min_eq_left List.findIdx_le_length
  have hle : last ≤ count - 1 := by rw [hlast, ← hlen]; exact List.findIdx_le_length
  refine ⟨by omega, fun k hk hkl => ?_, fun hlt => ?_⟩
  · have hkeeps := List.not_of_lt_findIdx (i := k - 1) (p := fun k => !taintKeeps interval span trip k)
      (xs := (List.range count).drop 1) (by omega)
    rwa [hat, show k - 1 + 1 = k by omega, Bool.not_eq_false'] at hkeeps
  · have hcut := List.findIdx_getElem (p := fun k => !taintKeeps interval span trip k) (xs := (List.range count).drop 1)
      (w := by omega)
    rwa [hat, ← hlast, Bool.not_eq_true'] at hcut

theorem taintKeeps_iff (interval span : Nat) (trip : TakeTime) (k : Nat) : taintKeeps interval span trip k = true ↔
    ¬ 0 < (BitVec.ofNat 32 (k * interval * 1024) - (trip - BitVec.ofNat 32 (1024 * span))).toInt := by
  rw [taintKeeps, decide_eq_true_iff]
  exact Int.not_lt.symm

/-- What a taint makes of the store: the entry, the blocks and the keyframes. -/
theorem taintRecording_taints {n span : Nat} {slot : Slot} {trip : TakeTime} {ts : TakeStore}
    (hcount : 1 ≤ (ts.dir.get slot).count) :
    let t := taintRecording n span slot trip ts
    let e := ts.dir.get slot
    let last := taintLast e.interval span trip e.count
    t.dir.get slot = { e with
        state := .stored, endCause := some .taint, taint := some trip, count := last + 1,
        blocks := e.blocks.take (last / 128 + 1) } ∧
      (∀ k, k ≠ slot → t.dir.get k = ts.dir.get k) ∧ t.waiting = [] ∧ t.taintTrip = none ∧ t.bulk = ts.bulk ∧
      (t.free ++ (t.dir.get slot).blocks).Perm (ts.free ++ e.blocks) ∧
      ∀ other k, readKeyframe t other k =
        readKeyframe (giveEnd n slot last (cutKeyframes slot last (flushSamples n slot ts))) other k := by
  intro t e last
  obtain ⟨pool, hflush⟩ := flushSamples_eq n slot ts
  obtain ⟨hself, hothers, hfree, -, -⟩ := cutKeyframes_cuts slot last (flushSamples n slot ts)
  obtain ⟨pool', hend⟩ := giveEnd_eq n slot last (cutKeyframes slot last (flushSamples n slot ts))
  have hdir : (flushSamples n slot ts).dir = ts.dir := by rw [hflush]
  have hu : (giveEnd n slot last (cutKeyframes slot last (flushSamples n slot ts))).dir =
      (cutKeyframes slot last (flushSamples n slot ts)).dir := by rw [hend]
  have ht : t = { setEntry slot { (giveEnd n slot last (cutKeyframes slot last (flushSamples n slot ts))).dir.get slot with
      state := .stored, endCause := some .taint, taint := some trip }
      (giveEnd n slot last (cutKeyframes slot last (flushSamples n slot ts))) with taintTrip := none } := by
    simp only [t, taintRecording, hdir]
    rfl
  rw [hdir] at hself hothers hfree
  have htself : t.dir.get slot = { e with
      state := .stored, endCause := some .taint, taint := some trip, count := last + 1,
      blocks := e.blocks.take (last / 128 + 1) } := by
    rw [ht]
    refine (setEntry_get_self _ _ _).trans ?_
    rw [hu, hself]
  have htne : ∀ k, k ≠ slot → t.dir.get k = (giveEnd n slot last (cutKeyframes slot last (flushSamples n slot ts))).dir.get k :=
    fun k hk => by
      rw [ht]
      exact setEntry_get_ne hk _ _
  refine ⟨htself, fun k hk => ?_, ?_, by rw [ht], ?_, ?_, fun other k => ?_⟩
  · rw [htne k hk, hu, hothers k hk]
  · rw [ht, hend, cutKeyframes, hflush]
    rfl
  · rw [ht, hend, cutKeyframes, hflush]
    rfl
  · rw [htself]
    rw [hself, show (flushSamples n slot ts).free = ts.free by rw [hflush]] at hfree
    rw [show t.free = (cutKeyframes slot last (flushSamples n slot ts)).free by rw [ht, hend]; rfl]
    exact hfree
  · refine readKeyframe_congr ?_ (by rw [ht]; rfl)
    by_cases ho : other = slot
    · subst ho
      rw [htself, hu, hself]
    · rw [htne other ho]

/-! ### The return to IDLE, seen from the state before the step -/

/-- The return to IDLE from a state that differs in other blocks, before frames and the store. -/
theorem ReturnsToIdle.congr {s s' t t' : State} (h : ReturnsToIdle s t) (hax : s'.ax.ch = s.ax.ch) (hlmu : s'.lmu = s.lmu)
    (hcue : s'.fd.cueLow = s.fd.cueLow) (heff : s'.su.effective = s.su.effective)
    (ht : ChangesOnly [.lc, .pt, .ts] t t') : ReturnsToIdle s' t' := by
  have htax : t'.ax = t.ax := ht.1 .ax (by decide)
  have hch : ∀ i, axisCh s' i = axisCh s i := fun i => by rw [axisCh, hax]; rfl
  have htch : ∀ i, axisCh t' i = axisCh t i := fun i => by rw [axisCh, htax]; rfl
  have htlmu : t'.lmu = t.lmu := ht.1 .lmu (by decide)
  refine ⟨?_, ?_, ?_, fun i => ?_, fun i => ?_, fun i => ?_, fun i => ?_⟩
  · rw [show t'.tc = t.tc from ht.1 .tc (by decide)]
    exact h.station
  · rw [show t'.fd = t.fd from ht.1 .fd (by decide), show t'.pu = t.pu from ht.1 .pu (by decide), hcue]
    exact h.cleared
  · rw [show t'.su = t.su from ht.1 .su (by decide)]
    exact h.released
  · rw [hch, htch]
    exact h.rests i
  · rw [hch, htlmu, hlmu]
    exact h.maps i
  · rw [hch, htax]
    exact h.punches i
  · rw [hch, htch, heff]
    exact h.others i

/-- A release starts nothing: a rate of 0 stays. -/
theorem releaseKey_rate (c : Cause) {s : State} (h : s.pu.r = 0) : (releaseKey c s).pu.r = 0 := by
  refine releaseKey_cases (P := fun u => u.pu.r = 0) (fun _ => h) ?_ fun trip => ?_
  · obtain ⟨-, a, n, hpu⟩ := announce_changes (changeOwn false c (s.su.own.filter fun k => k.cause != c) s)
    rw [hpu, changeOwn_pu]
    exact h
  · obtain ⟨-, ⟨a, n, hpu⟩, -, -⟩ := takeClass_blocks s.su.effective trip
      (changeOwn false c (s.su.own.filter fun k => k.cause != c) s)
    rw [hpu]
    show (dropRates _ _).pu.r = 0
    rw [dropRates]
    split <;> simp [h]

/-- What stands at the return to IDLE whatever the claims are. -/
theorem returnToIdle_idle (s : State) :
    let t := returnToIdle s
    t.tc = { s.tc with mode := .idle, ctx := none, arrivals := Table.fill 3 false, roll := { s.tc.roll with window := none } } ∧
      t.fd = { Feeder.reset with cueLow := s.fd.cueLow } ∧ t.pu.r = 0 ∧ ∀ k ∈ t.su.own, k.cause ≠ .peerMismatch := by
  intro t
  obtain ⟨-, htc, hfd, hpu⟩ := beforeRelease_blocks s
  have ht : t = releaseKey .peerMismatch (beforeRelease s) := returnToIdle_eq s
  clear_value t
  subst ht
  rw [releaseKey_tc, releaseKey_fd]
  exact ⟨htc, hfd, releaseKey_rate .peerMismatch (by rw [hpu]), fun k hk => (mem_releaseKey.mp hk).2⟩

/-- Settles O35: the taint of the store, and the return to IDLE that leaves it. -/
theorem taintCutsTheRecording : Obligations.TaintCutsTheRecording := by
  intro s c trip hctx htrip hmode hstate hwants hcount
  have hrun : exec .taint s = .next (returnToIdle
      (s.setTs (taintRecording s.cl.cfg.axisCount s.cl.cfg.taintSpan c.take trip s.ts))) := by
    refine congrArg Host.Outcome.next ?_
    rw [taintEffect, hctx, htrip]
    exact if_pos ⟨hmode, by rw [hwants]; rfl⟩
  obtain ⟨hself, hothers, hwaiting, hnone, hbulk, hfree, hread⟩ := taintRecording_taints (n := s.cl.cfg.axisCount)
    (span := s.cl.cfg.taintSpan) (slot := c.take) (trip := trip) hcount
  obtain ⟨hlast, hkept, hcut⟩ := taintLast_cuts (entryOf s c.take).interval s.cl.cfg.taintSpan trip hcount
  generalize hts : taintRecording s.cl.cfg.axisCount s.cl.cfg.taintSpan c.take trip s.ts = ts at *
  have hfix : FixesUp (s.setTs ts) (returnToIdle (s.setTs ts)) := by
    refine fixesUp_returnToIdle (by rw [setTs_tc, hmode]; decide) fun c' hc' => ?_
    obtain rfl : c = c' := Option.some.inj (hctx.symm.trans hc')
    rw [entryOf, setTs_ts, hself]
    exact nofun
  obtain ⟨⟨pool, hpool⟩, hunpunched⟩ := hfix
  obtain ⟨htc, -, -, -⟩ := returnToIdle_idle (s.setTs ts)
  have hentry : entryOf (returnToIdle (s.setTs ts)) c.take = ts.dir.get c.take := by rw [entryOf, hpool]; rfl
  refine ⟨_, hrun, fun hi => ?_, by rw [htc], by rw [htc], by rw [hpool]; exact hnone, by rw [hpool]; exact hwaiting,
    fun k hk => by rw [hpool]; exact hothers k hk, by simp, by simp, by simp, by rw [hentry, hself], by rw [hentry, hself],
    fun hstands => ?_, by rw [hentry, hself], by rw [hentry, hself]; exact Nat.le_add_left _ _,
    by rw [hentry, hself]; exact hlast, by rw [hentry, hpool]; exact hfree, fun k hk hle => ?_, fun hlt => ?_⟩
  · exact (returnToIdle_returns (s := s.setTs ts) hi.effective hi.mismatch).congr rfl rfl rfl rfl (.refl _ _)
  · have hsame := (hunpunched fun i => by
      obtain ⟨ho, hr⟩ := hstands.unpunched i
      rw [axisCh, setTs_ax]
      simp [punchedState, show (s.ax.ch.get i).state ≠ _ from ho, show (s.ax.ch.get i).state ≠ _ from hr]).1
    have hrecorded := flushSamples_records s.cl.cfg.axisCount (hstands.blocks.sound hstands.pool) hstands.room.2
    obtain ⟨pool', hflush⟩ := flushSamples_eq s.cl.cfg.axisCount c.take s.ts
    obtain ⟨hcself, -, -, hckeeps, hcothers⟩ := cutKeyframes_cuts c.take
      (taintLast (entryOf s c.take).interval s.cl.cfg.taintSpan trip (entryOf s c.take).count)
      (flushSamples s.cl.cfg.axisCount c.take s.ts)
    have hdir : (flushSamples s.cl.cfg.axisCount c.take s.ts).dir = s.ts.dir := by rw [hflush]
    have hblocks : BlocksInv (flushSamples s.cl.cfg.axisCount c.take s.ts) := by
      rw [hflush]
      exact hstands.blocks.of_eq rfl rfl
    have hlen := hstands.room.2
    refine hrecorded.closes (cutKeyframes_sound hblocks hrecorded.sound.pool _ _) ?_ (by rw [hcself]) hckeeps
      (fun other k hne => hcothers other k hne) (fun other k => by rw [hsame]; exact hread other k) (by rw [hentry, hself]; rfl)
    rw [hasKeyframe, hcself, List.length_take, hdir]
    rw [entryOf] at hlast hlen ⊢
    omega
  · rw [hentry, hself] at hle
    exact (taintKeeps_iff _ _ _ _).mp (hkept k hk (Nat.lt_succ_iff.mp hle))
  · rw [hentry, hself] at hlt ⊢
    have hlate := hcut hlt
    rw [← Bool.not_eq_true, taintKeeps_iff, not_not] at hlate
    exact hlate

end Sys2Proof.Machine
end


section
/-! PROOFS. WRAP: the final keyframe of a recording, and what a WRAP leaves in every mode. -/

namespace Sys2Proof.Machine

/-! ### The final keyframe of a recording (R85, R88) -/

/-- The take finds no block for a further keyframe. -/
def takeIsFull (ts : TakeStore) (slot : Slot) : Prop :=
  (ts.dir.get slot).count % 128 = 0 ∧ (ts.dir.get slot).count ≠ 0 ∧ ((ts.dir.get slot).count = 8192 ∨ ts.free = [])

/-- A further keyframe of the take, sampled: the entry, the blocks and the waiting sample. -/
structure Samples (slot : Slot) (pose : Table Int 3) (ts t : TakeStore) : Prop where
  entry : ∃ more, t.dir.get slot = { ts.dir.get slot with
      count := (ts.dir.get slot).count + 1, blocks := (ts.dir.get slot).blocks ++ more } ∧
    (t.free ++ (t.dir.get slot).blocks).Perm (ts.free ++ (ts.dir.get slot).blocks)
  room : 1 ≤ (ts.dir.get slot).count → (ts.dir.get slot).count ≤ 128 * (ts.dir.get slot).blocks.length → hasKeyframe t slot (ts.dir.get slot).count
  others : ∀ k, k ≠ slot → t.dir.get k = ts.dir.get k
  waiting : t.waiting = ts.waiting ++ [{ index := (ts.dir.get slot).count, pose := pose }]
  pool : t.pool = ts.pool
  taint : t.taintTrip = ts.taintTrip

-- In place, so that the parts of the text are elaborated one after the other and not all at once.
set_option Elab.async false in
theorem sampleKeyframe_full {ts : TakeStore} {slot : Slot} (pose : Table Int 3) (h : takeIsFull ts slot) :
    sampleKeyframe slot pose ts = none := by
  obtain ⟨hmod, hne, hend⟩ := h
  simp only [sampleKeyframe]
  rw [if_pos (by simp [hmod, hne]), Option.map_eq_none_iff]
  by_cases hcount : (ts.dir.get slot).count = 8192
  · rw [if_pos hcount]
  · rw [if_neg hcount, allocateBlock, hend.resolve_left hcount]

/-- The count and the sample, once the room is there. -/
theorem samples_room {ts u : TakeStore} {slot : Slot} (pose : Table Int 3) {more : List Nat}
    (hentry : u.dir.get slot = { ts.dir.get slot with blocks := (ts.dir.get slot).blocks ++ more })
    (hfree : (u.free ++ (u.dir.get slot).blocks).Perm (ts.free ++ (ts.dir.get slot).blocks))
    (hroom : 1 ≤ (ts.dir.get slot).count → (ts.dir.get slot).count ≤ 128 * (ts.dir.get slot).blocks.length → hasKeyframe u slot (ts.dir.get slot).count)
    (hothers : ∀ k, k ≠ slot → u.dir.get k = ts.dir.get k) (hwaiting : u.waiting = ts.waiting) (hpool : u.pool = ts.pool)
    (htaint : u.taintTrip = ts.taintTrip) :
    Samples slot pose ts { setEntry slot { u.dir.get slot with count := (ts.dir.get slot).count + 1 } u with
      waiting := u.waiting ++ [{ index := (ts.dir.get slot).count, pose := pose }] } where
  entry := ⟨more, (setEntry_get_self _ _ _).trans (by rw [hentry]), by
    rw [show TakeEntry.blocks (Table.get _ slot) = _ from congrArg TakeEntry.blocks (setEntry_get_self _ _ _)]
    exact hfree⟩
  room hone h := by
    rw [hasKeyframe, show TakeEntry.blocks (Table.get _ slot) = _ from congrArg TakeEntry.blocks (setEntry_get_self _ _ _)]
    exact hroom hone h
  others k hk := (setEntry_get_ne hk _ _).trans (hothers k hk)
  waiting := by rw [hwaiting]
  pool := hpool
  taint := htaint

theorem sampleKeyframe_samples {ts : TakeStore} {slot : Slot} (pose : Table Int 3) (h : ¬ takeIsFull ts slot) :
    ∃ t, sampleKeyframe slot pose ts = some t ∧ Samples slot pose ts t := by
  by_cases hnew : (ts.dir.get slot).count % 128 = 0 ∧ (ts.dir.get slot).count ≠ 0
  · obtain ⟨hmod, hne⟩ := hnew
    have hcount : (ts.dir.get slot).count ≠ 8192 := fun hc => h ⟨hmod, hne, .inl hc⟩
    obtain ⟨b, rest, hfree⟩ := List.exists_cons_of_ne_nil fun hf => h ⟨hmod, hne, .inr hf⟩
    have hblock : allocateBlock slot ts = some { setEntry slot { ts.dir.get slot with
        blocks := (ts.dir.get slot).blocks ++ [b] } ts with free := rest } := by rw [allocateBlock, hfree]
    have hself : (setEntry slot { ts.dir.get slot with blocks := (ts.dir.get slot).blocks ++ [b] } ts).dir.get slot =
      { ts.dir.get slot with blocks := (ts.dir.get slot).blocks ++ [b] } := setEntry_get_self _ _ _
    refine ⟨_, ?_, samples_room pose (u := { setEntry slot { ts.dir.get slot with
        blocks := (ts.dir.get slot).blocks ++ [b] } ts with free := rest }) hself ?_ (fun hone hle => ?_)
        (fun k hk => setEntry_get_ne hk _ _) rfl rfl rfl⟩
    · simp only [sampleKeyframe]
      rw [if_pos (by simp [hmod, hne]), if_neg hcount, hblock]
      rfl
    · rw [show TakeEntry.blocks (Table.get _ slot) = _ from congrArg TakeEntry.blocks hself, hfree]
      show (rest ++ ((ts.dir.get slot).blocks ++ [b])).Perm (b :: (rest ++ (ts.dir.get slot).blocks))
      rw [← List.append_assoc]
      exact List.perm_append_singleton b _
    · rw [hasKeyframe, show TakeEntry.blocks (Table.get _ slot) = _ from congrArg TakeEntry.blocks hself]
      simp
      omega
  · refine ⟨_, ?_, samples_room pose (u := ts) (more := []) (by rw [List.append_nil]) (.refl _) (fun hone hle => ?_)
      (fun k hk => rfl) rfl rfl rfl⟩
    · simp only [sampleKeyframe]
      rw [if_neg (by simpa using hnew)]
      rfl
    · rw [hasKeyframe]
      omega

/-! ### The take that is closed (R86 to R88) -/

/-- What the end of a recording makes of the store: the entry, the blocks and the keyframes. -/
theorem closeRecording_closes (n : Nat) (slot : Slot) (cause : EndCause) (ts : TakeStore) :
    let t := closeRecording n slot cause ts
    t.dir.get slot = { ts.dir.get slot with state := .stored, endCause := some cause } ∧
      (∀ k, k ≠ slot → t.dir.get k = ts.dir.get k) ∧ t.waiting = [] ∧ t.taintTrip = ts.taintTrip ∧ t.free = ts.free ∧
      ∀ other k, readKeyframe t other k =
        readKeyframe (giveEnd n slot ((ts.dir.get slot).count - 1) (flushSamples n slot ts)) other k := by
  intro t
  obtain ⟨pool, heq⟩ := closeRecording_eq n slot cause ts
  have hself : t.dir.get slot = { ts.dir.get slot with state := .stored, endCause := some cause } := by
    rw [show t = _ from heq]
    exact setEntry_get_self _ _ _
  have hne : ∀ k, k ≠ slot → t.dir.get k = ts.dir.get k := fun k hk => by
    rw [show t = _ from heq]
    exact setEntry_get_ne hk _ _
  refine ⟨hself, hne, by rw [show t = _ from heq], by rw [show t = _ from heq]; rfl, by rw [show t = _ from heq]; rfl,
    fun other k => ?_⟩
  obtain ⟨pool', hflush⟩ := flushSamples_eq n slot ts
  obtain ⟨pool'', hend⟩ := giveEnd_eq n slot ((ts.dir.get slot).count - 1) (flushSamples n slot ts)
  have hdir : (giveEnd n slot ((ts.dir.get slot).count - 1) (flushSamples n slot ts)).dir = ts.dir := by rw [hend, hflush]
  refine readKeyframe_congr ?_ ?_
  · rw [hdir]
    by_cases ho : other = slot
    · subst ho
      rw [hself]
    · rw [hne other ho]
  · show (closeRecording n slot cause ts).pool = _
    simp only [closeRecording]
    rw [show (flushSamples n slot ts).dir = ts.dir by rw [hflush]]
    rfl

/-- The keyframes of a recording with its final sample, once all are written. -/
theorem Samples.records {ts t : TakeStore} {slot : Slot} {pose : Table Int 3} (hs : Samples slot pose ts t) (n : Nat)
    (h : StoreSound t) (hcount : 1 ≤ (ts.dir.get slot).count)
    (hroom : (ts.dir.get slot).count ≤ 128 * (ts.dir.get slot).blocks.length) :
    let u := flushSamples n slot t
    let k := (ts.dir.get slot).count
    Recorded ts u slot ∧ ∀ i, ((readKeyframe u slot k).get i).pos = pose.get i ∧
      (2 ≤ k → i.val < n → ((readKeyframe u slot (k - 1)).get i).vel =
        centralVelocity ((readKeyframe u slot (k - 2)).get i).pos ((readKeyframe u slot k).get i).pos
          (ts.dir.get slot).interval) := by
  intro u k
  obtain ⟨more, hentry, -⟩ := hs.entry
  have hlast := hs.room hcount hroom
  have hsame : ∀ j, j < k → readKeyframe t slot j = readKeyframe ts slot j := fun j hj => by
    refine readKeyframe_congr ?_ hs.pool
    rw [hentry]
    exact List.getElem?_append_left (by omega)
  have hother : ∀ other j, other ≠ slot → readKeyframe t other j = readKeyframe ts other j := fun other j ho =>
    readKeyframe_congr (by rw [hs.others other ho]) hs.pool
  generalize hw : ts.waiting.foldl (fun t x => recordSample n slot x t) t = w
  have hwsound : StoreSound w := hw ▸ foldl_recordSample_sound n slot ts.waiting h
  have hwdir : w.dir = t.dir := by
    obtain ⟨pool, heq⟩ := foldl_recordSample_eq n slot ts.waiting t
    rw [← hw, heq]
  have hu : ∀ other j, readKeyframe u other j =
      readKeyframe (recordSample n slot { index := k, pose := pose } w) other j := fun other j => by
    show readKeyframe (flushSamples n slot t) other j = _
    rw [flushSamples, hs.waiting, List.foldl_append, hw]
    rfl
  have hwlast : hasKeyframe w slot k := (hasKeyframe_congr hwdir slot k).mpr hlast
  have hwpos : ∀ j i, j < k → ((readKeyframe w slot j).get i).pos = recordedPos ts slot j i := fun j i hj => by
    rw [← hw, foldl_recordSample_pos n slot j i ts.waiting h (Nat.lt_trans hj hlast), recordedPos, recordedPos,
      readKeyframe_waiting, hsame j hj]
  have hflushed := flushSamples_records n h (slot := slot) (by rw [hentry]; rw [hasKeyframe, hentry] at hlast; exact hlast)
  have hat := recordSample_own hwsound n (slot := slot) (x := { index := k, pose := pose }) hwlast
  refine ⟨⟨hflushed.sound, by rw [hflushed.entry, hentry], fun j i hj => ?_, fun i hz => ?_, fun hnone j i hj => ?_,
    fun other j ho => ?_⟩, fun i => ⟨?_, fun h2 hi => ?_⟩⟩
  · rw [hu, recordSample_pos hwsound n slot _ slot j i (fun hjk => absurd hjk.2 (Nat.ne_of_lt hj))]
    exact hwpos j i hj
  · exact hflushed.start i (by rw [hsame 0 hcount]; exact hz)
  · rw [hu, recordSample_ne hwsound n (.inr ⟨Nat.ne_of_lt (Nat.lt_of_succ_lt hj), .inl (Nat.ne_of_lt hj)⟩), ← hw, hnone,
      ← hsame j (Nat.lt_of_succ_lt hj)]
    rfl
  · rw [hflushed.others other j ho, hother other j ho]
  · rw [hu, hat, poseKeyframe, Table.get_map]
  · have hcentral := recordSample_central hwsound (x := { index := k, pose := pose }) hwlast h2 hi
    have hbefore := recordSample_pos hwsound n slot { index := k, pose := pose } slot (k - 2) i
      (fun hk => by have := hk.2; simp only at this; omega)
    rw [hu, hu, hu, hat, hcentral, hbefore, poseKeyframe, Table.get_map, hwdir, hentry]

/-! ### WRAP of a recording (R88) -/

/-- What a WRAP makes of the store of a recording. -/
structure Wraps (s : State) (slot : Slot) (ts : TakeStore) : Prop where
  stored : (ts.dir.get slot).state = .stored
  others : ∀ k, k ≠ slot → ts.dir.get k = s.ts.dir.get k
  waiting : ts.waiting = []
  full : takeIsFull s.ts slot →
    (ts.dir.get slot).count = (entryOf s slot).count ∧ (ts.dir.get slot).endCause = some .storeFull
  final : ¬ takeIsFull s.ts slot →
    (ts.dir.get slot).count = (entryOf s slot).count + 1 ∧ (ts.dir.get slot).endCause = some .wrap
  blocks : (ts.free ++ (ts.dir.get slot).blocks).Perm (s.ts.free ++ (entryOf s slot).blocks)
  closes : RecordingStands s slot → ∀ t : State, t.ts = ts → RecordingCloses s t slot
  sample : RecordingStands s slot → ¬ takeIsFull s.ts slot → ∀ i,
    let at' := fun k => (readKeyframe ts slot k).get i
    let k := (entryOf s slot).count
    (at' k).pos = (encoderPose s).get i ∧ (2 ≤ k → configured s i = true → (at' (k - 1)).vel =
      centralVelocity (at' (k - 2)).pos (at' k).pos (entryOf s slot).interval)

theorem closeRecording_wraps_full {s : State} {slot : Slot} (hfull : takeIsFull s.ts slot) :
    Wraps s slot (closeRecording s.cl.cfg.axisCount slot .storeFull s.ts) := by
  obtain ⟨hself, hothers, hwaiting, -, hfree, hread⟩ := closeRecording_closes s.cl.cfg.axisCount slot .storeFull s.ts
  exact {
    stored := by rw [hself]
    others := hothers
    waiting := hwaiting
    full := fun _ => by rw [hself]; exact ⟨rfl, rfl⟩
    final := fun hno => absurd hfull hno
    blocks := by rw [hself, hfree]; exact .refl _
    closes := fun hstands t ht => by
      obtain ⟨hone, hle⟩ := hstands.room
      have hrecorded := flushSamples_records s.cl.cfg.axisCount (hstands.blocks.sound hstands.pool) hle
      obtain ⟨pool, hflush⟩ := flushSamples_eq s.cl.cfg.axisCount slot s.ts
      refine hrecorded.closes hrecorded.sound ?_ rfl (fun _ _ => rfl) (fun _ _ _ => rfl)
        (fun other k => by rw [ht]; exact hread other k) ?_
      · rw [hasKeyframe, hflush]
        exact Nat.lt_of_lt_of_le (Nat.sub_lt hone Nat.one_pos) hle
      · rw [entryOf, ht, hself]
        exact (Nat.sub_add_cancel hone).symm
    sample := fun _ hno => absurd hfull hno }

theorem closeRecording_wraps {s : State} {slot : Slot} {ts : TakeStore} (hfull : ¬ takeIsFull s.ts slot)
    (hsample : sampleKeyframe slot (encoderPose s) s.ts = some ts) (hs : Samples slot (encoderPose s) s.ts ts) :
    Wraps s slot (closeRecording s.cl.cfg.axisCount slot .wrap ts) := by
  obtain ⟨hself, hothers, hwaiting, -, hfree, hread⟩ := closeRecording_closes s.cl.cfg.axisCount slot .wrap ts
  obtain ⟨more, hentry, hperm⟩ := hs.entry
  have hsound : RecordingStands s slot → StoreSound ts := fun hstands =>
    ⟨((sampleKeyframe_shared hstands.blocks hsample).1.conserved.nodup_iff.mpr allBlocks_nodup).of_append_right,
      hs.pool ▸ hstands.pool⟩
  have hcount : (ts.dir.get slot).count - 1 = (entryOf s slot).count := by rw [hentry]; rfl
  exact {
    stored := by rw [hself]
    others := fun k hk => (hothers k hk).trans (hs.others k hk)
    waiting := hwaiting
    full := fun hyes => absurd hyes hfull
    final := fun _ => by rw [hself, hentry]; exact ⟨rfl, rfl⟩
    blocks := by rw [hself, hfree]; exact hperm
    closes := fun hstands t ht => by
      obtain ⟨hone, hle⟩ := hstands.room
      obtain ⟨hrecorded, -⟩ := hs.records s.cl.cfg.axisCount (hsound hstands) hone hle
      obtain ⟨pool, hflush⟩ := flushSamples_eq s.cl.cfg.axisCount slot ts
      refine hrecorded.closes hrecorded.sound ?_ rfl (fun _ _ => rfl) (fun _ _ _ => rfl)
        (fun other k => by rw [ht, hread other k, hcount]) ?_
      · rw [hasKeyframe_congr (by rw [hflush])]
        exact hs.room hone hle
      · rw [entryOf, ht, hself, hentry]
        rfl
    sample := fun hstands _ i => by
      obtain ⟨hone, hle⟩ := hstands.room
      obtain ⟨hrecorded, hat⟩ := hs.records s.cl.cfg.axisCount (hsound hstands) hone hle
      obtain ⟨hpos, hvel⟩ := hat i
      have hends := fun j => giveEnd_pos hrecorded.sound s.cl.cfg.axisCount slot (entryOf s slot).count slot j i
      refine ⟨?_, fun h2 hc => ?_⟩
      · show ((readKeyframe _ slot _).get i).pos = _
        rw [hread, hcount, hends]
        exact hpos
      · show ((readKeyframe _ slot _).get i).vel = centralVelocity ((readKeyframe _ slot _).get i).pos
          ((readKeyframe _ slot _).get i).pos _
        rw [hread, hread, hread, hcount, hends, hends,
          giveEnd_ne hrecorded.sound (by rintro ⟨-, hk⟩; rw [entryOf] at hk h2; omega)]
        exact hvel h2 ((configured_iff s i).mp hc) }

/-! ### WRAP in a playback, and in every other mode (R111, R181) -/

theorem ChangesOnly.foldl {α : Type} {bs : List Block} {f : State → α → State} (h : ∀ u a, ChangesOnly bs u (f u a)) :
    ∀ (l : List α) (s : State), ChangesOnly bs s (l.foldl f s)
  | [], s => .refl _ s
  | a :: l, s => (h s a).trans (ChangesOnly.foldl h l (f s a))

/-- The end of the punches in OVERRIDE touches the punch records and the keyframes that they fix up. -/
theorem endPunches_ends (s : State) : ChangesOnly [.ax, .ts] s (endPunches s) ∧ (endPunches s).ax.ch = s.ax.ch ∧
    ∀ i, (axisCh s i).state = .override → punchesEnded i (endPunches s) := by
  have hstep : ∀ (u : State) (i : Axis), ChangesOnly [.ax, .ts] u (if (axisCh u i).state = .override then endPunch i u else u) :=
    fun u i => .ite (fun _ => by simp [changesOnly_iff]) fun _ => .refl _ _
  have hch : ∀ (u : State) (i : Axis), (if (axisCh u i).state = .override then endPunch i u else u).ax.ch = u.ax.ch :=
    fun u i => by split <;> simp
  refine ⟨ChangesOnly.foldl hstep allAxes s, ?_, fun i hi => ?_⟩
  · exact foldl_keeps (fun u => u.ax.ch) _ hch allAxes s
  · refine foldl_brings (fun u i => if (axisCh u i).state = .override then endPunch i u else u)
      (fun u => u.ax.ch = s.ax.ch) (punchesEnded i) i (fun u a _ hu => (hch u a).trans hu) (fun u hu => ?_)
      (fun u a hu => ?_) allAxes (mem_allAxes i) s rfl
    · rw [if_pos (by rw [axisCh, hu]; exact hi)]
      exact endPunch_ends i u
    · split
      · exact endPunch_keeps a hu
      · exact hu

theorem wrap_meets {s s1 : State} {c : Command} (h : Delivered pickWrap s c () s1) :
    exec .wrap s = .next (answerDone c (wrapStation s1)) := congrArg Host.Outcome.next (withCommand_noEarly h)

/-- Under WRAP-pending the local ceiling is 0. -/
theorem localCeiling_wrapPending {s : State} (h : wrapPending s = true) : localCeiling s = 0 := by
  rw [localCeiling, h, Bool.or_true]
  rfl

/-- The modes from which a WRAP takes the station to IDLE at once, with no keyframe to sample. -/
def wrapsAtOnce (s : State) : Prop :=
  s.tc.mode = .cueing ∨ s.tc.mode = .ready ∨ s.tc.mode = .armed ∨ s.tc.mode = .recovering ∨
    s.tc.mode = .rolling ∨ s.tc.mode = .halted ∨
    ((s.tc.mode = .playing ∨ s.tc.mode = .held) ∧ s.pu.r = 0 ∧ wrapPending s = false)

theorem wrapStation_playback {s : State} (h : s.tc.mode = .playing ∨ s.tc.mode = .held) :
    wrapStation s = wrapPlayback s := by
  rw [wrapStation]
  rcases h with h | h <;> rw [h]

/-- A WRAP that returns to IDLE at once does so from a state with the same channels, with the window cancelled in
ROLLING. -/
theorem wrapStation_atOnce {s : State} (h : wrapsAtOnce s) :
    ∃ v, wrapStation s = returnToIdle v ∧ ChangesOnly [.ax, .ts, .tc] s v ∧ v.ax.ch = s.ax.ch ∧
      v.tc.roll.result = if s.tc.mode = .rolling then .cancelled .wrap else s.tc.roll.result := by
  have hplain : (wrapStation s = returnToIdle s ∧ s.tc.mode ≠ .rolling) →
      ∃ v, wrapStation s = returnToIdle v ∧ ChangesOnly [.ax, .ts, .tc] s v ∧ v.ax.ch = s.ax.ch ∧
        v.tc.roll.result = if s.tc.mode = .rolling then .cancelled .wrap else s.tc.roll.result :=
    fun ⟨hw, hm⟩ => ⟨s, hw, .refl _ s, rfl, (if_neg hm).symm⟩
  rcases h with h | h | h | h | h | h | ⟨hplay, hr, hpending⟩
  · exact hplain (by rw [wrapStation, h]; exact ⟨rfl, nofun⟩)
  · exact hplain (by rw [wrapStation, h]; exact ⟨rfl, nofun⟩)
  · exact hplain (by rw [wrapStation, h]; exact ⟨rfl, nofun⟩)
  · exact hplain (by rw [wrapStation, h]; exact ⟨rfl, nofun⟩)
  · refine ⟨s.setTc { s.tc with roll := { s.tc.roll with window := none, result := .cancelled .wrap } }, ?_,
      changesOnly_tc (by decide), rfl, (if_pos h).symm⟩
    rw [wrapStation, h]
  · exact hplain (by rw [wrapStation, h]; exact ⟨rfl, nofun⟩)
  · obtain ⟨hends, hch, -⟩ := endPunches_ends s
    have hpu : (endPunches s).pu = s.pu := hends.1 .pu (by decide)
    have htc : (endPunches s).tc = s.tc := hends.1 .tc (by decide)
    have hne : s.tc.mode ≠ .rolling := by rcases hplay with h | h <;> rw [h] <;> exact nofun
    refine ⟨modContext (fun c => { c with wrapPending := true }) (endPunches s), ?_,
      (hends.mono (by decide)).trans (changesOnly_tc (by decide)), hch, ?_⟩
    · rw [wrapStation_playback hplay, wrapPlayback, hpending, if_neg (by decide)]
      exact if_pos ((congrArg PaceUnit.r hpu).trans hr)
    · rw [if_neg hne, modContext, setTc_tc, htc]

/-- A WRAP in a playback at a rate above 0: WRAP is pending, and the punches in OVERRIDE end. -/
theorem wrapStation_pending {s : State} {x : PlayContext} (hplay : s.tc.mode = .playing ∨ s.tc.mode = .held)
    (hctx : s.tc.ctx = some x) (hpending : x.wrapPending = false) (hr : s.pu.r ≠ 0) :
    let t := wrapStation s
    t.tc = { s.tc with ctx := some { x with wrapPending := true } } ∧ t.fd = s.fd ∧ localCeiling t = 0 ∧ t.pu.r = s.pu.r ∧
      t.ax.ch = s.ax.ch ∧ ∀ i, (axisCh s i).state = .override → punchesEnded i t := by
  intro t
  obtain ⟨hends, hch, hpunch⟩ := endPunches_ends s
  have hpu : (endPunches s).pu = s.pu := hends.1 .pu (by decide)
  have htc : (endPunches s).tc = s.tc := hends.1 .tc (by decide)
  generalize hv : modContext (fun c => { c with wrapPending := true }) (endPunches s) = v
  have hvtc : v.tc = { s.tc with ctx := some { x with wrapPending := true } } := by
    rw [← hv, modContext, setTc_tc, htc, hctx]
    rfl
  have ht : t = announce v := by
    have hnot : wrapPending s = false := by rw [wrapPending, hctx]; exact hpending
    simp only [t]
    rw [wrapStation_playback hplay, wrapPlayback, hnot, if_neg (by decide), ← hv]
    exact if_neg fun h => hr ((congrArg PaceUnit.r hpu).symm.trans h)
  clear_value t
  obtain ⟨hann, a, n, hannounced⟩ := announce_changes v
  have htt : t.tc = v.tc := by rw [ht]; exact hann.1 .tc (by decide)
  have hvax : v.ax = (endPunches s).ax := by rw [← hv, modContext_ax]
  have hvfd : v.fd = (endPunches s).fd := by rw [← hv, modContext_fd]
  have hvpu : v.pu = (endPunches s).pu := by rw [← hv, modContext_pu]
  have hax : t.ax = (endPunches s).ax := ht ▸ Eq.trans (hann.1 .ax (by decide)) hvax
  refine ⟨htt.trans hvtc, ?_, ?_, ?_, by rw [hax]; exact hch, fun i hi => ?_⟩
  · rw [ht, show (announce v).fd = v.fd from hann.1 .fd (by decide), hvfd]
    exact hends.1 .fd (by decide)
  · exact localCeiling_wrapPending (by rw [wrapPending, htt, hvtc])
  · rw [ht, hannounced, hvpu, hpu]
  · rw [punchesEnded, hax]
    exact hpunch i hi

theorem wrapRecording_wraps (c : PlayContext) (s : State) : ∃ ts, wrapRecording c s = s.setTs ts ∧ Wraps s c.take ts := by
  by_cases hfull : takeIsFull s.ts c.take
  · exact ⟨_, by rw [wrapRecording, sampleKeyframe_full _ hfull], closeRecording_wraps_full hfull⟩
  · obtain ⟨ts, hsample, hs⟩ := sampleKeyframe_samples (encoderPose s) hfull
    exact ⟨_, by rw [wrapRecording, hsample], closeRecording_wraps hfull hsample hs⟩

/-- What a WRAP makes of a recording depends on no frame. -/
theorem Wraps.of_setLc {s : State} {lc : LineController} {slot : Slot} {ts : TakeStore} (h : Wraps (s.setLc lc) slot ts) :
    Wraps s slot ts where
  stored := h.stored
  others := h.others
  waiting := h.waiting
  full := h.full
  final := h.final
  blocks := h.blocks
  closes hstands t ht :=
    have hcloses := h.closes ⟨hstands.blocks, hstands.pool, hstands.room, hstands.unpunched⟩ t ht
    ⟨hcloses.positions, hcloses.endVelocity, hcloses.alone, hcloses.velocities, hcloses.others⟩
  sample hstands := h.sample ⟨hstands.blocks, hstands.pool, hstands.room, hstands.unpunched⟩

theorem wrapStation_recording {s : State} {x : PlayContext} (hmode : s.tc.mode = .recording) (hctx : s.tc.ctx = some x)
    (htaint : s.ts.taintTrip = none) :
    ∃ ts, wrapStation s = returnToIdle (s.setTs ts) ∧ Wraps s x.take ts := by
  obtain ⟨ts, hts, hwraps⟩ := wrapRecording_wraps x s
  refine ⟨ts, ?_, hwraps⟩
  rw [wrapStation, hmode]
  simp only [hctx]
  rw [if_neg (not_not_intro htaint), hts]

/-- What a WRAP leaves alone in every mode. -/
theorem wrapStation_keeps (s : State) :
    (wrapStation s).gu = s.gu ∧ (wrapStation s).cl = s.cl ∧ (wrapStation s).pending = s.pending := by
  have hreturn : ∀ v : State, v.gu = s.gu → v.cl = s.cl → v.pending = s.pending →
      (returnToIdle v).gu = s.gu ∧ (returnToIdle v).cl = s.cl ∧ (returnToIdle v).pending = s.pending :=
    fun v hgu hcl hpending => ⟨(returnToIdle_gu v).trans hgu, (returnToIdle_cl v).trans hcl,
      (returnToIdle_pending v).trans hpending⟩
  have hplayback : (wrapPlayback s).gu = s.gu ∧ (wrapPlayback s).cl = s.cl ∧ (wrapPlayback s).pending = s.pending := by
    obtain ⟨hends, -, -⟩ := endPunches_ends s
    have hv : ChangesOnly [.ax, .ts, .tc] s (modContext (fun c => { c with wrapPending := true }) (endPunches s)) :=
      (hends.mono (by decide)).trans (changesOnly_tc (by decide))
    rw [wrapPlayback]
    dsimp only
    split
    · exact ⟨rfl, rfl, rfl⟩
    · split
      · exact hreturn _ (hv.1 .gu (by decide)) (hv.1 .cl (by decide)) hv.2
      · have hann := (announce_changes (modContext (fun c => { c with wrapPending := true }) (endPunches s))).1
        exact ⟨(hann.1 .gu (by decide)).trans (hv.1 .gu (by decide)), (hann.1 .cl (by decide)).trans (hv.1 .cl (by decide)),
          hann.2.trans hv.2⟩
  rw [wrapStation]
  split
  · exact ⟨rfl, rfl, rfl⟩
  · exact ⟨rfl, rfl, rfl⟩
  · exact ⟨rfl, rfl, rfl⟩
  · exact hreturn _ rfl rfl rfl
  · split
    · exact hreturn _ rfl rfl rfl
    · next c _ =>
      split
      · exact ⟨rfl, rfl, rfl⟩
      · obtain ⟨ts, hts, -⟩ := wrapRecording_wraps c s
        rw [hts]
        exact hreturn _ rfl rfl rfl
  · exact hplayback
  · exact hplayback
  · exact hreturn _ rfl rfl rfl

/-- Settles O38: a WRAP by mode, and the final keyframe with the take that it closes. -/
theorem wrapEndsTheTake : Obligations.WrapEndsTheTake := by
  refine ⟨fun s s1 c h => ?_, fun s s1 c x h hmode hctx htaint => ?_⟩
  · have hmeets := wrap_meets h
    obtain ⟨hgu, hcl, hpending⟩ := wrapStation_keeps s1
    obtain ⟨q, rfl⟩ := h.onlyQueue
    refine ⟨_, hmeets, hgu, hcl, hpending, fun hidle => ?_, fun honce => ?_, fun x hplay hctx hnot hr => ?_⟩
    · rw [wrapStation, setLc_tc, hidle]
    · obtain ⟨v, hv, hchanges, hch, hresult⟩ := wrapStation_atOnce (s := s.setLc { s.lc with rxq := q }) honce
      obtain ⟨htc, hfd, hr, hown⟩ := returnToIdle_idle v
      have hsu : v.su = s.su := hchanges.1 .su (by decide)
      have hvfd : v.fd = s.fd := hchanges.1 .fd (by decide)
      rw [hv, htc, hfd]
      refine ⟨rfl, rfl, rfl, rfl, rfl, hr, hown, fun hi => ?_, fun hm => hresult.trans (if_neg hm), fun hm => hresult.trans (if_pos hm)⟩
      refine (returnToIdle_returns (s := v) (by rw [hsu]; exact hi.effective) (by rw [hsu]; exact hi.mismatch)).congr
        hch.symm (hchanges.1 .lmu (by decide)).symm ?_ ?_ (.refl _ _)
      · rw [hvfd]
      · rw [hsu]
    · exact wrapStation_pending (s := s.setLc { s.lc with rxq := q }) hplay hctx hnot hr
  · have hmeets := wrap_meets h
    obtain ⟨q, rfl⟩ := h.onlyQueue
    obtain ⟨ts, hidle, hwraps'⟩ := wrapStation_recording (s := s.setLc { s.lc with rxq := q }) hmode hctx htaint
    have hwraps := hwraps'.of_setLc
    rw [hidle] at hmeets
    obtain ⟨htc, -, -, -⟩ := returnToIdle_idle ((s.setLc { s.lc with rxq := q }).setTs ts)
    obtain ⟨⟨pool, hpool⟩, hunpunched⟩ := fixesUp_returnToIdle (s := (s.setLc { s.lc with rxq := q }).setTs ts)
      (by rw [setTs_tc, setLc_tc, hmode]; decide) fun c' hc' => by
        obtain rfl : x = c' := Option.some.inj (hctx.symm.trans hc')
        rw [entryOf, setTs_ts, hwraps.stored]
        exact nofun
    have hanswer := answerDone_changesOnly c (returnToIdle ((s.setLc { s.lc with rxq := q }).setTs ts))
    have htts : (answerDone c (returnToIdle ((s.setLc { s.lc with rxq := q }).setTs ts))).ts = { ts with pool := pool } :=
      (hanswer.1 .ts (by decide)).trans hpool
    have httc : (answerDone c (returnToIdle ((s.setLc { s.lc with rxq := q }).setTs ts))).tc = _ :=
      (hanswer.1 .tc (by decide)).trans htc
    have hreturns : ClaimsInv s → ReturnsToIdle s (answerDone c (returnToIdle ((s.setLc { s.lc with rxq := q }).setTs ts))) :=
      fun hi => (returnToIdle_returns (s := (s.setLc { s.lc with rxq := q }).setTs ts) hi.effective hi.mismatch).congr
        rfl rfl rfl rfl (hanswer.mono (by decide))
    have hsame : RecordingStands s x.take →
        (answerDone c (returnToIdle ((s.setLc { s.lc with rxq := q }).setTs ts))).ts = ts := fun hstands =>
      (hanswer.1 .ts (by decide)).trans (hunpunched fun i => by
        obtain ⟨ho, hr⟩ := hstands.unpunched i
        rw [axisCh] at ho hr ⊢
        simp [punchedState, ho, hr]).1
    generalize answerDone c (returnToIdle ((s.setLc { s.lc with rxq := q }).setTs ts)) = t at *
    have hentry : entryOf t x.take = ts.dir.get x.take := by rw [entryOf, htts]
    refine ⟨t, hmeets, hreturns, by rw [htts]; exact hwraps.waiting, by rw [httc], by rw [httc],
      fun k hk => by rw [htts]; exact hwraps.others k hk, by rw [hentry]; exact hwraps.stored,
      ⟨by rw [hentry]; exact hwraps.full, by rw [hentry]; exact hwraps.final,
        fun hstands => ⟨hwraps.closes hstands t (hsame hstands), fun hno => ?_⟩⟩, by rw [hentry, htts]; exact hwraps.blocks⟩
    rw [hsame hstands]
    exact hwraps.sample hstands hno

end Sys2Proof.Machine
end


section
/-! PROOFS. The stop table: what a written entry makes of the class, and the frames that write one. -/

namespace Sys2Proof.Machine

/-! ### The class stays formed (R161) -/

/-- The class is the one formed, over a stop table. -/
def FormedOver (entries : Table StopEntry 16) (s : State) : Prop :=
  s.su.effective = formEffective s.su ∧ s.su.entries = entries

-- In place, so that the parts of the text are elaborated one after the other and not all at once.
set_option Elab.async false in
theorem FormedOver.congr {entries : Table StopEntry 16} {s t : State} (h : FormedOver entries s) (hsu : t.su = s.su) :
    FormedOver entries t := by
  rw [FormedOver, hsu]
  exact h

theorem FormedOver.takeClass {entries : Table StopEntry 16} {s : State} (h : FormedOver entries s) (old : Cls)
    (trip : TakeTime) : FormedOver entries (takeClass old trip s) := by
  rw [FormedOver, (takeClass_blocks old trip s).1]
  exact h

theorem FormedOver.changeOwn {entries : Table StopEntry 16} {s : State} (h : FormedOver entries s) (raised : Bool) (c : Cause)
    (own : List Claim) : FormedOver entries (changeOwn raised c own s) := by
  obtain ⟨-, heff, -, hline, hentries⟩ := changeOwn_changes raised c own s
  refine ⟨heff.trans ?_, hentries.trans h.2⟩
  simp only [formEffective, ownClass, tableClass, hline, hentries, changeOwn_own]

theorem FormedOver.releaseKey {entries : Table StopEntry 16} {s : State} (h : FormedOver entries s) (c : Cause) :
    FormedOver entries (releaseKey c s) :=
  releaseKey_cases (P := FormedOver entries) (fun _ => h) ((h.changeOwn _ _ _).congr (announce_su _))
    fun _ => (h.changeOwn _ _ _).takeClass _ _

theorem FormedOver.returnToIdle {entries : Table StopEntry 16} {s : State} (h : FormedOver entries s) :
    FormedOver entries (returnToIdle s) :=
  FormedOver.releaseKey (h.congr (beforeRelease_blocks s).1) .peerMismatch

theorem FormedOver.classFormed {entries : Table StopEntry 16} {s : State} (h : FormedOver entries s) (old : Cls)
    (trip : TakeTime) : FormedOver entries (classFormed old trip s) := by
  rcases classFormed_forms old trip s with hform | hform | ⟨-, hform⟩
  · rw [hform]
    exact h
  · rw [hform]
    exact h.takeClass old trip
  · rw [hform]
    have htake := h.takeClass old trip
    refine modeOnRise_cases (P := FormedOver entries) htake htake.returnToIdle (htake.congr (by simp)) ?_
    simp only [enterHalted]
    split
    · exact FormedOver.returnToIdle (htake.congr (by simp))
    · exact htake.congr (by simp)

/-! ### A fall of the class (R47, R168) -/

/-- What a fall makes of a SEVERED channel, and of one that brakes. -/
theorem classChannel_falls (cfg : NodeConfig) {old new : Cls} (c : AxisChannel) (h : clsRank new < clsRank old) :
    (c.state = .severed → (classChannel cfg old new c).state = (if new = .halt then .braking else .rest) ∧
        (classChannel cfg old new c).v8 = 0 ∧ (classChannel cfg old new c).p8 = c.p8) ∧
      (clsGe old .halt → ¬ clsGe new .halt → c.state = .braking →
        (classChannel cfg old new c).state = (if c.v8 = 0 then .rest else .braking) ∧
          (classChannel cfg old new c).v8 = c.v8 ∧ (classChannel cfg old new c).p8 = c.p8) := by
  obtain ⟨st, ctrl, p8, v8⟩ := c
  have hsever : new ≠ .sever := by rintro rfl; cases old <;> exact absurd h (by decide)
  constructor
  · rintro rfl
    cases new with
    | none => exact ⟨rfl, rfl, rfl⟩
    | hold => exact ⟨rfl, rfl, rfl⟩
    | halt => exact ⟨rfl, rfl, rfl⟩
    | sever => exact absurd rfl hsever
  · rintro hold hnew rfl
    by_cases hv : v8 = 0
    · cases new with
      | none => rw [classChannel.eq_def]; simp [hold, hv, enterRest]
      | hold => rw [classChannel.eq_def]; simp [hold, hv, enterRest]
      | halt => exact absurd (by decide) hnew
      | sever => exact absurd rfl hsever
    · cases new with
      | none => rw [classChannel.eq_def]; simp [hv]
      | hold => rw [classChannel.eq_def]; simp [hv]
      | halt => exact absurd (by decide) hnew
      | sever => exact absurd rfl hsever

theorem classFormed_falls {old : Cls} {trip : TakeTime} {s : State} (hne : s.su.effective ≠ old)
    (h : ¬ clsRank old < clsRank s.su.effective) : classFormed old trip s = takeClass old trip s := by
  simp only [classFormed]
  rw [if_neg hne, if_neg]
  rw [(takeClass_blocks old trip s).1]
  exact h

/-- The blocks take a class that is below the old one. -/
theorem takeClass_falls {s0 s : State} {trip : TakeTime} {new : Cls} (hax : s.ax = s0.ax) (htc : s.tc = s0.tc)
    (hfd : s.fd = s0.fd) (hpu : s.pu = s0.pu) (hl : s.su.driveLatch = s0.su.driveLatch) (hnew : s.su.effective = new)
    (hlt : clsRank new < clsRank s0.su.effective) : ClassFalls new s0 (takeClass s0.su.effective trip s) := by
  obtain ⟨bsu, ⟨a, n, bpu⟩, bch, -⟩ := takeClass_blocks s0.su.effective trip s
  obtain ⟨btc, bfd⟩ := takeClass_others s0.su.effective trip s
  have hsever : new ≠ .sever := by
    rintro rfl
    cases h : s0.su.effective <;> rw [h] at hlt <;> exact absurd hlt (by decide)
  have hdrop : dropRates s0.su.effective s = s := by
    rw [dropRates, if_neg]
    rw [hnew]
    exact fun h => absurd h.2 (Nat.not_lt.mpr (Nat.le_of_lt hlt))
  rw [hdrop, hpu] at bpu
  have hch : ∀ i, axisCh (takeClass s0.su.effective trip s) i =
      keptChannel (if s.su.effective = .sever then false else s.su.driveLatch)
        (classChannel s.cl.cfg s0.su.effective new (axisCh s0 i)) := fun i => by
    rw [bch i, hnew, axisCh, hax]
    rfl
  refine ⟨by rw [bsu]; exact hnew, ⟨btc.trans htc, bfd.trans hfd, by rw [bpu], by rw [bpu], by rw [bpu], by rw [bpu], ?_⟩,
    fun i hi => ?_, fun hold hbelow i hi => ?_⟩
  · rw [bsu, hnew]
    exact (if_neg hsever).trans hl
  · rw [hch i]
    exact (classChannel_falls s.cl.cfg (axisCh s0 i) hlt).1 hi
  · rw [hch i]
    exact (classChannel_falls s.cl.cfg (axisCh s0 i) hlt).2 hold hbelow hi

/-! ### An entry written (R164) -/

/-- A claim of the node does not raise the class above the one that stands; a class above it comes from the table, and
stays without the mismatch claim. -/
theorem formEffective_table {su : StopUnit} (heff : su.effective = formEffective su) {entries : Table StopEntry 16} {new : Cls}
    (hnew : formEffective { su with entries := entries } = new) (hlt : clsRank su.effective < clsRank new)
    (own : List Claim) (hown : ∀ k ∈ own, k ∈ su.own) :
    formEffective { su with entries := entries, own := own } = new := by
  obtain ⟨hall, -, hline⟩ := (formEffective_le (clsRank su.effective) su).mp (by rw [heff])
  have hle := fun n => formEffective_le n { su with entries := entries }
  have hle' := fun n => formEffective_le n { su with entries := entries, own := own }
  rw [hnew] at hle
  refine clsRank_inj (Nat.le_antisymm ?_ ?_)
  · obtain ⟨h1, h2, h3⟩ := (hle (clsRank new)).mp (Nat.le_refl _)
    exact (hle' _).mpr ⟨fun k hk => h1 k (hown k hk), h2, h3⟩
  · obtain ⟨-, h2, h3⟩ := (hle' _).mp (Nat.le_refl _)
    have hup := Nat.le_max_left (clsRank (formEffective { su with entries := entries, own := own })) (clsRank su.effective)
    have hmax := (hle (max (clsRank (formEffective { su with entries := entries, own := own })) (clsRank su.effective))).mpr
      ⟨fun k hk => (hall k hk).trans (Nat.le_max_right _ _), h2.trans hup, h3.trans hup⟩
    omega

/-- What a written entry of the stop table makes of the node, seen from a state that differs in frames and peers. -/
theorem writeStopEntry_writes {s0 s : State} (n : Station) (e : StopEntry) (trip : TakeTime)
    (h : ChangesOnly [.lc, .pt] s0 s) :
    let t := writeStopEntry n e trip s
    let entries := s0.su.entries.set n e
    let new := formEffective { s0.su with entries := entries }
    FormedOver entries t ∧ (ClaimsInv s0 → clsRank s0.su.effective < clsRank new → ClassRises new trip s0 t) ∧
      (clsRank new < clsRank s0.su.effective → ClassFalls new s0 t) ∧
      (new = s0.su.effective → ChangesOnly [.su] s t ∧ t.su = { s0.su with entries := entries }) := by
  intro t entries new
  have hsu : s.su = s0.su := h.1 .su (by decide)
  generalize hu : formClass (s.setSu { s.su with entries := s.su.entries.set n e }) = u
  have husu : u.su = { s0.su with entries := entries, effective := new } := by
    rw [← hu, ← hsu]
    simp only [new, entries, ← hsu]
    rfl
  have hus : ChangesOnly [.su] s u := hu ▸ (changesOnly_su (.head _)).trans (changesOnly_su (.head _))
  have h0u : ChangesOnly [.lc, .pt, .su] s0 u := (h.mono (by decide)).trans (hus.mono (by decide))
  have ht : t = classFormed s0.su.effective trip u := by
    rw [← hu, ← hsu]
    rfl
  have heff : u.su.effective = new := by rw [husu]
  have hformed : FormedOver entries u := ⟨by rw [husu]; rfl, by rw [husu]⟩
  refine ⟨ht ▸ hformed.classFormed _ _, fun hi hlt => ?_, fun hlt => ?_, fun hsame => ?_⟩
  · rw [ht]
    refine classFormed_rises (h0u.1 .ax (by decide)) (h0u.1 .tc (by decide)) (h0u.1 .fd (by decide)) (h0u.1 .pu (by decide))
      (h0u.1 .ts (by decide)) (h0u.1 .cl (by decide)) (by rw [husu]) heff hlt fun _ => ?_
    rw [husu]
    exact formEffective_table hi.effective rfl hlt _ fun k hk => List.mem_of_mem_filter hk
  · have hne : u.su.effective ≠ s0.su.effective := by rw [heff]; rintro hn; rw [hn] at hlt; exact Nat.lt_irrefl _ hlt
    rw [ht, classFormed_falls hne (by rw [heff]; exact Nat.not_lt.mpr (Nat.le_of_lt hlt))]
    exact takeClass_falls (h0u.1 .ax (by decide)) (h0u.1 .tc (by decide)) (h0u.1 .fd (by decide)) (h0u.1 .pu (by decide))
      (by rw [husu]) heff hlt
  · have hclass : classFormed s0.su.effective trip u = u := if_pos (heff.trans hsame)
    rw [ht, hclass, husu, hsame]
    exact ⟨hus, rfl⟩

/-! ### STOP-CLAIM and STOP-RELEASE (R25, R164) -/

theorem writeStopEntry_entries (n : Station) (e : StopEntry) (trip : TakeTime) (s : State) :
    (writeStopEntry n e trip s).pt.entries = s.pt.entries := classFormed_entries _ _ _

theorem peer_setPeer_self (n : Station) (e : PeerEntry) (s : State) : peer (setPeer n e s) n = e := Table.get_set_self _ _ _

theorem peer_setPeer_ne {n m : Station} (h : m ≠ n) (e : PeerEntry) (s : State) : peer (setPeer n e s) m = peer s m :=
  Table.get_set_ne _ h.symm _

/-- The frames that may write the stop table. -/
theorem writesStopTable_iff (s : State) (e : RxEntry) : writesStopTable s e = true ↔
    e.own = false ∧ e.sender ≠ s.cl.station ∧ (peer s e.sender).liveness ≠ .silent := by
  simp [writesStopTable, and_assoc]

theorem frameTrip_eq (s : State) (e : RxEntry) (time : TakeTime) (flag : Bool) : frameTrip s e time flag =
    if flag = true ∧ isParticipant s e.sender = true then time else e.mark.time := by
  rw [frameTrip]
  exact if_congr Bool.and_eq_true_iff rfl rfl

/-- What a frame makes of the stop table and the class, seen from the state before its sender's peer entry is
written. -/
theorem stopTakes_takes {s0 s : State} {e : RxEntry} (cls : BitVec 2) (time : TakeTime) (flag : Bool)
    (h : ChangesOnly [.lc, .pt] s0 s) (hlive : (peer s e.sender).liveness = (peer s0 e.sender).liveness) :
    let t := stopTakes e cls time flag s
    let writes := e.own = false ∧ e.sender ≠ s0.cl.station ∧ (peer s0 e.sender).liveness ≠ .silent
    let entries := s0.su.entries.set e.sender { cls := clsOf cls, time := time, timeFlag := flag }
    let new := formEffective { s0.su with entries := entries }
    let trip := if flag = true ∧ isParticipant s0 e.sender = true then time else e.mark.time
    t.pt.entries = s.pt.entries ∧ t.gu = s0.gu ∧ t.cl = s0.cl ∧ t.pending = s0.pending ∧ (¬ writes → t = s) ∧
      (writes → FormedOver entries t ∧ (ClaimsInv s0 → clsRank s0.su.effective < clsRank new → ClassRises new trip s0 t) ∧
        (clsRank new < clsRank s0.su.effective → ClassFalls new s0 t) ∧
        (new = s0.su.effective → ChangesOnly [.su] s t ∧ t.su = { s0.su with entries := entries })) := by
  intro t writes entries new trip
  have hwrites : writesStopTable s e = true ↔ writes := by
    rw [writesStopTable_iff, hlive, show s.cl = s0.cl from h.1 .cl (by decide)]
  have hgu : s.gu = s0.gu := h.1 .gu (by decide)
  have hcl : s.cl = s0.cl := h.1 .cl (by decide)
  by_cases hw : writes
  · have ht : t = writeStopEntry e.sender { cls := clsOf cls, time := time, timeFlag := flag } trip s := by
      have hpart : isParticipant s e.sender = isParticipant s0 e.sender := by
        rw [isParticipant, show s.tc = s0.tc from h.1 .tc (by decide)]
        rfl
      have htrip : frameTrip s e time flag = trip := by rw [frameTrip_eq, hpart]
      rw [← htrip]
      exact if_pos (hwrites.mpr hw)
    have hw4 := writeStopEntry_writes e.sender { cls := clsOf cls, time := time, timeFlag := flag } trip h
    rw [ht]
    exact ⟨writeStopEntry_entries _ _ _ _, (writeStopEntry_gu _ _ _ _).trans hgu, (writeStopEntry_cl _ _ _ _).trans hcl,
      (writeStopEntry_pending _ _ _ _).trans h.2, fun hno => absurd hw hno, fun _ => hw4⟩
  · have ht : t = s := if_neg (mt hwrites.mp hw)
    rw [ht]
    exact ⟨rfl, hgu, hcl, h.2, fun _ => rfl, fun hyes => absurd hyes hw⟩

theorem stopFrame_meets {s s1 : State} {e : RxEntry} {f : StopFields} {i : Instr}
    (h : i = .stopClaim ∧ TakenFrame .stopClaim s e s1 ∧ e.payload = .stopClaim f ∨
      i = .stopRelease ∧ TakenFrame .stopRelease s e s1 ∧ e.payload = .stopRelease f) :
    exec i s = .next (takeStop e f s1) := by
  rcases h with ⟨rfl, htaken, hf⟩ | ⟨rfl, htaken, hf⟩
  · refine congrArg Host.Outcome.next ?_
    rw [stopClaimEffect, show takeOffer (fun p => p.kind == .stopClaim) s = _ from htaken]
    simp only [hf]
  · refine congrArg Host.Outcome.next ?_
    rw [stopReleaseEffect, show takeOffer (fun p => p.kind == .stopRelease) s = _ from htaken]
    simp only [hf]

theorem peerTakesStop_takes (n : Station) (cls : BitVec 2) (s : State) :
    ChangesOnly [.pt] s (peerTakesStop n cls s) ∧ (∀ m, m ≠ n → peer (peerTakesStop n cls s) m = peer s m) ∧
      ((peer s n).liveness = .silent → peerTakesStop n cls s = s) ∧
      ((peer s n).liveness ≠ .silent → peer (peerTakesStop n cls s) n = { peer s n with cls := clsOf cls }) := by
  by_cases h : (peer s n).liveness = .silent
  · rw [peerTakesStop, if_pos h]
    exact ⟨.refl _ s, fun _ _ => rfl, fun _ => rfl, fun hno => absurd h hno⟩
  · rw [peerTakesStop, if_neg h]
    exact ⟨changesOnly_pt (.head _), fun m hm => peer_setPeer_ne hm _ s, fun hs => absurd hs h,
      fun _ => peer_setPeer_self n _ s⟩

/-- Settles O12: the peer entry, and the class that the stop table forms with the written entry. -/
theorem stopFramesWriteTheStopTable : Obligations.StopFramesWriteTheStopTable := by
  intro s s1 e f i h
  have hmeets := stopFrame_meets h
  obtain ⟨q, hq⟩ : ∃ q, s1 = s.setLc { s.lc with rxq := q } := by
    rcases h with ⟨-, htaken, -⟩ | ⟨-, htaken, -⟩ <;> exact takeOffer_setLc htaken
  have hpeer1 : peer s1 = peer s := by rw [hq]; rfl
  obtain ⟨hchanges, hne, hsilent, hwritten⟩ := peerTakesStop_takes e.sender f.effective s1
  rw [hpeer1] at hne hsilent hwritten
  have h0 : ChangesOnly [.lc, .pt] s s1 := hq ▸ changesOnly_lc (.head _)
  have hlive : (peer (peerTakesStop e.sender f.effective s1) e.sender).liveness = (peer s e.sender).liveness := by
    by_cases hs : (peer s e.sender).liveness = .silent
    · rw [hsilent hs, hpeer1]
    · rw [hwritten hs]
  obtain ⟨hentries, hgu, hcl, hpending, hno, hyes⟩ := stopTakes_takes (s0 := s) (e := e) f.summary f.time f.timeFlag
    (h0.trans (hchanges.among (.tail _ (.head _)))) hlive
  rw [← takeStop] at hentries hgu hcl hpending hno hyes
  have hpeer : ∀ m, peer (takeStop e f s1) m = peer (peerTakesStop e.sender f.effective s1) m := fun m => by
    rw [peer, hentries]
    rfl
  refine ⟨_, hmeets, hgu, hcl, hpending, fun m hm => (hpeer m).trans (hne m hm), fun hs => ?_, fun hs => ?_, fun hown => ?_,
    fun hown hother hs => ?_⟩
  · rw [hno fun hw => hw.2.2 hs, hsilent hs]
  · rw [hpeer, hwritten hs]
  · rw [hno fun hw => hown.elim (fun h => by rw [hw.1] at h; cases h) hw.2.1, show (peerTakesStop _ _ s1).su = s1.su from
      hchanges.1 .su (by decide), hq]
    rfl
  · obtain ⟨hformed, hrise, hfall, hstays⟩ := hyes ⟨hown, hother, hs⟩
    rw [hformed.2]
    refine ⟨Table.get_set_self _ _ _, fun m hm => Table.get_set_ne _ hm.symm _, hformed.1, hrise, hfall, fun hsame => ?_⟩
    obtain ⟨hsu, heq⟩ := hstays hsame
    refine ⟨(h0.mono (by decide)).trans ((hchanges.mono (by decide)).trans (hsu.mono (by decide))), ?_, heq⟩
    rw [show (takeStop e f s1).lc = _ from hsu.1 .lc (by decide)]
    exact hchanges.1 .lc (by decide)

/-! ### STATE (R25, R110, R164, R187) -/

/-- A STATE frame without a meaningless field. -/
def stateMeaningful (f : StateFields) : Prop :=
  roleOf f.role ≠ none ∧ modeOf f.mode ≠ none ∧ rollResultMeaningful f.result f.cancelCause = true

/-- What the peer table makes of a STATE frame. -/
theorem peerTakesState_takes (n : Station) (f : StateFields) (s : State) :
    let t := peerTakesState n f s
    ChangesOnly [.lc, .pt] s t ∧ (∀ m, m ≠ n → peer t m = peer s m) ∧ (peer t n).liveness = (peer s n).liveness ∧
      ((peer s n).liveness = .silent → peer t n = peer s n) ∧
      (¬ stateMeaningful f → t = countMalformed s) ∧ (stateMeaningful f → t.lc = s.lc) ∧
      ∀ role mode, roleOf f.role = some role → modeOf f.mode = some mode →
        rollResultMeaningful f.result f.cancelCause = true → (peer s n).liveness ≠ .silent →
        peer t n = { peer s n with
          role := role, mode := mode, cls := clsOf f.cls, take := f.take, stamp := f.stamp,
          signature := f.signature, ready := f.ready, roll := f.roll, seq := f.seq,
          result := { result := f.result, cause := f.cancelCause, refusal := f.refusal, station := f.causeStation } } := by
  intro t
  by_cases hf : stateMeaningful f
  · obtain ⟨hrole, hmode, hresult⟩ := hf
    obtain ⟨role, hrole⟩ := Option.ne_none_iff_exists'.mp hrole
    obtain ⟨mode, hmode⟩ := Option.ne_none_iff_exists'.mp hmode
    have hrecord : recordState f (peer s n) = some { peer s n with
        role := role, mode := mode, cls := clsOf f.cls, take := f.take, stamp := f.stamp,
        signature := f.signature, ready := f.ready, roll := f.roll, seq := f.seq,
        result := { result := f.result, cause := f.cancelCause, refusal := f.refusal, station := f.causeStation } } := by
      simp only [recordState, hrole, hmode, if_pos hresult]
    by_cases hs : (peer s n).liveness = .silent
    · have ht : t = s := by
        simp only [t, peerTakesState, hrecord, if_pos hs]
      rw [ht]
      exact ⟨.refl _ s, fun _ _ => rfl, rfl, fun _ => rfl, fun hno => absurd ⟨by simp [hrole], by simp [hmode], hresult⟩ hno,
        fun _ => rfl, fun _ _ _ _ _ hno => absurd hs hno⟩
    · have ht : t = setPeer n { peer s n with
          role := role, mode := mode, cls := clsOf f.cls, take := f.take, stamp := f.stamp,
          signature := f.signature, ready := f.ready, roll := f.roll, seq := f.seq,
          result := { result := f.result, cause := f.cancelCause, refusal := f.refusal, station := f.causeStation } } s := by
        simp only [t, peerTakesState, hrecord, if_neg hs]
      rw [ht, peer_setPeer_self]
      refine ⟨changesOnly_pt (.tail _ (.head _)), fun m hm => peer_setPeer_ne hm _ s, rfl, fun hyes => absurd hyes hs,
        fun hno => absurd ⟨by simp [hrole], by simp [hmode], hresult⟩ hno, fun _ => rfl, fun role' mode' hrole' hmode' _ _ => ?_⟩
      rw [Option.some.inj (hrole.symm.trans hrole'), Option.some.inj (hmode.symm.trans hmode')]
  · have hrecord : recordState f (peer s n) = none := by
      rw [recordState]
      split
      · next role mode hrole hmode => exact if_neg fun hresult => hf ⟨by simp [hrole], by simp [hmode], hresult⟩
      · rfl
    have ht : t = countMalformed s := by
      simp only [t, peerTakesState, hrecord]
    rw [ht]
    refine ⟨changesOnly_lc (.head _), fun _ _ => rfl, rfl, fun _ => rfl, fun _ => rfl, fun hyes => absurd hyes hf,
      fun role mode hrole hmode hresult _ => absurd ⟨by simp [hrole], by simp [hmode], hresult⟩ hf⟩

/-- No raise and no return to IDLE writes the stop table. -/
theorem classFormed_stopTable (old : Cls) (trip : TakeTime) (s : State) :
    (classFormed old trip s).su.entries = s.su.entries := by
  have htake : (takeClass old trip s).su.entries = s.su.entries := by rw [(takeClass_blocks old trip s).1]
  refine classFormed_cases (P := fun t => t.su.entries = s.su.entries) rfl htake ?_
  generalize takeClass old trip s = u at htake
  have hstop : ∀ v : State, v.su = u.su → v.su.entries = s.su.entries := fun v hv => (congrArg StopUnit.entries hv).trans htake
  have hidle : ∀ v : State, v.su = u.su → (returnToIdle v).su.entries = s.su.entries := fun v hv => by
    rw [returnToIdle_eq, releaseKey_stopTable, (beforeRelease_blocks v).1]
    exact hstop v hv
  refine modeOnRise_cases (P := fun t => t.su.entries = s.su.entries) htake (hidle u rfl) (hstop _ (by simp)) ?_
  simp only [enterHalted]
  split
  · exact hidle _ (by simp)
  · exact hstop _ (by simp)

theorem raiseKey_stopTable (c : Cause) (cls : Cls) (s : State) : (raiseKey c cls s).su.entries = s.su.entries := by
  have hchange := fun own => (changeOwn_changes true c own s).2.2.2.2
  refine raiseKey_cases (P := fun t => t.su.entries = s.su.entries) (fun _ => rfl) (fun own _ => ?_) fun own trip _ => ?_
  · rw [announce_su, hchange]
  · rw [classFormed_stopTable, hchange]

/-- A participant whose entry shows another roll number, or a mode outside the roll. -/
def isAstray (s : State) (x : PlayContext) (n : Station) : Prop :=
  inMask x.mask n = true ∧ (some (peer s n).roll ≠ x.roll ∨
    ((peer s n).mode ≠ .rolling ∧ (peer s n).mode ≠ .playing ∧ (peer s n).mode ≠ .held ∧ (peer s n).mode ≠ .halted))

theorem mismatched_iff (s : State) (x : PlayContext) (n : Station) : mismatched s x n = true ↔ isAstray s x n := by
  simp only [mismatched, isAstray, Bool.and_eq_true, Bool.or_eq_true, bne_iff_ne, Bool.not_eq_true', Bool.or_eq_false_iff,
    beq_eq_false_iff_ne, and_assoc]

/-- When a STATE frame brings an examination, and what comes of it. -/
theorem examineOnState_examines (n : Station) (s : State) :
    let t := examineOnState n s
    let examines := s.tc.grace = .over ∧ isParticipant s n = true ∧ (s.tc.mode = .playing ∨ s.tc.mode = .held)
    (¬ examines → t = s) ∧ ∀ x, s.tc.ctx = some x → examines →
      ((∀ m, ¬ isAstray s x m) → t = s) ∧ ((∃ m, isAstray s x m) → t = raiseKey .peerMismatch .hold s) := by
  intro t examines
  have hplay : inPlay s.tc.mode = true ↔ s.tc.mode = .playing ∨ s.tc.mode = .held := by simp [inPlay]
  have hany : ∀ x, allStations.any (mismatched s x) = true ↔ ∃ m, isAstray s x m := fun x => by
    simp only [allStations, List.any_eq_true, List.mem_finRange, true_and, mismatched_iff]
  refine ⟨fun hno => ?_, fun x hctx hyes => ⟨fun hnone => ?_, fun hm => ?_⟩⟩
  · simp only [t, examineOnState]
    split
    · next h =>
      rw [examineMismatch]
      split
      · rfl
      · exact if_neg fun hm => hno ⟨h.1, h.2, hplay.mp (Bool.and_eq_true_iff.mp hm).1⟩
    · rfl
  · simp only [t, examineOnState, if_pos (And.intro hyes.1 hyes.2.1), examineMismatch, hctx]
    exact if_neg fun hm => by
      obtain ⟨m, hm⟩ := (hany x).mp (Bool.and_eq_true_iff.mp hm).2
      exact hnone m hm
  · simp only [t, examineOnState, if_pos (And.intro hyes.1 hyes.2.1), examineMismatch, hctx]
    exact if_pos (Bool.and_eq_true_iff.mpr ⟨hplay.mpr hyes.2.2, (hany x).mpr hm⟩)

/-- A mismatch claim that stands is raised no further. -/
theorem raiseKey_standing {s : State} (hi : ClaimsInv s) (h : ∃ k ∈ s.su.own, k.cause = .peerMismatch) :
    raiseKey .peerMismatch .hold s = s := by
  refine raiseKey_cases (P := fun t => t = s) (fun _ => rfl) (fun own hraised => ?_) fun own trip hraised => ?_
  all_goals
    obtain ⟨k, hk, hcause⟩ := h
    exfalso
    simp only [raisedSet] at hraised
    split at hraised
    · next hnone => exact absurd (beq_iff_eq.mpr hcause) (List.find?_eq_none.mp hnone k hk)
    · next k' hfind =>
      have hcls := hi.mismatch k' (List.mem_of_find?_eq_some hfind) (beq_iff_eq.mp
        (List.find?_some (p := fun k : Claim => k.cause == .peerMismatch) hfind))
      rw [hcls, if_neg (by decide)] at hraised
      cases hraised

theorem hands_stopTakes (e : RxEntry) (cls : BitVec 2) (time : TakeTime) (flag : Bool) (s : State) :
    Hands 1 s.lc (stopTakes e cls time flag s).lc := by
  rw [stopTakes]
  split
  · exact hands_classFormed _ _ (formClass (s.setSu _))
  · exact (Hands.refl _).mono (Nat.zero_le 1)

theorem examineOnState_keeps (n : Station) (s : State) :
    let t := examineOnState n s
    t.pt.entries = s.pt.entries ∧ t.gu = s.gu ∧ t.cl = s.cl ∧ t.pending = s.pending ∧ t.su.entries = s.su.entries ∧
      Hands 2 s.lc t.lc := by
  have hsame : s.pt.entries = s.pt.entries ∧ s.gu = s.gu ∧ s.cl = s.cl ∧ s.pending = s.pending ∧
      s.su.entries = s.su.entries ∧ Hands 2 s.lc s.lc := ⟨rfl, rfl, rfl, rfl, rfl, (Hands.refl _).mono (Nat.zero_le 2)⟩
  simp only [examineOnState, examineMismatch]
  split
  · split
    · exact hsame
    · split
      · exact ⟨raiseKey_entries _ _ s, raiseKey_gu _ _ s, raiseKey_cl _ _ s, raiseKey_pending _ _ s,
          raiseKey_stopTable _ _ s, hands_raiseKey _ _ s⟩
      · exact hsame
  · exact hsame

theorem state_meets {s s1 : State} {e : RxEntry} {f : StateFields} (h : TakenFrame .state s e s1) (hf : e.payload = .state f) :
    exec .state s = .next (examineOnState e.sender
      (stopTakes e f.summary f.stopTime f.timeFlag (peerTakesState e.sender f s1))) := by
  refine congrArg Host.Outcome.next ?_
  rw [stateEffect, show takeOffer (fun p => p.kind == .state) s = _ from h]
  simp only [hf]

/-- What the raise of PEER-MISMATCH by an examination makes of the node. -/
theorem raiseKey_mismatch {u : State} (hi : ClaimsInv u) (hplay : u.tc.mode = .playing ∨ u.tc.mode = .held) :
    let t := raiseKey .peerMismatch .hold u
    (∃ k ∈ t.su.own, k.cause = .peerMismatch ∧ clsGe k.cls .hold) ∧
      ((∃ k ∈ u.su.own, k.cause = .peerMismatch ∧ clsGe k.cls .hold) → t = u) ∧ t.tc = u.tc ∧ t.fd = u.fd ∧
      (u.su.effective = .none → ClassRises .hold u.pu.t u t) ∧
      (u.su.effective ≠ .none → t.su.effective = u.su.effective ∧ ChangesOnly [.lc, .pu, .su] u t) := by
  intro t
  obtain ⟨hstands, htc⟩ := raiseKey_holds (c := .peerMismatch) hi hplay
  obtain ⟨hrises, hstays⟩ := raiseKey_hold_acts (c := .peerMismatch) hplay hi
  have hrank : u.su.effective ≠ .none → clsRank .hold ≤ clsRank u.su.effective := fun hne => by
    cases h : u.su.effective <;> first | exact absurd h hne | decide
  refine ⟨hstands, fun ⟨k, hk, hcause, _⟩ => raiseKey_standing hi ⟨k, hk, hcause⟩, htc, ?_,
    fun hnone => hrises (by rw [hnone]; decide), fun hne => ?_⟩
  · by_cases hnone : u.su.effective = .none
    · have hrise := hrises (by rw [hnone]; decide)
      refine (hrise.kept ?_ ?_ fun _ => rfl).2
      · rintro (hm | hm | ⟨-, hhalt, -⟩)
        · rcases hplay with h | h <;> exact nomatch h.symm.trans hm
        · rcases hplay with h | h <;> exact nomatch h.symm.trans hm
        · exact absurd hhalt (by decide)
      · rcases hplay with h | h <;> rw [h] <;> exact nofun
    · exact (hstays (hrank hnone)).1.2.2.2.1
  · obtain ⟨hchanges, heff, -⟩ := raiseKey_stays (c := .peerMismatch) hi (hrank hne)
    exact ⟨heff, hchanges⟩

/-- Settles O11: the peer entry, the stop table with the class that it forms, and the examination of the participants. -/
theorem stateFrameRecorded : Obligations.StateFrameRecorded := by
  intro s s1 e f h hf
  have hmeets := state_meets h hf
  obtain ⟨q, hq⟩ := takeOffer_setLc h
  have hpeer1 : peer s1 = peer s := by rw [hq]; rfl
  have h0 : ChangesOnly [.lc, .pt] s s1 := hq ▸ changesOnly_lc (.head _)
  obtain ⟨hchanges, hne, hlive, hsilent, hbad, hgood, hwritten⟩ := peerTakesState_takes e.sender f s1
  rw [hpeer1] at hne hlive hsilent hwritten
  generalize hv : peerTakesState e.sender f s1 = v at *
  obtain ⟨hentries, hgu, hcl, hpending, hno, hyes⟩ := stopTakes_takes (s0 := s) (e := e) f.summary f.stopTime f.timeFlag
    (h0.trans hchanges) hlive
  have hhands := hands_stopTakes e f.summary f.stopTime f.timeFlag v
  generalize hu : stopTakes e f.summary f.stopTime f.timeFlag v = u at *
  obtain ⟨htentries, htgu, htcl, htpending, httable, hthands⟩ := examineOnState_keeps e.sender u
  obtain ⟨hnoexam, hexam⟩ := examineOnState_examines e.sender u
  have hpeer : ∀ m, peer (examineOnState e.sender u) m = peer v m := fun m => by
    rw [peer, htentries, hentries]
    rfl
  have hpeeru : ∀ m, peer u m = peer (examineOnState e.sender u) m := fun m => by
    rw [hpeer, peer, hentries]
    rfl
  have hvsu : v.su = s.su := (h0.trans hchanges).1 .su (by decide)
  have hmeaning : (roleOf f.role = none ∨ modeOf f.mode = none ∨ rollResultMeaningful f.result f.cancelCause = false) ↔
      ¬ stateMeaningful f := by
    rw [stateMeaningful, not_and_or, not_and_or, not_not, not_not, Bool.not_eq_true]
  refine ⟨_, hmeets, htgu.trans hgu, htcl.trans hcl, htpending.trans hpending, fun m hm => (hpeer m).trans (hne m hm),
    fun role mode hrole hmode hresult hs => ?_, fun hmeaningless => ?_, fun hs => ?_, fun hown hother hs => ?_, fun hown => ?_,
    u, ?_, ?_⟩
  · rw [hpeer, hwritten role mode hrole hmode hresult hs]
  · have hbad' := hbad ((hmeaning).mp hmeaningless)
    refine ⟨?_, ?_⟩
    · rw [hpeer, hbad']
      exact congrFun hpeer1 _
    · obtain ⟨m, hm⟩ := (hhands.trans hthands).counters
      rw [hm, hbad', hq]
      rfl
  · exact ⟨(hpeer _).trans (hsilent hs), by rw [httable, hno fun hw => hw.2.2 hs, hvsu]⟩
  · obtain ⟨hformed, -⟩ := hyes ⟨hown, hother, hs⟩
    rw [httable, hformed.2]
    exact ⟨Table.get_set_self _ _ _, fun m hm => Table.get_set_ne _ hm.symm _⟩
  · rw [httable, hno fun hw => hown.elim (fun h => by rw [hw.1] at h; cases h) hw.2.1, hvsu]
  · rw [httable]
    refine ⟨fun hsame => ?_, fun hw => ?_⟩
    · have hvlc : (¬ (roleOf f.role = none ∨ modeOf f.mode = none ∨
            rollResultMeaningful f.result f.cancelCause = false) → v.lc = s1.lc) ∧
          (roleOf f.role = none ∨ modeOf f.mode = none ∨ rollResultMeaningful f.result f.cancelCause = false →
            v.lc = (countMalformed s1).lc) :=
        ⟨fun hno => hgood (not_not.mp fun hm => hno (hmeaning.mpr hm)), fun hm => by rw [hbad (hmeaning.mp hm)]⟩
      have h0v : ChangesOnly [.lc, .pt, .su] s v := (h0.trans hchanges).mono (by decide)
      by_cases hw : e.own = false ∧ e.sender ≠ s.cl.station ∧ (peer s e.sender).liveness ≠ .silent
      · obtain ⟨hformed, -, -, hstays⟩ := hyes hw
        obtain ⟨hsu, heq⟩ := hstays (by rw [← hformed.2]; exact hsame hw)
        rw [show u.lc = v.lc from hsu.1 .lc (by decide), hformed.2]
        exact ⟨h0v.trans (hsu.mono (by decide)), fun hno => absurd hw hno, fun _ => heq, hvlc⟩
      · rw [hno hw]
        exact ⟨h0v, fun _ => hvsu, fun hyes => absurd hyes hw, hvlc⟩
    · obtain ⟨hformed, hrise, hfall, -⟩ := hyes hw
      rw [hformed.2]
      exact ⟨hformed.1, hrise, hfall⟩
  · have hastray : ∀ x n, isAstray u x n ↔ (inMask x.mask n = true ∧ (some (peer (examineOnState e.sender u) n).roll ≠ x.roll ∨
        ((peer (examineOnState e.sender u) n).mode ≠ .rolling ∧ (peer (examineOnState e.sender u) n).mode ≠ .playing ∧
          (peer (examineOnState e.sender u) n).mode ≠ .held ∧ (peer (examineOnState e.sender u) n).mode ≠ .halted))) :=
      fun x n => by rw [isAstray, hpeeru]
    refine ⟨hnoexam, fun x hctx hexamines => ?_⟩
    simp only [← hastray]
    obtain ⟨hnone, hsome⟩ := hexam x hctx hexamines
    refine ⟨hnone, fun hm hi => ?_⟩
    have hiu : ClaimsInv u := hu ▸ (keeps_stopTakes _ _ _ _ v).claims (claimsInv_congr (s := s) hvsu hi)
    rw [hsome hm]
    exact raiseKey_mismatch hiu hexamines.2.2

end Sys2Proof.Machine
end
